-- ==== Sys2Proof/Word.lean ====
section
/-! DEFINITION. Words, identities and the sorted association lists that every unit of the model is held in. -/

namespace Sys2Proof

/-- A byte of memory or of a mailbox value (R10). -/
abbrev Byte := BitVec 8
/-- A 32-bit register or memory word (R51). -/
abbrev Word := BitVec 32
/-- A 64-bit control register or value. -/
abbrev DWord := BitVec 64
/-- A core ID, row * 32 + column (R17). -/
abbrev CoreId := BitVec 10
/-- A cluster ID (R17). -/
abbrev ClusterId := BitVec 6
/-- One of the eight memory stacks (R224). -/
abbrev StackId := BitVec 3
/-- One of the 18 link ports (R394). -/
abbrev PortId := Fin 18
/-- A general register number g0-g15 (R51). -/
abbrev Reg := BitVec 4
/-- A DMA channel of a cluster (R328). -/
abbrev ChanId := BitVec 3
/-- A tile number: 0 fa0, 1 fa1, 2 ba0, 3 ba1 (Table 4.9). -/
abbrev TileId := BitVec 2
/-- A segment descriptor number sd0-sd7 (R75). -/
abbrev SdId := BitVec 3
/-- A conversion descriptor number cd0-cd7 (R43). -/
abbrev CdId := BitVec 3
/-- A vector register number v0-v31 (R176). -/
abbrev VReg := BitVec 5
/-- A program-memory word address (R53). -/
abbrev PAddr := BitVec 14
/-- A 56-bit fabric address, device ID in bits [55:46] (R229). -/
abbrev FAddr := BitVec 56
/-- A device ID (R229). -/
abbrev DevId := BitVec 10
/-- A fabric node ID (R248). -/
abbrev NodeId := BitVec 11

/-- A table of values by number, kept as a list of pairs with rising keys; a key the list lacks reads as a default that the reader names. -/
abbrev Table (α : Type) := List (Nat × α)

/-- The engine of a core: the F-engine or the B-engine (R138). -/
inductive Engine where
  | f | b
deriving DecidableEq, Repr

/-- What the check bits found when a row or burst was read (R126, R225). -/
inductive Ecc where
  | clean | corrected | uncorrectable
deriving DecidableEq, Repr

/-- The width of a register access, or of a monitor access (R511). -/
inductive Width where
  | w8 | w16 | w32 | w64 | w256 | w512 | w4096
deriving DecidableEq, Repr

/-- Bytes of an access width. -/
def Width.bytes : Width → Nat
  | .w8 => 1 | .w16 => 2 | .w32 => 4 | .w64 => 8 | .w256 => 32 | .w512 => 64 | .w4096 => 512

/-- The space a REGISTER_WRITE names: a local fabric address, an offset of BAR0, or one of the PCIe configuration space (R11, R416, R420). -/
inductive RegSpace where
  | local_ | bar0 | config
deriving DecidableEq, Repr

/-- What a host read names: an offset of BAR2, of BAR0 or of the PCIe configuration space (R417, R420, R423). -/
inductive HostRead where
  | bar2 (off : Nat)
  | bar0 (off : Nat)
  | config (off : Nat)
deriving DecidableEq, Repr

/-- The first two bytes of a dictionary request over MCTP (Table 19.5): the instance tag, and the command, 0x01 in a read. -/
structure MctpTag where
  tag : Byte
  cmd : Byte := 1
deriving DecidableEq, Repr

/-- The packet kinds of Table 11.4; the reserved codes 0xB-0xF are one constructor that carries the code. -/
inductive PKind where
  | rd | wr | rdr | wack | err | msg | cmb | sem | sack | crd | ctl | res (code : BitVec 4)
deriving DecidableEq, Repr

/-- A fabric packet: the header of Table 11.3 with its side band or small payload, and its data flits. A payload of up to 32 bytes stands in the low bits of `side`. -/
structure Packet where
  kind   : PKind
  ord    : Bool := false
  red    : Bool := false
  sb     : Bool := false
  psn    : Bool := false
  rfmt   : BitVec 2 := 0
  size   : BitVec 4 := 6
  tid    : BitVec 12 := 0
  dst    : NodeId := 0
  dport  : BitVec 3 := 0
  ddev   : DevId := 0
  src    : NodeId := 0
  sport  : BitVec 3 := 0
  sdev   : DevId := 0
  addr   : FAddr := 0
  cnt    : BitVec 16 := 0
  status : BitVec 4 := 0
  op6    : Word := 0
  op7    : Word := 0
  side   : BitVec 256 := 0
  data   : BitVec 4096 := 0
  /-- where it stands on its way: ring links passed (R250-R252), 0 in its injection queue; with links passed it holds an input buffer of the router that the last one leads to -/
  hop    : Nat := 0
  /-- DEVT from which it may take its next link (Table 11.6); 0 before it is looked at -/
  ready  : Nat := 0
  /-- cycles it has waited to inject or to turn (R257) -/
  wait   : Nat := 0
  /-- the link port of this device that it came in by (R409) -/
  via    : Option Nat := none
  /-- the link port that its injection point chose for it (R407, R408) -/
  out    : Option Nat := none
deriving DecidableEq, Repr

/-- The packet as its header and flits tell it, without its place on this die. -/
def Packet.bare (p : Packet) : Packet := { p with hop := 0, ready := 0, wait := 0, via := none, out := none }

/-- A control flit (Table 17.4). -/
structure CtlFlit where
  type  : Byte
  copy  : Byte := 0
  orig  : BitVec 16 := 0
  val   : BitVec 16 := 0
  beat  : DWord := 0
  last  : DWord := 0
  held  : Word := 0
  /-- CCRC matched -/
  crc   : Bool := true
deriving DecidableEq, Repr

/-- One slot of a link frame (R396): idle, a control flit (a received one is acted on by a command of its own, R400), the header flit of a packet, or a data flit. -/
inductive Slot where
  | idle
  | control (f : CtlFlit)
  | hdr (p : Packet)
  | dat (d : BitVec 512)
deriving DecidableEq, Repr

/-- A link frame (R396, Table 17.3): the trailer, slots 0-31 (those not listed are idle), and what the FEC and the frame check of a receiver find. -/
structure Frame where
  seq   : BitVec 12
  ack   : BitVec 12
  nak   : Bool := false
  rpl   : Bool := false
  cr0   : BitVec 16 := 0
  cr1   : BitVec 16 := 0
  cr2   : BitVec 16 := 0
  slots : List Slot := []
  /-- uncorrectable codewords of the frame -/
  unc   : Nat := 0
  /-- corrected symbols of the frame -/
  corr  : Nat := 0
  /-- FCRC matched -/
  fcrc  : Bool := true
deriving DecidableEq, Repr

/-- The header of a fetched mailbox request (R426): TAG, LEN, and whether every res byte is zero. -/
structure ReqHdr where
  tag   : Word
  len   : BitVec 16
  resOk : Bool := true
deriving DecidableEq, Repr

/-- A write of range 0x7000, which an SPDM session carries (R491). -/
structure Secured (α : Type) where
  session : Nat := 1
  value   : α
deriving DecidableEq, Repr

/-- What a KEY_EXCHANGE brings (R489, R496): the requester's DHE share, and the certificate chain of a requester that authenticates itself, root first, each certificate in DER; no chain, no authentication. -/
structure KeyExchange where
  share : List Byte := []
  chain : List (List Byte) := []
deriving DecidableEq, Repr

/-- What the outside world decides during a start (R459, R471, R472, R526): the step that fails, if any, and the unit concerned, the stacks that fail their self-refresh exit check, the step from S7 to S11 in which the supply state leaves GOOD and its code from then on, the input voltage and PWR_WARN_N at the end of S1, the board straps, and the durations of the steps. -/
structure StartResult where
  failStep : Option Nat := none
  failUnit : Nat := 0
  srFail   : List (Fin 8) := []
  leaves   : Option (Nat × Nat) := none
  mv       : Nat := 48000
  warnLow  : Bool := false
  bpos     : BitVec 3 := 0
  durs     : List Word := []
deriving DecidableEq, Repr

namespace Table

/-- The value at key `i`, or `d` where the list names none. -/
def get {α : Type} (d : α) : Table α → Nat → α
  | [], _ => d
  | (k, v) :: m, i => if k = i then v else get d m i

/-- The value listed at key `i`, if any. -/
def look {α : Type} : Table α → Nat → Option α
  | [], _ => none
  | (k, v) :: m, i => if k = i then some v else look m i

/-- The table with value `v` at key `i`; keys stay in rising order. -/
def put {α : Type} : Table α → Nat → α → Table α
  | [], i, v => [(i, v)]
  | (k, w) :: m, i, v =>
    if i < k then (i, v) :: (k, w) :: m
    else if k = i then (i, v) :: m
    else (k, w) :: put m i v

/-- The table without key `i`. -/
def erase {α : Type} : Table α → Nat → Table α
  | [], _ => []
  | (k, w) :: m, i => if k = i then erase m i else (k, w) :: erase m i

/-- The table with value `v` at key `i` in canonical form: the default `d` is never listed. -/
def putc {α : Type} [DecidableEq α] (d : α) (m : Table α) (i : Nat) (v : α) : Table α :=
  if v = d then erase m i else put m i v

/-- The canonical form: keys strictly rising from `lo` on, and no entry equal to the default `d`. -/
def wfFrom {α : Type} [DecidableEq α] (d : α) : Nat → Table α → Bool
  | _, [] => true
  | lo, (k, v) :: m => decide (lo ≤ k) && decide (v ≠ d) && wfFrom d (k + 1) m

/-- The canonical form of a whole table. -/
def wf {α : Type} [DecidableEq α] (d : α) (m : Table α) : Bool := wfFrom d 0 m

end Table

end Sys2Proof
end

