-- ==== Sys2Proof/Machine/CoreState.lean ====
section
/-! DEFINITION. The state of one core's tile of the die: the scalar core, its fault and run-control state, its scratchpads, cache, matrix engines, vector unit and queue unit. -/

namespace Sys2Proof.Machine

/-- The programmer-visible state of a scalar core (Table 3.1) and its control registers (Tables 3.8-3.12, 4.2, 4.5-4.7, 4.11, 4.12). [DESIGN CHOICE, log entry 4: unsafe] -/
structure Cpu where
  /-- Program counter, a word address (R53). -/
  pc      : PAddr := 0
  /-- Program memory words; an unlisted word reads 0. -/
  prog    : Table (BitVec 14) := []
  /-- g1-g15; an unlisted register reads 0. -/
  regs    : Table Word := []
  /-- Return-stack entries (R67). -/
  rstack  : Table PAddr := []
  /-- RSP.DEPTH, 0-8. -/
  depth   : BitVec 4 := 0
  /-- RSP.TOP. -/
  top     : BitVec 3 := 7
  lc0     : Word := 0
  ls0     : PAddr := 0
  le0     : PAddr := 0
  lc1     : Word := 0
  ls1     : PAddr := 0
  le1     : PAddr := 0
  /-- CSR.SUP (Table 3.11). -/
  sup     : Bool := true
  /-- CSR.RSO. -/
  rso     : Bool := true
  /-- CSR.IE. -/
  ie      : Bool := false
  /-- TSBP.ADDR (Table 4.7). -/
  tsAddr  : BitVec 30 := 0
  tsSaved : Bool := false
  tsV     : Bool := false
  /-- XVB.BASE (Table 4.2). -/
  xvb     : BitVec 8 := 0
  /-- ESP.ADDR (Table 4.11). -/
  espAddr : BitVec 30 := 0
  espAct  : Bool := false
  espV    : Bool := false
  /-- QUIET (Table 4.12). -/
  qAct    : Bool := false
  qOvr    : Bool := false
  qLeft   : BitVec 9 := 0
  qLen    : BitVec 8 := 0xFF
  /-- CYC, region-clock cycles since reset (Table 3.8). -/
  cyc     : Word := 0
  /-- BEATL, the beat counter as this core sees it. -/
  beatl   : Word := 0
  /-- INTP: bit 0 MGMT, 1 BEAT, 2 SSD, 3 DMA (Table 4.5). -/
  intp    : BitVec 4 := 0
  /-- INTE; bit 0 MGMT always reads 1 (Table 4.6). -/
  inte    : BitVec 4 := 1
  /-- The one-instruction shadow of R79 is in force. -/
  shadow  : Bool := false
  /-- sd0-sd7 (Table 3.10). -/
  sds     : Table (BitVec 128) := []
  /-- cd0-cd7 (Table 2.7). -/
  cds     : Table Word := []
deriving DecidableEq, Repr

/-- A pending response-time fault (R89, R90). -/
structure RespFault where
  vec   : BitVec 8
  sub   : Byte
  info  : Word
  faddr : FAddr
  fpc   : PAddr
deriving DecidableEq, Repr

/-- An entry whose save writes are not all acknowledged (R102). -/
structure Saving where
  /-- Transaction ID of its first save write. -/
  tid   : BitVec 12
  /-- Save writes still unacknowledged. -/
  left  : Nat
  /-- The writes go to the escalation frame (R108). -/
  frame : Bool
  /-- CAUSE of the entry, for an escalation frame that records its failure. -/
  cause : Word
  /-- The pc that the entry saved. -/
  pc    : PAddr
  /-- FADDR, FPC and INFO of the entry. -/
  faddr : FAddr
  fpc   : PAddr
  info  : Word
deriving DecidableEq, Repr

/-- An event that R90 takes first, waiting for an instruction boundary: a save write of an entry failed (R102, R108), or a response-time fault arose while the escalation handler ran (R109). -/
inductive CoreDue where
  | save (v : Saving)
  | resp
deriving DecidableEq, Repr

/-- RC_STAT.STATE (Table 16.7). -/
inductive RunSt where
  | stopped | running | halted | failed
deriving DecidableEq, Repr

/-- Why a core's issue is held (R84, R358). -/
inductive Wait where
  | none
  /-- results of loads to these registers, or of every load where none is named (R84, R101) -/
  | load (gs : List Reg)
  /-- response rows of an mld or mst (R95) -/
  | rows
  /-- a fence of these scopes (R320) -/
  | fence (m : BitVec 4)
  /-- a bwait -/
  | bwait
  /-- credits or send-buffer room of a send (R292), with its entry -/
  | send (e : BitVec 5)
  /-- a translation table entry (R317) -/
  | miss (key : Nat)
  /-- anything else: operation slots, stage buffers, a BUSY tile, the store buffer -/
  | other
deriving DecidableEq, Repr

/-- A precise fault as an instruction meets it (R89, R92). -/
structure Trip where
  vec   : Nat
  sub   : Nat
  info  : Nat := 0
  faddr : FAddr := 0
  row   : Bool := false
  tile  : Nat := 0
deriving DecidableEq, Repr

/-- What an entry records (Tables 4.8, 4.9). -/
structure Cause where
  /-- 0 fault, 1 interrupt, 2 trap. -/
  kind  : Nat
  vec   : Nat
  sub   : Nat
  pc    : PAddr
  info  : Nat := 0
  faddr : FAddr := 0
  fpc   : PAddr := 0
  imp   : Bool := false
  row   : Bool := false
  tile  : Nat := 0
deriving DecidableEq, Repr

/-- Why a tile transfer requests no further row (R96, R379): an interrupt of a vector, or a STOP. -/
inductive Cut where
  | none
  | int (vec : Nat)
  | stop
deriving DecidableEq, Repr

/-- An mld or mst that holds issue (R95, R148): the descriptor latched at issue (R77) with its number, the offset of transfer row 0, REL, the row it started at, the next row to request, the remote rows unanswered, the lowest row that failed with its vector, sub-cause and address, why it stops early, the address of the instruction. -/
structure TileMove where
  store : Bool
  tile  : TileId
  sd    : SdId
  desc  : BitVec 128
  off   : Nat
  rel   : Bool
  start : Nat
  next  : Nat
  left  : Nat := 0
  fail  : Option (Nat × Nat × Nat × FAddr) := Option.none
  cut   : Cut := .none
  pc    : PAddr
deriving DecidableEq, Repr

/-- A command that has issued and holds issue until it completes (R84, R95, R307). -/
inductive Hold where
  | none
  /-- A multi-pass mm (R146): tile, MODs and MSH latched, next pass, number of passes, address of the instruction. -/
  | mm (tile : TileId) (left right msh : Word) (clr : Bool) (next kp : Nat) (pc : PAddr)
  /-- An mld or mst that moves its rows (R95, R148). -/
  | rows (m : TileMove)
  /-- A semaphore command that waits for its SACK (R307): TID, name word, whether it is a swait, whether a cancel is outstanding (R309). -/
  | sem (tid : BitVec 12) (snw : Word) (wait : Bool) (cancel : Bool) (pc : PAddr)
  /-- An event that has been chosen and waits to be entered: until the register results of earlier instructions are written (R101) and no device-wide stall is in force (R111). -/
  | trap (e : Cause)
  /-- A command whose wait ended in a device-wide stall: it completes at the stall's end (R111, R358); address and words of the instruction. -/
  | done (pc : PAddr) (n : Nat)
deriving DecidableEq, Repr

/-- Run control (R379) and what holds the core's issue. -/
structure RunCtl where
  st     : RunSt := .stopped
  spc    : PAddr := 0
  /-- RC_PC. -/
  rcpc   : PAddr := 0
  /-- RC_ID.ROLE. -/
  role   : BitVec 16 := 0xFFFF
  /-- RC_ID.LCORE. -/
  lcore  : BitVec 10 := 0
  /-- A STOP waits for the end of an entry sequence, a reti or a multi-row instruction. -/
  stopRq : Bool := false
  hold   : Hold := .none
  wait   : Wait := .none
  /-- Consecutive region cycles for which issue has been held on a load, rows or a fence (R358). -/
  held   : Nat := 0
  /-- A response-hold stall request of this core is in force (R358). -/
  stall  : Bool := false
  /-- The response-time fault held pending (R90). -/
  pend   : Option RespFault := none
  /-- The MORE flag (R90). -/
  more   : Bool := false
  /-- Entries whose save writes are not all acknowledged, oldest first (R102). -/
  saving : List Saving := []
  due    : Option CoreDue := Option.none
deriving DecidableEq, Repr

/-- A scratchpad row with its side band (R112) and what its check bits show until it is next written (R126). -/
structure Row where
  data : BitVec 4096 := 0
  side : BitVec 256 := 0
  err  : Ecc := .clean
deriving DecidableEq, Repr

/-- The row an unlisted scratchpad row reads as. -/
def Row.zero : Row := {}

/-- The three scratchpads of a core. -/
inductive Pad where
  | w | a | p
deriving DecidableEq, Repr

/-- Scratchpads W, A and P by row number (R112). -/
structure Pads where
  w : Table Row := []
  a : Table Row := []
  p : Table Row := []
deriving DecidableEq, Repr

/-- A load that waits for its bytes: destination, width, extension, byte address, and what a fault names (R89). -/
structure LoadWait where
  reg   : Reg
  width : Nat
  sext  : Bool
  addr  : FAddr
  pc    : PAddr
  sd    : SdId
  /-- Bytes that earlier stores had merged into the fill when the load joined it (R130). -/
  mask  : BitVec 64 := 0
  seen  : BitVec 512 := 0
deriving DecidableEq, Repr

/-- A line fill in flight (R129, R132, R134). -/
structure Fill where
  tid     : BitVec 12
  /-- Bits [55:6] of the line's address. -/
  line    : BitVec 50
  /-- A prefetch into the side buffer, software or next-line (R134). -/
  pref    : Bool
  /-- The load that made a software prefetch; its error is a response-time fault. -/
  soft    : Option LoadWait
  waiters : List LoadWait
  /-- Bytes merged by stores while the fill is in flight (R130). -/
  mask    : BitVec 64
  merged  : BitVec 512
  /-- Marked by an invalidation: not to be installed (R132). -/
  dropped : Bool
deriving DecidableEq, Repr

/-- A store-buffer entry: bytes of one 64-byte line, and the oldest store merged into it (R130). -/
structure SbEntry where
  line  : BitVec 50
  mask  : BitVec 64
  bytes : BitVec 512
  ctrl  : Bool
  pc    : PAddr
  sd    : SdId
  addr  : FAddr
  /-- Bytes of a CTRL store. -/
  width : Nat
deriving DecidableEq, Repr

/-- What a core has outstanding under a transaction ID, beside its fills and semaphore operations. -/
inductive OutOp where
  /-- an uncached or control load (R128) -/
  | load (l : LoadWait)
  /-- a sent store-buffer entry: its packets share the fault of the oldest store (R130) -/
  | store (pc : PAddr) (sd : SdId) (addr : FAddr)
  /-- a save write of the entry whose first save write has this transaction ID (R102) -/
  | save (entry : BitVec 12)
  /-- a row of an mld or mst (R95) -/
  | row (idx : Nat) (addr : FAddr)
  /-- a qsend row or a qcmb row with RED = 0 (R320) -/
  | msg (entry : BitVec 5)
deriving DecidableEq, Repr

/-- The load and store side of a core: cache (R127), side buffer (R134), store buffer (R130), outstanding accesses. -/
structure Lsu where
  /-- Cache lines by set * 4 + way: the line's address bits [55:6] and bytes. -/
  lines   : Table (BitVec 50 × BitVec 512) := []
  /-- Pseudo-LRU bits T2 T1 T0 by set (R127). -/
  lru     : Table (BitVec 3) := []
  /-- Side-buffer lines, oldest first. -/
  side    : List (BitVec 50 × BitVec 512) := []
  fills   : List Fill := []
  sbuf    : List SbEntry := []
  outs    : List (BitVec 12 × OutOp) := []
  /-- Semaphore operations whose SACK has not returned (R308): TID, H flag held, name word, value-word address, pc. -/
  sems    : List (BitVec 12 × Bool × Word × FAddr × PAddr) := []
  nextTid : BitVec 12 := 0
  /-- DC_CTL.DIS, PFD, WAYMEM (Table 5.8). -/
  dis     : Bool := false
  pfd     : BitVec 2 := 1
  waymem  : BitVec 2 := 0
  /-- Way-memory bytes written, by offset in the window (R136). -/
  wmem    : Table Byte := []
  /-- Free-value index of ways 3, 2, 1 at their last conversion (R136: content "x"). -/
  wfree   : Table Nat := []
deriving DecidableEq, Repr

/-- A requested pass of an mm (R144, R146). -/
structure Pass where
  tile  : TileId
  left  : Word
  right : Word
  msh   : Word
  /-- CLR takes effect at this pass: the instruction's first, started at SROW 0 (R146). -/
  clr   : Bool
  idx   : Nat
  /-- Left and right operand rows delivered to its stage buffer so far (R155). -/
  lrows : List Row := []
  rrows : List Row := []
deriving DecidableEq, Repr

/-- A pass in the array, its rows all delivered, its sums not yet written. -/
structure Running where
  pass  : Pass
  /-- Operand rows as delivered. -/
  lrows : List Row
  rrows : List Row
  /-- Cycles of its steps still to run; at 0 its stage buffer is free (R155). -/
  left  : Nat := 0
deriving DecidableEq, Repr

/-- One matrix engine: passes requested and waiting for the array, the pass in the array, and a pass whose steps have ended but whose sums are not yet written (R155). -/
structure EngineSt where
  queue : List Pass := []
  array : Option Running := none
  tail  : Option Running := none
deriving DecidableEq, Repr

/-- A tile's status MTS (Table 6.7) and its FP32 elements by index 32m + n. -/
structure Tile where
  inuse : Bool := false
  busy  : Bool := false
  ms    : BitVec 5
  ns    : BitVec 5 := 31
  srow  : BitVec 16 := 0
  elems : Table Word := []
deriving DecidableEq, Repr

/-- Both engines and their four tiles (R138). -/
structure Matrix where
  fa0 : Tile := { ms := 15 }
  fa1 : Tile := { ms := 15 }
  ba0 : Tile := { ms := 31 }
  ba1 : Tile := { ms := 31 }
  f   : EngineSt := {}
  b   : EngineSt := {}
deriving DecidableEq, Repr

/-- The vector unit: registers, function tables and their registers (R176, R187). -/
structure Vec where
  regs  : Table (BitVec 512) := []
  /-- Function-table words by t * 256 + word. -/
  ftab  : Table Word := []
  ftc   : Table Word := []
  ftx0  : Table Word := []
  ftinv : Table Word := []
deriving DecidableEq, Repr

/-- Who sent a message: device, node, port, entry, MSGID (Table 12.6). -/
structure MsgKey where
  dev   : DevId
  node  : NodeId
  port  : BitVec 3
  entry : BitVec 5
  msgid : BitVec 7
deriving DecidableEq, Repr

/-- A message record of a receive ring or a DIRECT message (R276, R279, R285). -/
structure MsgRec where
  key    : MsgKey
  start  : Nat
  len    : Nat
  waste  : Nat
  /-- Rows written to their banks, one bit each. -/
  landed : BitVec 8
  cm     : Bool
  /-- DIRECT: LSEM. -/
  lsem   : BitVec 6
deriving DecidableEq, Repr

/-- A receive ring's run-time state: write offset, rows charged, CV, and its records in allocation order (R276, R278). -/
structure Ring where
  w    : Nat := 0
  occ  : Nat := 0
  cv   : Bool := false
  recs : List MsgRec := []
deriving DecidableEq, Repr

/-- CQSTAT (Table 12.9). -/
structure CqStat where
  done : Bool := false
  ovf  : Bool := false
  cnt  : BitVec 24 := 0
deriving DecidableEq, Repr

/-- The queue unit of a core (Table 12.1). [DEDUCED, log entry 25: unsafe] -/
structure Queue where
  /-- RCFG0-15 (Table 12.4). -/
  rcfg    : Table Word := []
  rings   : Table Ring := []
  direct  : List MsgRec := []
  /-- Ingress rows held behind a row 0 that does not fit, oldest first (R117, R282). -/
  ingress : List Packet := []
  /-- CQCFG0-7, CQSTAT0-7, CQEXP0-7 (Tables 12.8-12.10). -/
  cqcfg   : Table Word := []
  cqstat  : Table CqStat := []
  cqexp   : Table (BitVec 24) := []
  /-- SCT0-31 (Table 12.2). -/
  sct     : Table DWord := []
  /-- QSWC (R297). -/
  qswc    : Word := 0
  /-- The send-stall event of this waiting episode has occurred (R297). -/
  stalled : Bool := false
  /-- SSD_CTL: EVT, LOG2N, EN (Table 0.3). -/
  ssdEvt  : Bool := false
  ssdLog  : BitVec 5 := 0x14
  ssdEn   : Bool := true
deriving DecidableEq, Repr

/-- One core's tile of the die. -/
structure Core where
  cpu : Cpu := {}
  run : RunCtl := {}
  pad : Pads := {}
  lsu : Lsu := {}
  mat : Matrix := {}
  vec : Vec := {}
  que : Queue := {}
deriving DecidableEq, Repr

/-- A core right after a start (R13, R51, R137, R152, R379). -/
def Core.reset : Core := {}

end Sys2Proof.Machine
end

