-- ==== Sys2Proof/Machine/UnitState.lean ====
section
/-! DEFINITION. The state of the shared units whose chapters are the beat (15), the links (17), the synchronisation units (13) and the DMA engines (14), and of the log (21). -/

namespace Sys2Proof.Machine

/-! ## Log and device state -/

/-- A log record (R483): head SEQ, time, code, beat, field bytes and folded events. -/
structure LogRec where
  seq    : Nat
  tus    : Nat
  code   : BitVec 16
  beat   : Word
  att    : Bool
  fields : List Byte
  rep    : Nat
  /-- Attention events of the record that no ATTN_ACK has covered (R428). -/
  una    : Nat
  /-- MORE: the fields continue in the next record of a chain (R483). -/
  more   : Bool
  /-- A record of a chain: no event is folded into it (R483). -/
  chain  : Bool
  /-- Written to the flash ring (R484). -/
  flash  : Bool
deriving DecidableEq, Repr

/-- The log (R483-R485): next sequence number, records oldest first, and events lost since the last loss record. [DEDUCED, log entry 113: unsafe] -/
structure Log where
  nextSeq  : Nat := 1
  recs     : List LogRec := []
  /-- Highest sequence that an ATTN_ACK has named (0x8000:03). -/
  ackSeq   : Nat := 0
  /-- Attention events of records overwritten before acknowledgement, with the head SEQ of each (R485). -/
  gone     : List (Nat × Nat) := []
  lost     : Nat := 0
  lostSeq  : Nat := 0
  lostBeat : Word := 0
deriving DecidableEq, Repr

/-- The device states of Table 19.6. -/
inductive DevSt where
  | off | tadpole | preop | ready | run | hold | axolotl | fault
deriving DecidableEq, Repr

/-! ## Beat unit (chapter 15) -/

/-- BT_STAT.LOCK (Table 15.2). -/
inductive Lock where
  | nolock | locked | flywheel | lost
deriving DecidableEq, Repr

/-- A source of a stall request (R358): a pending due wait of a core, or a response hold of a core. -/
inductive StallSrc where
  | wait (c : CoreId)
  | hold (c : CoreId)
deriving DecidableEq, Repr

/-- A boundary that waits for its application time (R353): the time, the beat number of its marker where it has one, and its stretch; or a BEAT_IN edge that comes too early, is ignored and counts as not on time (R525). -/
structure Due where
  time : Nat
  beat : Option DWord
  str  : Nat
  early : Bool := false
deriving DecidableEq, Repr

/-- The channel-imbalance monitor (R242): die-side granules per channel of the window in progress, where it began, consecutive windows at or above the threshold and below half of it, the episode, and the last window's figures. -/
structure Imbalance where
  n       : Table Nat := []
  begun   : DWord := 0
  /-- W, T and N in force. -/
  w       : Nat := 1024
  t       : Word := 0x41000000
  runs    : Nat := 4
  above   : Nat := 0
  below   : Nat := 0
  episode : Bool := false
  hot     : Nat := 0
  ratio   : Word := 0
deriving DecidableEq, Repr

/-- The beat unit (Tables 15.4-15.8) and its machines. [DESIGN CHOICE, log entry 73: safe] -/
structure Beat where
  devt    : DWord := 0
  bcnt    : DWord := 0
  en      : Bool := true
  /-- The beat in progress had every boundary been applied since EN was cleared (R368). -/
  heldB   : DWord := 0
  sten    : Bool := false
  role    : BitVec 2 := 0
  port    : BitVec 5 := 0
  /-- RESYNC written and not yet performed (R356). -/
  resync  : Bool := false
  grace   : BitVec 16 := 0x200
  lock    : Lock := .nolock
  frz     : Bool := false
  bhold   : Bool := false
  tout    : Bool := false
  fly     : Nat := 0
  comp    : BitVec 12 := 0
  period  : BitVec 15 := 0x8CA
  lagmax  : BitVec 8 := 4
  hcut    : BitVec 8 := 0x10
  strmax  : BitVec 15 := 0x465
  slack   : DWord := 0
  lag     : BitVec 24 := 0
  stallb  : BitVec 24 := 0
  rsb     : DWord := 0
  stout   : Word := 0x100000
  /-- BT_DUE by core. -/
  due     : Table (BitVec 48) := []
  /-- Consecutive on-time received boundaries (R355). -/
  onTime  : Nat := 0
  /-- Time of the last received boundary in NOLOCK (R355). -/
  refTime : Option Nat := none
  /-- Time of the last applied boundary. -/
  lastApp : Nat := 0
  /-- The first boundary after LOCKED is still to be applied (R356). -/
  first   : Bool := true
  /-- Boundaries received or generated and not yet applied. -/
  toApply : List Due := []
  /-- G of the last generated boundary (R353). -/
  lastGen : Nat := 0
  /-- Requests in force, and those masked by a timeout (R360, R362). -/
  reqs    : List StallSrc := []
  masked  : List StallSrc := []
  freezeAt : Option Nat := none
  resumeAt : Option Nat := none
  /-- Cycles the freeze in force has lasted (R362). -/
  frzLen  : Nat := 0
  /-- BEATL updates due: time and value (R350). -/
  beatl   : List (Nat × Word) := []
  /-- Largest HOLD request sent for the beat in progress (R364), and freeze cycles since the last one. -/
  holdMax : Nat := 0
  holdCyc : Nat := 0
  /-- HOLDs relayed: origin, beat, value (R365). -/
  relayed : List (BitVec 16 × DWord × BitVec 16) := []
  /-- Markers relayed, and markers taken as received boundaries, by beat number (R353, R401). -/
  markers : List DWord := []
  taken   : List DWord := []
  /-- Role 1: the BEAT_IN edge that a stretch skipped (R366). -/
  skipAt  : Option Nat := none
  /-- Largest request gathered for the next boundary, and for the one after it (R366). -/
  gather  : Nat := 0
  gatherN : Nat := 0
  /-- A lag episode, and a stretch episode, is in progress (R363, R366). -/
  lagEp   : Bool := false
  strEp   : Bool := false
  /-- Time of the last BEAT_IN edge (R525). -/
  lastEdge : Option Nat := none
  /-- Control flits that wait for a slot of their port, newest first (R401), and the pulses of BEAT_OUT. -/
  sent    : List (Nat × CtlFlit) := []
  pulses  : Nat := 0
deriving DecidableEq, Repr

/-! ## Links (chapter 17) -/

/-- Port states (Table 17.5). -/
inductive PortSt where
  | off | train | align | ident | active | drain | retrain | failed
deriving DecidableEq, Repr

/-- A frame in a retry buffer (R398): its SEQ, its slots, and when it was last sent. -/
structure SentFrame where
  seq   : BitVec 12
  slots : List Slot
  /-- the packets whose last flit it carries -/
  ends  : List Packet := []
  sent  : Nat := 0
deriving DecidableEq, Repr

/-- A frame in progress (R396): its SEQ, the slots still to come of a replayed one, those that have left, the packets whose last flit is among them, and the DEVT at which it began. -/
structure LineFrame where
  seq   : BitVec 12
  kept  : Option (List Slot) := none
  slots : List Slot := []
  ends  : List Packet := []
  begun : Nat := 0
deriving DecidableEq, Repr

/-- One link port (R396-R405). Its receive buffer (R399) holds `part` and the packets in flight that came in by it and have not left its rim unit. -/
structure Port where
  en      : Bool := false
  st      : PortSt := .off
  cause   : BitVec 4 := 0
  peer    : BitVec 10 := 0x3FF
  pport   : BitVec 5 := 0
  /-- DEVT at entry to the state, for the limits of Table 17.5 and R405. -/
  since   : Nat := 0
  /-- IDENT round trips and the largest sample (R404). -/
  trips   : Nat := 0
  maxTrip : Nat := 0
  ctlLat  : BitVec 16 := 0
  dataLat : BitVec 16 := 0
  /-- DEVT of the last IDENT flit received from the peer, and when it arrived. -/
  lastId  : DWord := 0
  lastAt  : Nat := 0
  /-- DEVTs of the IDENT flits sent in this pass under this device ID and not echoed yet, newest first (R404, R414). -/
  idSent  : List DWord := []
  /-- Next SEQ to send, and the unacknowledged frames, oldest first (R398). -/
  txSeq   : BitVec 12 := 0
  retry   : List SentFrame := []
  /-- Packets queued at the port (R399), the slots still to come of the packet that is being sent, and that packet (R396). -/
  queue   : List Packet := []
  cur     : List Slot := []
  curP    : Option Packet := none
  /-- The frame in progress, the one that left last, and the DEVT from which the next may begin (R396). -/
  line    : Option LineFrame := none
  wire    : Option Frame := none
  nextAt  : Nat := 0
  /-- Flits sent and flits the peer has freed, per VC (R399), and the latest figures, which count from the next cycle on (R414). -/
  tx0     : BitVec 16 := 0
  tx1     : BitVec 16 := 0
  tx2     : BitVec 16 := 0
  fr0     : BitVec 16 := 0
  fr1     : BitVec 16 := 0
  fr2     : BitVec 16 := 0
  nf0     : BitVec 16 := 0
  nf1     : BitVec 16 := 0
  nf2     : BitVec 16 := 0
  /-- SEQ expected, NAK being sent, flits freed here (R397, R398). -/
  rxSeq   : BitVec 12 := 0
  nak     : Bool := false
  cr0     : BitVec 16 := 0
  cr1     : BitVec 16 := 0
  cr2     : BitVec 16 := 0
  /-- A packet whose data flits are still to come: header and flits received. -/
  part    : Option (Packet × Nat) := none
  /-- The last replay: its start SEQ, how many in a row started there, when it began: none while the frame in progress goes on (R398). -/
  rplSeq  : BitVec 12 := 0
  rplCnt  : Nat := 0
  rplAt   : Option Nat := none
  /-- The SEQ that a replay in progress resends next (R398). -/
  rplPos  : Option (BitVec 12) := none
deriving DecidableEq, Repr

/-- The link side of the device: ports, identity and the route table (R402, R407, R411). -/
structure Links where
  ports  : Table Port := []
  devId  : BitVec 10 := 0x3FF
  board  : BitVec 3 := 0
  routes : Table Word := []
  /-- Requests to other devices that have left by a port and are not answered yet, each with that port (R259, R410). -/
  asked  : List Packet := []
  /-- Ports that a start has still to enable, each with its DEVT (R470). -/
  starts : List (Nat × Nat) := []
deriving DecidableEq, Repr

/-! ## Clusters: synchronisation units (chapter 13) and DMA engines (chapter 14) -/

/-- A pending wait of a core or of a DMA channel (R304, R339): semaphore index, threshold, subtract, the request to answer, and whether its due-wait request is in force. -/
structure WaitSlot where
  sem   : Nat
  thr   : Nat
  sub   : Bool
  req   : Packet
  due   : Bool
deriving DecidableEq, Repr

/-- A synchronisation unit (R301-R317). -/
structure Sync where
  /-- Semaphore values by core * 48 + semaphore. -/
  sems    : Table Word := []
  /-- Core wait slots by core within the cluster, channel wait slots by channel. -/
  waits   : Table WaitSlot := []
  chwaits : Table WaitSlot := []
  /-- Watch entries, 256 bits each (Table 13.6). -/
  watches : Table (BitVec 256) := []
  vm      : Bool := false
  /-- VTBASE.ADDR, bits [39:14]. -/
  vtbase  : BitVec 26 := 0
  vctx    : DWord := 0
  /-- Translation buffer: (context, VID) with the entry word, oldest first, at most 64 (R317). -/
  tlb     : List (Nat × Word) := []
  /-- Context and VID keys whose table entry is awaited (R317). -/
  misses  : List Nat := []
deriving DecidableEq, Repr

/-- DCH_STAT.STATE (Table 14.3). -/
inductive ChSt where
  | idle | queued | run | wait | done | error | aborted
deriving DecidableEq, Repr

/-- An open loop level (R334): index of the LOOP, COUNT, iteration, strides A and B. -/
structure GLoop where
  at_   : Nat
  count : Nat
  it    : Nat
  sa    : Int
  da    : Int
  sb    : Int
  db    : Int
deriving DecidableEq, Repr

/-- An outstanding access of a channel; `idx` is the instruction's index. -/
inductive ChOp where
  /-- a program fetch of block n -/
  | fetch (block : Nat)
  /-- a MOVE read: the MOVE's number in the channel, offset in it, bytes, address -/
  | read (seq idx off len : Nat) (addr : FAddr)
  /-- a checksum record of CSUM (R342) -/
  | record (idx : Nat) (addr : FAddr)
  /-- the operation of a WAIT -/
  | sem
deriving DecidableEq, Repr

/-- A MOVE in progress (R335, R336): its number in the channel, which tells the turns of a loop apart, its instruction's index, effective addresses, LEN, the bytes it moves, bytes requested, bytes written, bytes received and not yet written by offset. -/
structure MoveSt where
  seq   : Nat
  idx   : Nat
  src   : Nat
  dst   : Nat
  /-- LEN. -/
  span  : Nat
  /-- LEN, or less where an abort discards what follows its current burst (R344). -/
  len   : Nat
  crc   : Bool
  /-- Both sides are row data windows: side bands travel with their rows (R338). -/
  side  : Bool
  reqd  : Nat
  wrtn  : Nat
  buf   : Table Byte
  /-- Side bands received, by offset of their row. -/
  sides : Table (BitVec 256)
  /-- Index of the free value that overlapping bytes take, where source and destination overlap (R335). -/
  free  : Option Nat
deriving DecidableEq, Repr

/-- A MOVE write whose bytes DCH_CRC does not yet cover, in order (R341, R342). -/
structure ChWrite where
  tid   : BitVec 12
  idx   : Nat
  bytes : List Byte
  crc   : Bool
  addr  : FAddr
  acked : Bool
deriving DecidableEq, Repr

/-- The error that a channel has met and drains for (R343): ERR, ESTAT, DCH_FADDR, IPC. -/
structure ChFail where
  err   : BitVec 4
  estat : BitVec 4
  faddr : FAddr
  ipc   : Nat
deriving DecidableEq, Repr

/-- A DMA channel (Tables 14.1-14.3) and its run. -/
structure Chan where
  dis     : Bool := false
  task    : Bool := false
  st      : ChSt := .idle
  err     : BitVec 4 := 0
  estat   : BitVec 4 := 0
  mgs     : Bool := false
  owner   : BitVec 4 := 0
  ipc     : BitVec 16 := 0
  prog    : BitVec 56 := 0
  crc     : Word := 0xFFFFFFFF
  bytes   : DWord := 0
  faddr   : BitVec 56 := 0
  it0     : Word := 0
  it1     : Word := 0
  /-- Program blocks held, by block number from the one that holds instruction 0. -/
  blocks  : Table (BitVec 4096) := []
  loops   : List GLoop := []
  /-- ABA of the HEAD; 0 names no record (R342). -/
  aba     : BitVec 56 := 0
  moves   : List MoveSt := []
  /-- Number of the next MOVE. -/
  nextSeq : Nat := 0
  outs    : List (BitVec 12 × ChOp) := []
  writes  : List ChWrite := []
  nextTid : BitVec 9 := 0
  /-- An abort has been requested (R344). -/
  abort   : Bool := false
  /-- The CSUM or SIGNAL in progress when the abort came is still to complete (R344). -/
  last    : Bool := false
  /-- The error whose drain is in progress (R343). -/
  failing : Option ChFail := none
  /-- The wait operation sent by the WAIT in progress (R339). -/
  waitP   : Option Packet := none
deriving DecidableEq, Repr

/-- One cluster: synchronisation unit, DMA channels, and the engine's run queue with the running channel at its head (R328). -/
structure Cluster where
  sync  : Sync := {}
  chans : Table Chan := []
  queue : List ChanId := []
deriving DecidableEq, Repr

/-- A cluster right after a start (R301, R329). -/
def Cluster.reset : Cluster := {}

end Sys2Proof.Machine
end

