-- ==== Sys2Proof/Machine/DeviceState.lean ====
section
/-! DEFINITION. The state of the loader (chapter 16), the dictionary's store (19), the power controller (20), the management subsystem and its security (21) and the Varan monitor (22). -/

namespace Sys2Proof.Machine

/-- Two copies written alternately, each with a sequence number; `none` is a copy whose CRC does not match (R383, R442, R493, R503). -/
structure Twin (α : Type) where
  c0 : Option (DWord × α) := none
  c1 : Option (DWord × α) := none
deriving DecidableEq, Repr

/-! ## Loader (R371-R393) -/

/-- A section table entry (Table 16.1): TYPE, OFFSET, LENGTH. -/
structure Section where
  type : Nat
  off  : Nat
  len  : Nat
deriving DecidableEq, Repr

/-- An image's header figures, its section table and its staged copy (Table 16.1). -/
structure Image where
  mapfix : Bool
  xmode  : Bool
  imgid  : DWord
  nreg   : Nat
  pb     : Nat
  step   : Byte
  keyid  : Nat
  total  : Nat
  msize  : Nat
  secs   : List Section
  /-- The staged copy, with the relocations applied so far. -/
  bytes  : List Byte
deriving DecidableEq, Repr

/-- What a loader record holds (R383). -/
structure LoadRec where
  hash  : List Byte
  imgid : DWord
  mbase : DWord
  peers : List (BitVec 16)
deriving DecidableEq, Repr

/-- The loader's state (Table 16.16). -/
structure Loader where
  /-- 0x9001:01: 0 none, 3 placed, 4 released. -/
  img    : Byte := 0
  /-- 0x9001:02. -/
  status : Byte := 0
  hash   : List Byte := List.replicate 64 0
  imgid  : DWord := 0
  start  : DWord := 0
  mbase  : DWord := 0
  peers  : List (BitVec 16) := []
  /-- The placed image, and the physical region of each of its logical regions (R375). -/
  image  : Option Image := none
  rmap   : List Nat := []
  /-- The loader record in module flash (R383). -/
  record : Twin LoadRec := {}
  /-- 0x9011:01-04 (R385). -/
  cmpN   : Nat := 0
  cmpPos : Nat := 0
  cmpNeg : Nat := 0
  cmpOne : Nat := 0
  /-- 0x9002:01: variant of the current beat. -/
  var    : Nat := 3
  /-- 0x9002:06 (R391). -/
  noFreq : Bool := false
  /-- Beats since the release (R466). -/
  since  : Nat := 0
  /-- Variants written into ring entries whose beats have not come, by beat bits [31:0]. -/
  ring   : Table Nat := []
  /-- Ring writes not yet acknowledged: TID and beat (Table 16.15). -/
  outs   : List (BitVec 12 × Nat) := []
  /-- A LOAD waits for cores to stop (Table 16.9, step 6), or a release is in progress (R381, R382). -/
  busy   : Bool := false
  /-- The image that it will place, and its regions. -/
  next   : Option (Image × List Nat) := none
  /-- Logical cores to which a release in progress has yet to write RUN (R382). -/
  runs   : List Nat := []
deriving DecidableEq, Repr

/-! ## Power controller (R459-R477) -/

/-- Supply states (Table 20.1). -/
inductive Supply where
  | good | sag | warn | under
deriving DecidableEq, Repr

/-- A transition of the device that no record tells yet (R449): from, to, the cause of a regulator stop, and BCNT. -/
structure Unlogged where
  src   : DevSt
  dst   : DevSt
  cause : Nat := 0
  beat  : DWord := 0
deriving DecidableEq, Repr

/-- The power controller. Energies are in mW·cc, temperatures in 1/(200000 * 2^149) °C, so that every figure is exact. -/
structure Power where
  supply : Supply := .good
  /-- Mean voltage and input power of the last tick, mV and mW. -/
  mv     : Nat := 48000
  mw     : Nat := 0
  /-- Consecutive ticks that met each condition of Table 20.1. -/
  nGood  : Nat := 0
  nSag   : Nat := 0
  nUnder : Nat := 0
  nLow   : Nat := 0
  nOver  : Nat := 0
  /-- PWR_WARN_N is low after its filter (R526). -/
  low    : Bool := false
  /-- DEVT until which the pin's last low keeps the state WARN: 1 ms after its rise (Table 20.1). -/
  warnTo : Nat := 0
  /-- DEVT of each fall whose step 2 is still to be considered (R460). -/
  falls  : List Nat := []
  /-- Consecutive ticks in UNDER. -/
  inUnder : Nat := 0
  /-- E_meas of the beat in progress, and the bucket B (R464). -/
  emeas  : Nat := 0
  bucket : Int := 0
  /-- Budgets in force, W (R464). -/
  psus   : Nat := 1800
  ppeak  : Nat := 2000
  /-- B was below -b_max at the last boundary (R467). -/
  lowB   : Bool := false
  /-- Consecutive ticks above p_peak. -/
  overPk : Nat := 0
  /-- Energies of the last 16 beats of each variant, newest first, and the PERIOD they belong to (R464). -/
  hist   : Table (List Nat) := []
  per    : Nat := 2250
  /-- J_m and the estimate in force (R465). -/
  jm     : Int := 0
  that   : Int := 105 * 200000 * 2 ^ 149
  /-- Duty set by the excesses, and R460's own duty 2. -/
  exDuty : Nat := 8
  warnThr : Bool := false
  /-- Duty in force (R461). -/
  duty   : Nat := 8
  /-- Ticks of excess in a row, of its absence in a row, power and thermal (R467). -/
  exRun  : Nat := 0
  absP   : Nat := 0
  absT   : Nat := 0
  /-- Ticks at duty 1 with J_m at least TJMAX + 5 °C. -/
  hotRun : Nat := 0
  /-- Ticks for which each stack has been cool enough for a step up (R468). -/
  cool   : Table Nat := []
  /-- A stack at 2/8, or the thermal excess, holds the device (R467, R468). -/
  exHold : Bool := false
  /-- Region clock codes in force (R463). -/
  freq   : Table Nat := []
  /-- 0x2020:01 and 0x2020:03. -/
  req    : BitVec 16 := 0xFFFF
  busyR  : BitVec 16 := 0
  /-- Cause of a regulator stop, latched until the next start: 1 supply loss, 2 over-voltage, 3 thermal (R459, R469). -/
  latch  : Nat := 0
  /-- The transitions to OFF, and those of starts that came to nothing, since the last start that logs (R449), oldest first. -/
  lost   : List Unlogged := []
  /-- 0x2030:01-0E, µs. -/
  durs   : Table Word := []
  /-- REF_CLK has been lost (R462). -/
  noRef  : Bool := false
deriving DecidableEq, Repr

/-! ## Management subsystem (R478-R508) -/

/-- A sensor (R481): its last conversion, ticks without one, valid conversions in a row while invalid. -/
structure Sensor where
  bits   : Word := 0
  missed : Nat := 0
  good   : Nat := 0
  bad    : Bool := false
deriving DecidableEq, Repr

/-- The image of a firmware slot (R492): the one written at manufacture, with its VERSION and SVN, or bytes written since. -/
inductive FwImg where
  | made (version : Word) (svn : Nat)
  | bytes (bs : List Byte)
deriving DecidableEq, Repr

/-- The selection record (R493); `active` false is slot A. -/
structure Selection where
  active : Bool := false
  trial  : Option Bool := none
  tries  : Nat := 0
deriving DecidableEq, Repr

/-- What an erasure erases (Table 21.10). -/
inductive ErWhat where
  | slot (s : Nat)
  | tenant (t : Nat)
  | image (id : DWord)
deriving DecidableEq, Repr

/-- An erasure in progress (R500-R503): its number, what, and per extent the stack, first granule, granules, and whether it has been repeated. -/
structure Erasure where
  id   : Nat
  what : ErWhat
  outs : List (Nat × Nat × Nat × Bool)
  /-- A repeated SCRUB has failed (R502). -/
  failed : Bool := false
deriving DecidableEq, Repr

/-- Steps of the PLDM firmware update protocol (R494; DSP0267's states). [PRESUMED, log entry 129: unsafe] -/
inductive Pldm where
  | idle | learn | ready | download | verify | apply | activate
deriving DecidableEq, Repr

/-- A secret of the key store (R478, R488): the private identity key, whose bits no path reads. -/
inductive Secret where
  | identity (key : List Byte)
deriving DecidableEq, Repr

/-- An SPDM session (R496): its number, whether FINISH has come, the SHA-512 of the root certificate of a mutually authenticated requester (R491), the requester's DHE share, and the AES-256-GCM keys in force. -/
structure Session where
  id    : Nat
  done  : Bool
  root  : Option (List Byte)
  share : List Byte := []
  keys  : List Byte := []
deriving DecidableEq, Repr

/-- Entry to AXOLOTL in progress (R504): cores wait for their handlers until a time, or engines wait to be idle. -/
inductive Axo where
  | cores (due : Nat) (asked : List Nat)
  | engines (unsaved : List Nat)
deriving DecidableEq, Repr

/-- The wrapped identity key that the model's module is made with: IV, ciphertext and tag of AES-256-GCM, over 16 bytes of zero under the KEK of a UDS of zeros. [DESIGN CHOICE, log entry 192: unsafe] -/
def wrappedMade : List Byte :=
  List.replicate 12 0 ++ [0x55, 0x20, 0x97, 0xC7, 0x86, 0x33, 0xEF, 0xC3, 0x7F, 0x5F, 0x7B, 0xD5, 0x98, 0xC8, 0x79, 0xCC]
    ++ [0xA0, 0xB4, 0xD2, 0x84, 0xAF, 0xA8, 0x2C, 0x8D, 0xFC, 0x56, 0x34, 0xB2, 0xFF, 0x5E, 0x9D, 0x01]

/-- The management subsystem (Tables 21.1, 21.7, 21.14). -/
structure Mgmt where
  /-- The persisted store (R442), and the values last written to RW and RWP entries, by index * 256 + subindex. -/
  store   : Twin (Table (List Byte)) := { c0 := some (1, []) }
  vals    : Table (List Byte) := []
  /-- RWP values as they stood at the last start, for the entries that take effect then (R442). -/
  boot    : Table (List Byte) := []
  /-- 0x0003:02 has been written with 0x5A. -/
  clear   : Bool := false
  /-- 0x0003:03-05. -/
  kind    : Nat := 1
  colds   : Nat := 1
  writes  : Nat := 0
  /-- A start requested and not yet begun: 1 warm, 2 cold (R453). -/
  startRq : Nat := 0
  /-- A start that waits at a step boundary for the supply state GOOD (R471): what the outside world decides of it, and its next step. -/
  paused  : Option (StartResult × Nat) := none
  /-- The supply has risen from OFF and no start has run since. -/
  risen   : Bool := false
  /-- Step S3 has failed: only the Tadpole ROM's monitor answers (Table 20.6, R511). -/
  romOnly : Bool := false
  /-- Sensors by number: 0-63 die, 64-127 stack, 128 voltage, 129 current, 130-143 rails. -/
  sensors : Table Sensor := []
  /-- Rails outside their window: last tick and ticks in a row (R482). -/
  rails   : Table (Nat × Nat) := []
  /-- Firmware slots, the selection record and the running slot (R492, R493). -/
  slotA   : FwImg := .made 0x01000000 0
  slotB   : FwImg := .made 0x01000000 0
  sel     : Twin Selection := { c0 := some (1, {}) }
  slot    : Bool := false
  minsvn  : Nat := 0
  pldm    : Pldm := .idle
  /-- Bytes of the component in transfer, and its length. -/
  fw      : List Byte := []
  fwLen   : Nat := 0
  /-- SPDM: requests answered so far in order (version 1, capabilities 2, algorithms 3), and the sessions. -/
  spdm    : Nat := 0
  sess    : List Session := []
  sessId  : Nat := 1
  /-- Schedule-image key moduli by KEYID, operator root hash (R490, R491). -/
  keys    : Table (List Byte) := []
  root    : List Byte := List.replicate 64 0
  /-- The UDS fuse, and its lock: only the Tadpole ROM reads it, and none once S5 has locked it (R487, R488). -/
  uds     : List Byte := List.replicate 32 0
  udsLock : Bool := true
  /-- The wrapped identity key of the security area (R479, R488). -/
  wrapped : List Byte := wrappedMade
  /-- The key store (Table 21.1). -/
  keyStore : List Secret := [.identity (List.replicate 16 0)]
  /-- The pending-erasure record (R479, R503). -/
  pend    : Twin (List Erasure) := { c0 := some (1, []) }
  /-- Erasures in progress, and quarantined slots (R502). -/
  erase   : List Erasure := []
  eraseId : Nat := 0
  quar    : List Nat := []
  /-- Entry to AXOLOTL in progress (R504). -/
  axo     : Option Axo := none
  /-- 0x7050:04. -/
  rlStat  : Byte := 0
  /-- The recovery image running, with its regions (R505). -/
  rimage  : Option (Image × List Nat × DWord) := none
  /-- The way out of AXOLOTL has begun: the saved value words by core and watch entries by cluster, which it restores (R506). -/
  leaving : Option (List (Nat × List Byte) × List (Nat × List Byte)) := none
  /-- MBASE of a recovery load that waits for cores to stop or for an erasure (R505). -/
  rwait   : Option DWord := none
  /-- Next transaction ID of the management subsystem's own accesses. -/
  tid     : BitVec 12 := 0
  /-- Last response sent over MCTP. -/
  resp    : List Byte := []
deriving DecidableEq, Repr

/-- An mr or mw in execution (R515): bytes of an item, the address of the next one, the items left, and the bytes read so far or left to write. -/
structure MonJob where
  write : Bool
  size  : Nat
  addr  : Nat
  left  : Nat
  bytes : List Byte
deriving DecidableEq, Repr

/-- The Varan monitor (Table 22.2). [DESIGN CHOICE, log entry 194: unsafe] -/
structure Varan where
  unlocked : Bool := false
  /-- The nonce in force and the time it was given (R514). -/
  nonce    : Option (List Byte × Nat) := none
  modulus  : List Byte := []
  unlocks  : Nat := 0
  /-- DEVT of the last received line. -/
  lastLine : Nat := 0
  /-- Characters on the UART's line, sent and not yet received, oldest first. [DESIGN CHOICE, log entry 194: unsafe] -/
  uart     : List Byte := []
  /-- Lines received and not yet executed, `none` for one that was discarded, and the characters of the line in reception (R509). -/
  rx       : List (Option (List Byte)) := []
  part     : List Byte := []
  /-- The line in reception has overflowed the buffer, and the last character was a CR. -/
  ovf      : Bool := false
  cr       : Bool := false
  /-- The command in execution, where it takes more than one access. -/
  job      : Option MonJob := none
  /-- How the last reply ended, `none` for ok, else the status code of `er`, and the characters last sent (R510). -/
  err      : Option Byte := none
  out      : List Byte := []
deriving DecidableEq, Repr

end Sys2Proof.Machine
end

