-- ==== Sys2Proof/Machine/StackState.lean ====
section
/-! DEFINITION. The state of a memory stack with its controller and Newt engine (chapters 9 and 10), and of the host interface (chapter 18). -/

namespace Sys2Proof.Machine

/-- A command row in an engine's ring (R200): its bytes, its sender, credit mode and the sender's entry, and the next slot to take. -/
structure NRow where
  row   : BitVec 4096
  dev   : DevId
  node  : NodeId
  port  : BitVec 3
  cm    : Bool
  entry : BitVec 5
  slot  : Nat
  /-- Order of arrival among rows and table writes (R199). -/
  seq   : Nat
deriving DecidableEq, Repr

/-- Where a started command stands (R206). -/
inductive NPhase where
  /-- source rows are being pulled -/
  | pull
  /-- result rows and stack writes are being acknowledged -/
  | write
  /-- the completion record is being acknowledged -/
  | record
deriving DecidableEq, Repr

/-- A started, incomplete command (R203, R206). -/
structure NCmd where
  id     : Nat
  /-- The descriptor's 64 bytes. -/
  desc   : BitVec 512
  dev    : DevId
  node   : NodeId
  port   : BitVec 3
  phase  : NPhase
  status : BitVec 12
  /-- NV DZ OF UF NX (Table 9.11). -/
  flags  : BitVec 5
  rows   : Nat
  /-- Pulled source rows by index; SRC2 of an OPT follows SRC. -/
  src    : Table Row
  /-- Contexts in use, shared by the commands of one group (Table 9.9, R204). -/
  ctx    : Nat
  /-- The group: the ID of its first command (R204). -/
  grp    : Nat
  /-- ADELTA: the version buffer read (R215). -/
  ver    : Bool
  /-- Transaction IDs of accesses not yet answered. -/
  outs   : List (BitVec 12 × Nat)
  /-- Transaction IDs of its reduce-flagged rows, which no answer follows (R201). -/
  reds   : List (BitVec 12) := []
deriving DecidableEq, Repr

/-- An error FIFO entry (Table 9.20). -/
structure NErr where
  status : BitVec 12
  op     : Byte
  tag    : BitVec 16
  dev    : DevId
  node   : NodeId
  port   : BitVec 3
  slot   : BitVec 9
  ten    : BitVec 12
deriving DecidableEq, Repr

/-- One stack: Newt engine, its tables, and the memory controller's own state (R191-R222, R226). -/
structure Stack where
  /-- Adapter directory entries, 1024 bits each (Table 9.4). -/
  dir     : Table (BitVec 1024) := []
  /-- KV slot table entries, 256 bits each (Table 9.5). -/
  kv      : Table (BitVec 256) := []
  /-- Slot tenant table (R198). -/
  ten     : Table (BitVec 16) := []
  ring    : List NRow := []
  cmds    : List NCmd := []
  /-- Table writes held until no command names their entry (R199): order of arrival, region offset and word. -/
  heldW   : List (Nat × Nat × Word) := []
  /-- Append high-water by slot: LAYER and POS (R498). -/
  hw      : Table (Nat × Nat) := []
  errs    : List NErr := []
  haltq   : Bool := false
  en      : Bool := true
  refd    : Bool := false
  nextId  : Nat := 0
  nextTid : BitVec 12 := 0
  /-- Permitted rate in eighths (R226), and whether the refresh rate is doubled. -/
  rate    : Nat := 8
  hotRef  : Bool := false
  refresh : Nat := 0
  /-- Next granule of the patrol (R226). -/
  patrol  : Nat := 0
  /-- Contents retained from before the last start (0x3001:01 is the conjunction; R246). -/
  kept    : Bool := false
deriving DecidableEq, Repr

/-- A stack right after a start (R192, Tables 9.14, 9.15). -/
def Stack.reset : Stack := {}

/-- A mailbox request that waits for a later beat or unit (R429, R431, R434). -/
inductive HWait where
  | bind (slot : BitVec 16) (eff half : Word)
  | unbind (slot : BitVec 16) (eff : Word)
  /-- an index-table write is unacknowledged -/
  | bindAck (slot : BitVec 16) (tid : BitVec 12)
  | semadd (tid : BitVec 12)
  /-- a LOAD that waits for cores to stop (Table 16.9, step 6) -/
  | load (mbase : DWord) (peers : List (BitVec 16))
  /-- a RELEASE whose RUNs are being written (R382) -/
  | release (start : DWord)
  /-- a STATE command whose transition is in progress: target READY, PREOP or AXOLOTL -/
  | toReady
  | toPreop
  | toAxolotl
deriving DecidableEq, Repr

/-- A written change of an adapter index table entry whose beat has not come (R389, R431): EFF, the slot, both halves, and whether it unbinds. -/
structure BindDue where
  eff    : Word
  slot   : Nat
  old    : Word
  new    : Word
  unbind : Bool
deriving DecidableEq, Repr

/-- A host DMA transfer (R434), which moves 4 KiB at most at a time: direction, length, addresses, bytes requested and bytes moved; the status and the place of its first error; outstanding packets (TID, offset, bytes) and the outstanding host read; bytes received by offset. -/
structure Hdma where
  toHost : Bool
  len    : Nat
  haddr  : Nat
  daddr  : Nat
  reqd   : Nat := 0
  done   : Nat := 0
  status : Nat := 0
  errAt  : Nat := 0
  outs   : List (BitVec 12 × Nat × Nat) := []
  tag    : Option Nat := none
  buf    : Table (List Byte) := []
  active : Bool := false
  /-- ends after its current 4 KiB (R419) -/
  ending : Bool := false
deriving DecidableEq, Repr

/-- A fetched, unreplied request (R425). -/
structure HReq where
  index : BitVec 16
  tag   : Word
  what  : Hdma ⊕ HWait
  /-- Fetched before the last reset or disable of the mailbox: its reply is not written (R419, R436). -/
  mute  : Bool
deriving DecidableEq, Repr

/-- An input pull in progress (R432): beat, host reads outstanding (tag, quarter), inconsistent entries, writes unacknowledged, and whether the header has been sent. -/
structure Pull where
  beat  : DWord
  tags  : List (Nat × Nat)
  bad   : Nat
  outs  : List (BitVec 12)
  hdr   : Bool
deriving DecidableEq, Repr

/-- A retire pass in progress (R433): beat, reads outstanding (TID, granule), and the granules that have come. -/
structure Retire where
  beat : DWord
  outs : List (BitVec 12 × Nat)
  rows : Table (List Byte)
deriving DecidableEq, Repr

/-- The host interface (Table 18.3) and its machines. -/
structure HostIf where
  mbEn    : Bool := false
  mbLog   : BitVec 4 := 6
  qbase   : DWord := 0
  rbase   : DWord := 0
  tail    : BitVec 16 := 0
  head    : BitVec 16 := 0
  ovr     : Bool := false
  slIn    : Bool := false
  slRt    : Bool := false
  rtLog   : BitVec 5 := 0x0A
  inAddr  : DWord := 0
  rtBase  : DWord := 0
  ci      : BitVec 16 := 0
  pi      : BitVec 16 := 0
  /-- HB_WIN.BASE. -/
  hbBase  : BitVec 16 := 0
  speed   : BitVec 4 := 0
  width   : BitVec 5 := 0
  odWr    : Bool := false
  odIndex : BitVec 16 := 0
  odSub   : Byte := 0
  odBusy  : Bool := false
  odStat  : Byte := 0
  odLen   : BitVec 16 := 0
  odData  : Table Byte := []
  /-- log2 of the BAR2 size in GiB in force (R423). -/
  bar2Log : Nat := 6
  reqs    : List HReq := []
  pull    : Option Pull := none
  passes  : List Retire := []
  nextTag : Nat := 0
  nextTid : BitVec 12 := 0
  /-- BAR2 writes not yet acknowledged: TIDs (R424). -/
  bar2W   : List (BitVec 12) := []
  /-- BAR2 reads behind writes that were not acknowledged as they came: the BAR2 offset, the address that the window of that time gives, the length, and the writes (R424, R436). -/
  bar2R   : List (Nat × Option Nat × Nat × List (BitVec 12)) := []
  /-- Doorbells whose requests are not all fetched: TAIL, and the BAR2 writes received before it and not yet acknowledged (R424). -/
  bells   : List (BitVec 16 × List (BitVec 12)) := []
  /-- The PCIe link was reset since it last trained (R419). -/
  wasRst  : Bool := false
  /-- Changes of the adapter index table whose beats have not come, and EFF of the last change of each slot (R431). -/
  binds   : List BindDue := []
  lastEff : Table Word := []
  /-- Host memory, as far as the device has written it (R426, R433, R434). -/
  mem     : List Host.Cell := []
  /-- The last completion of a host read: bytes, EP of each burst that it touches (R423), and whether it is Unsupported Request. -/
  rdData  : List Byte := []
  rdPois  : List Bool := []
  rdUr    : Bool := false
  /-- The retire ring of 65,536 records is full: PI has come round to CI (R433). -/
  rtFull  : Bool := false
  /-- The function is in D3hot, where no BAR is decoded (R416). -/
  d3      : Bool := false
  /-- AER's uncorrectable error status (R416). -/
  aer     : Word := 0
deriving DecidableEq, Repr

end Sys2Proof.Machine
end

