-- ==== Sys2Proof/Syntax.lean ====
section
/-! DEFINITION. The commands of the block: one constructor for each row of spec/opcode_table.json, with the row's operands. -/

namespace Sys2Proof

/-- A command of the E4 model: an instruction that a core issues, a packet that arrives, an event of a unit, or a request from outside. -/
inductive Instr where
  /-- NOP (R58). System-group no-operation instruction that does nothing. -/
  | nop (c : CoreId)
  /-- RET (R67). Pops the return stack into pc, faulting at DEPTH 0 when RSO = 1. -/
  | ret (c : CoreId)
  /-- RETI (R103). Drains stores, reads the task-state block or escalation frame, restores state, clears SAVED or ACT and QUIET.ACT, and returns. -/
  | reti (c : CoreId)
  /-- FENCE (R320). Holds later instructions until earlier operations in the named scopes reach their completion points, then discards fetched-ahead words. -/
  | fence (c : CoreId) (m : BitVec 4)
  /-- TRAP (R87). Enters the supervisor through trap vector 16 + n. -/
  | trap (c : CoreId) (n : BitVec 4)
  /-- BWAIT (R58). Holds issue until BEATL minus the register, as a signed value, is at least zero. -/
  | bwait (c : CoreId) (gs : Reg)
  /-- HALT (R58). Supervisor instruction that stops fetching until the loader restarts the core. -/
  | halt (c : CoreId)
  /-- MOV (R57). Copies gs into gd. -/
  | mov (c : CoreId) (gd gs : Reg)
  /-- ADD (R57). Adds gs to gd modulo 2^32. -/
  | add (c : CoreId) (gd gs : Reg)
  /-- SUB (R57). Subtracts gs from gd modulo 2^32. -/
  | sub (c : CoreId) (gd gs : Reg)
  /-- AND (R57). Bitwise AND of gd and gs. -/
  | and (c : CoreId) (gd gs : Reg)
  /-- OR (R57). Bitwise OR of gd and gs. -/
  | or (c : CoreId) (gd gs : Reg)
  /-- XOR (R57). Bitwise XOR of gd and gs. -/
  | xor (c : CoreId) (gd gs : Reg)
  /-- SHL (R57). Shifts gd left by gs[4:0]. -/
  | shl (c : CoreId) (gd gs : Reg)
  /-- SHR (R57). Shifts gd right logically by gs[4:0]. -/
  | shr (c : CoreId) (gd gs : Reg)
  /-- SAR (R57). Shifts gd right arithmetically by gs[4:0]. -/
  | sar (c : CoreId) (gd gs : Reg)
  /-- ROR (R57). Rotates gd right by gs[4:0]. -/
  | ror (c : CoreId) (gd gs : Reg)
  /-- MUL (R57). Writes the low 32 bits of gd times gs into gd. -/
  | mul (c : CoreId) (gd gs : Reg)
  /-- MULHU (R57). Writes the high 32 bits of the unsigned 64-bit product into gd. -/
  | mulhu (c : CoreId) (gd gs : Reg)
  /-- MULHS (R57). Writes the high 32 bits of the signed 64-bit product into gd. -/
  | mulhs (c : CoreId) (gd gs : Reg)
  /-- NOT (R57). Writes the complement of gs into gd. -/
  | not (c : CoreId) (gd gs : Reg)
  /-- NEG (R57). Writes 0 minus gs into gd. -/
  | neg (c : CoreId) (gd gs : Reg)
  /-- CLZ (R57). Counts the leading zero bits of gs into gd. -/
  | clz (c : CoreId) (gd gs : Reg)
  /-- POPC (R57). Counts the one bits of gs into gd. -/
  | popc (c : CoreId) (gd gs : Reg)
  /-- SEQ (R57). Writes 1 into gd if gd equals gs, and 0 otherwise. -/
  | seq (c : CoreId) (gd gs : Reg)
  /-- SNE (R57). Writes 1 into gd if gd differs from gs, and 0 otherwise. -/
  | sne (c : CoreId) (gd gs : Reg)
  /-- SLT (R57). Signed less-than comparison into gd. -/
  | slt (c : CoreId) (gd gs : Reg)
  /-- SLTU (R57). Unsigned less-than comparison into gd. -/
  | sltu (c : CoreId) (gd gs : Reg)
  /-- SGE (R57). Signed greater-or-equal comparison into gd. -/
  | sge (c : CoreId) (gd gs : Reg)
  /-- SGEU (R57). Unsigned greater-or-equal comparison into gd. -/
  | sgeu (c : CoreId) (gd gs : Reg)
  /-- MIN (R57). Signed minimum into gd. -/
  | min (c : CoreId) (gd gs : Reg)
  /-- MAX (R57). Signed maximum into gd. -/
  | max (c : CoreId) (gd gs : Reg)
  /-- MINU (R57). Unsigned minimum into gd. -/
  | minu (c : CoreId) (gd gs : Reg)
  /-- MAXU (R57). Unsigned maximum into gd. -/
  | maxu (c : CoreId) (gd gs : Reg)
  /-- SXB (R57). Sign-extends gs[7:0] into gd. -/
  | sxb (c : CoreId) (gd gs : Reg)
  /-- SXH (R57). Sign-extends gs[15:0] into gd. -/
  | sxh (c : CoreId) (gd gs : Reg)
  /-- ZXB (R57). Zero-extends gs[7:0] into gd. -/
  | zxb (c : CoreId) (gd gs : Reg)
  /-- ZXH (R57). Zero-extends gs[15:0] into gd. -/
  | zxh (c : CoreId) (gd gs : Reg)
  /-- JR (R57). Jumps to gs[13:0]. -/
  | jr (c : CoreId) (gs : Reg)
  /-- CALLR (R57). Pushes pc + 1 and jumps to gs[13:0]. -/
  | callr (c : CoreId) (gs : Reg)
  /-- RDCR (R80). Reads a control register into gd, subject to privilege. -/
  | rdcr (c : CoreId) (gd : Reg) (k : BitVec 4)
  /-- WRCR (R80). Writes gs into a control register, subject to privilege, with a shadow after a CSR write. -/
  | wrcr (c : CoreId) (k : BitVec 4) (gs : Reg)
  /-- MOVI (R60). Loads the sign-extended imm14 into gd. -/
  | movi (c : CoreId) (gd : Reg) (imm : BitVec 14)
  /-- ADDI (R60). Adds the sign-extended imm14 to gd. -/
  | addi (c : CoreId) (gd : Reg) (imm : BitVec 14)
  /-- ANDI (R60). ANDs the zero-extended imm14 into gd. -/
  | andi (c : CoreId) (gd : Reg) (imm : BitVec 14)
  /-- ORI (R60). ORs the zero-extended imm14 into gd. -/
  | ori (c : CoreId) (gd : Reg) (imm : BitVec 14)
  /-- XORI (R60). XORs the zero-extended imm14 into gd. -/
  | xori (c : CoreId) (gd : Reg) (imm : BitVec 14)
  /-- SEQI (R60). Compares gd with the sign-extended immediate for equality. -/
  | seqi (c : CoreId) (gd : Reg) (imm : BitVec 14)
  /-- SLTI (R60). Signed less-than comparison of gd with the immediate. -/
  | slti (c : CoreId) (gd : Reg) (imm : BitVec 14)
  /-- SLTUI (R60). Unsigned less-than comparison of gd with the sign-extended immediate. -/
  | sltui (c : CoreId) (gd : Reg) (imm : BitVec 14)
  /-- SHLI (R60). Shifts gd left by an immediate count. -/
  | shli (c : CoreId) (gd : Reg) (sh : BitVec 5)
  /-- SHRI (R60). Shifts gd right logically by an immediate count. -/
  | shri (c : CoreId) (gd : Reg) (sh : BitVec 5)
  /-- SARI (R60). Shifts gd right arithmetically by an immediate count. -/
  | sari (c : CoreId) (gd : Reg) (sh : BitVec 5)
  /-- RORI (R60). Rotates gd right by an immediate count. -/
  | rori (c : CoreId) (gd : Reg) (sh : BitVec 5)
  /-- MULI (R60). Multiplies gd by the sign-extended immediate, keeping the low 32 bits. -/
  | muli (c : CoreId) (gd : Reg) (imm : BitVec 14)
  /-- MOVHI (R61). Sets gd to imm18 shifted left by 14. -/
  | movhi (c : CoreId) (gd : Reg) (imm : BitVec 18)
  /-- BFXU (R62). Extracts a zero-extended bit field of gs into gd. -/
  | bfxu (c : CoreId) (gd gs : Reg) (lm1 p : BitVec 5)
  /-- BFXS (R62). Extracts a sign-extended bit field of gs into gd. -/
  | bfxs (c : CoreId) (gd gs : Reg) (lm1 p : BitVec 5)
  /-- BFI (R62). Inserts low bits of gs into a field of gd. -/
  | bfi (c : CoreId) (gd gs : Reg) (lm1 p : BitVec 5)
  /-- BPERM (R63). Permutes bytes between 4-register groups under a nibble selector. -/
  | bperm (c : CoreId) (gd gs gc : Reg)
  /-- BZ (R65). Branches to the target if gs is zero. -/
  | bz (c : CoreId) (gs : Reg) (target : PAddr)
  /-- BNZ (R65). Branches to the target if gs is non-zero. -/
  | bnz (c : CoreId) (gs : Reg) (target : PAddr)
  /-- BR (R65). Branches unconditionally to the target. -/
  | br (c : CoreId) (target : PAddr)
  /-- CALL (R65). Pushes pc + 2 and branches to the target. -/
  | call (c : CoreId) (target : PAddr)
  /-- LOOP (R69). Sets up hardware loop N with start, end and count, skipping the body when the count is 0. -/
  | loop (c : CoreId) (n : Bool) (m : Bool) (cnt : BitVec 6) (last : PAddr)
  /-- LD_B (R74). Loads a zero-extended byte through a segment, after the checks of R76. -/
  | ldB (c : CoreId) (g gi : Reg) (sd : SdId) (d : BitVec 7) (par : Bool)
  /-- LD_BS (R74). Loads a sign-extended byte through a segment. -/
  | ldBS (c : CoreId) (g gi : Reg) (sd : SdId) (d : BitVec 7) (par : Bool)
  /-- LD_H (R74). Loads a zero-extended half-word through a segment. -/
  | ldH (c : CoreId) (g gi : Reg) (sd : SdId) (d : BitVec 7) (par : Bool)
  /-- LD_HS (R74). Loads a sign-extended half-word through a segment. -/
  | ldHS (c : CoreId) (g gi : Reg) (sd : SdId) (d : BitVec 7) (par : Bool)
  /-- LD_W (R74). Loads a word through a segment, via the data cache for MEM segments. -/
  | ldW (c : CoreId) (g gi : Reg) (sd : SdId) (d : BitVec 7) (par : Bool)
  /-- ST_B (R74). Stores a byte through a segment into the store buffer. -/
  | stB (c : CoreId) (g gi : Reg) (sd : SdId) (d : BitVec 7)
  /-- ST_H (R74). Stores a half-word through a segment into the store buffer. -/
  | stH (c : CoreId) (g gi : Reg) (sd : SdId) (d : BitVec 7)
  /-- ST_W (R130). Stores a word through a segment, updating the cache and merging into the store buffer. -/
  | stW (c : CoreId) (g gi : Reg) (sd : SdId) (d : BitVec 7)
  /-- STORE_BUFFER_SEND (R130). The oldest store-buffer entry leaves as one write on VC1, freeing room for a waiting store. -/
  | storeBufferSend (c : CoreId)
  /-- SDSET (R79). Writes a segment descriptor from a register group, followed by a one-instruction shadow. -/
  | sdset (c : CoreId) (sd : SdId) (g : Reg)
  /-- SDGET (R79). Reads a segment descriptor into a register group. -/
  | sdget (c : CoreId) (g : Reg) (sd : SdId)
  /-- RESPONSE_FAULT_ENTRY (R90). A pending response-time fault is taken at an instruction boundary once SAVED and ESP.ACT are clear. -/
  | responseFaultEntry (c : CoreId)
  /-- INTERRUPT_ENTRY (R94). A qualifying pending interrupt is taken at an instruction or row boundary, or during fence or bwait. -/
  | interruptEntry (c : CoreId)
  /-- SAVE_WRITE_ACK (R102). Acknowledgement of the last of the four task-state block save writes completes the entry. -/
  | saveWriteAck (k : Nat)
  /-- QUIET_OPEN (R110). A write of QUIET.ACT = 1 opens a non-interruptible window of LEN + 1 cc. -/
  | quietOpen (c : CoreId) (gs : Reg)
  /-- QUIET_CLOSE (R110). A write of QUIET.ACT = 0 closes the window early. -/
  | quietClose (c : CoreId) (gs : Reg)
  /-- QUIET_EXPIRY (R110). LEFT reaching 0 clears ACT and sets OVR. -/
  | quietExpiry (c : CoreId)
  /-- MM (R146). Matrix operation that configures or accumulates onto a tile and requests its passes. -/
  | mm (c : CoreId) (tile : TileId) (gl gs : Reg) (clr : Bool)
  /-- MM_PASS_REQUEST (R146). A further pass of an mm is requested when a stage buffer of its engine frees. -/
  | mmPassRequest (c : CoreId) (eng : Engine)
  /-- PASS_BEGIN (R155). The array begins a pass once its rows are delivered and the previous pass has ended. -/
  | passBegin (c : CoreId) (eng : Engine) (ecc : Ecc)
  /-- PASS_SUMS_WRITTEN (R155). The sums of a pass's last step are written into the tile, and BUSY clears if no further pass is requested. -/
  | passSumsWritten (c : CoreId) (eng : Engine)
  /-- MDRAIN (R147). Drains a tile's configured shape through the store converter into A or P rows. -/
  | mdrain (c : CoreId) (tile : TileId) (gs : Reg) (cd : CdId) (rel : Bool)
  /-- MLD (R148). Loads a tile from rows through a ROW segment, taking its shape from row 0's tag. -/
  | mld (c : CoreId) (tile : TileId) (sd : SdId) (gi : Reg) (d : BitVec 5)
  /-- MST (R148). Stores a tile to rows through a ROW segment, writing its shape in the tag. -/
  | mst (c : CoreId) (tile : TileId) (sd : SdId) (gi : Reg) (d : BitVec 5) (rel : Bool)
  /-- MREL (R149). Releases a tile by clearing INUSE and SROW. -/
  | mrel (c : CoreId) (tile : TileId)
  /-- VADD (R178). Lane-wise vector addition. -/
  | vadd (c : CoreId) (ty : BitVec 2) (vd va vb : VReg)
  /-- VSUB (R178). Lane-wise vector subtraction. -/
  | vsub (c : CoreId) (ty : BitVec 2) (vd va vb : VReg)
  /-- VMUL (R178). Lane-wise vector multiplication. -/
  | vmul (c : CoreId) (ty : BitVec 2) (vd va vb : VReg)
  /-- VFMA (R178). Lane-wise fused multiply-add into vd. -/
  | vfma (c : CoreId) (ty : BitVec 2) (vd va vb : VReg)
  /-- VMAX (R178). Lane-wise maximum. -/
  | vmax (c : CoreId) (ty : BitVec 2) (vd va vb : VReg)
  /-- VMIN (R178). Lane-wise minimum. -/
  | vmin (c : CoreId) (ty : BitVec 2) (vd va vb : VReg)
  /-- VAND (R178). Bitwise AND of vector registers. -/
  | vand (c : CoreId) (ty : BitVec 2) (vd va vb : VReg)
  /-- VOR (R178). Bitwise OR of vector registers. -/
  | vor (c : CoreId) (ty : BitVec 2) (vd va vb : VReg)
  /-- VXOR (R178). Bitwise XOR of vector registers. -/
  | vxor (c : CoreId) (ty : BitVec 2) (vd va vb : VReg)
  /-- VDIV (R178). Lane-wise division on the divider, occupying it for 8 cc. -/
  | vdiv (c : CoreId) (ty : BitVec 2) (vd va vb : VReg)
  /-- VFN (R188). Evaluates function table t on each lane. -/
  | vfn (c : CoreId) (ty : BitVec 2) (vd va : VReg) (t : BitVec 3)
  /-- VREDSUM (R179). Sums all lanes in a fixed pairwise tree into every lane. -/
  | vredsum (c : CoreId) (ty : BitVec 2) (vd va : VReg)
  /-- VREDMAX (R179). Writes the largest lane into every lane. -/
  | vredmax (c : CoreId) (ty : BitVec 2) (vd va : VReg)
  /-- VCLT (R178). Lane-wise less-than mask. -/
  | vclt (c : CoreId) (ty : BitVec 2) (vd va vb : VReg)
  /-- VCEQ (R178). Lane-wise equality mask. -/
  | vceq (c : CoreId) (ty : BitVec 2) (vd va vb : VReg)
  /-- VSEL (R178). Lane-wise select under the mask held in vd. -/
  | vsel (c : CoreId) (ty : BitVec 2) (vd va vb : VReg)
  /-- VLD (R183). Loads and decodes one own-scratchpad row into a register group through the load converter. -/
  | vld (c : CoreId) (v : VReg) (sd : SdId) (gi : Reg) (cd : CdId) (gw : Reg) (ecc : Ecc)
  /-- VST (R183). Stores a register group through the store converter as one whole row. -/
  | vst (c : CoreId) (v : VReg) (sd : SdId) (gi : Reg) (cd : CdId) (gw : Reg)
  /-- VMVT (R185). Copies tile segments into vector registers. -/
  | vmvt (c : CoreId) (v : VReg) (tile : TileId) (seg : BitVec 6) (nm1 : BitVec 5)
  /-- VMVF (R185). Copies vector registers into tile segments and sets INUSE. -/
  | vmvf (c : CoreId) (tile : TileId) (seg : BitVec 6) (v : VReg) (nm1 : BitVec 5)
  /-- VBCAST (R186). Broadcasts a general register into every lane. -/
  | vbcast (c : CoreId) (v : VReg) (gs : Reg) (ty : BitVec 2)
  /-- VEXT (R186). Extracts one lane into a general register. -/
  | vext (c : CoreId) (gd : Reg) (v : VReg) (l : BitVec 6) (ty : BitVec 2)
  /-- VFIRST (R186). Writes the lowest non-zero lane number into a general register. -/
  | vfirst (c : CoreId) (gd : Reg) (v : VReg) (ty : BitVec 2)
  /-- DC_INV_LINES (R132). A DC_INV write with ALL = 0 invalidates CNT + 1 lines in the cache and side buffer. -/
  | dcInvLines (c : CoreId) (v : DWord)
  /-- DC_INV_ALL (R132). A DC_INV write with ALL = 1 invalidates every cache line and side-buffer entry. -/
  | dcInvAll (c : CoreId)
  /-- DC_CTL_WRITE (R136). A DC_CTL write sets DIS and PFD, and a WAYMEM change converts ways between cache and memory. -/
  | dcCtlWrite (c : CoreId) (v : Word)
  /-- QSEND (R292). Sends a message of L rows through a send-credit table entry once credits and send-buffer room exist. -/
  | qsend (c : CoreId) (e : BitVec 5) (gs gl : Reg) (lm1 : BitVec 3) (ord : Bool)
  /-- QCMB (R293). Sends one row as a combining contribution. -/
  | qcmb (c : CoreId) (e : BitVec 5) (gs gi : Reg) (rf : BitVec 2) (red ord : Bool)
  /-- QSTAT (R294). Reads a ring's RSTAT into gd. -/
  | qstat (c : CoreId) (gd : Reg) (r : BitVec 4)
  /-- QPOP (R294). Releases a ring's head message and returns its credits. -/
  | qpop (c : CoreId) (gd : Reg) (r : BitVec 4)
  /-- QCRED (R294). Reads an entry's CRED into gd. -/
  | qcred (c : CoreId) (gd : Reg) (e : BitVec 5)
  /-- QARM (R294). Sets a combining queue's expected count and clears its count, DONE and OVF. -/
  | qarm (c : CoreId) (q : BitVec 3) (gs : Reg)
  /-- SEND_STALL_EVENT (R297). QSWC reaching 2^LOG2N sets SSD_CTL.EVT and INTP.SSD. -/
  | sendStallEvent (c : CoreId)
  /-- SADD (R305). Sends a semaphore add, optionally holding issue for its SACK. -/
  | sadd (c : CoreId) (gn gv : Reg) (imm : BitVec 9) (h ord : Bool)
  /-- SSUB (R305). Sends a semaphore subtract, optionally holding issue for its SACK. -/
  | ssub (c : CoreId) (gn gv : Reg) (imm : BitVec 9) (h ord : Bool)
  /-- SWAIT (R305). Waits on one of the core's own semaphores, optionally subtracting on satisfaction. -/
  | swait (c : CoreId) (gn gv : Reg) (d : Bool)
  /-- SWATCH (R305). Arms a watch entry with a threshold. -/
  | swatch (c : CoreId) (gn gv : Reg) (h ord : Bool)
  /-- SWAIT_CANCEL (R309). An interrupt that qualifies during swait makes the core send a cancel and hold for its answer. -/
  | swaitCancel (c : CoreId)
  /-- DSTART (R331). Starts a DMA channel with a program address, or returns why it refused. -/
  | dstart (c : CoreId) (gd : Reg) (ch : ChanId) (gp : Reg)
  /-- DSTAT (R331). Returns a DMA channel's DCH_STAT. -/
  | dstat (c : CoreId) (gd : Reg) (ch : ChanId)
  /-- DABORT (R331). Requests an abort of a queued, running or waiting channel. -/
  | dabort (c : CoreId) (gd : Reg) (ch : ChanId)
  /-- READ_REQUEST (R227). An RD packet reaches its target, which returns data or an error reply. -/
  | readRequest (k : Nat) (flt : Bool) (ecc : Ecc)
  /-- WRITE_REQUEST (R227). A WR packet reaches its target, which performs it and acknowledges or refuses it. -/
  | writeRequest (k : Nat) (flt : Bool) (ecc : Ecc)
  /-- READ_RESPONSE (R129). An RDR reaches its requester, completing a load, filling a line or side-buffer entry, or delivering a row. -/
  | readResponse (k : Nat) (flt : Bool)
  /-- WRITE_ACKNOWLEDGEMENT (R320). A WACK reaches its requester and completes the write's acknowledgement wait. -/
  | writeAcknowledgement (k : Nat) (flt : Bool)
  /-- ERROR_REPLY (R89). An ERR reaches its requester, raising a precise or response-time fault, a channel error or a logged event. -/
  | errorReply (k : Nat) (flt : Bool)
  /-- MESSAGE_ROW (R276). A MSG row arrives at a queue unit and is allocated, landed, discarded or published. -/
  | messageRow (k : Nat) (flt : Bool)
  /-- ROW0_ALLOCATE (R282). A row 0 held for ring space or a message record is allocated once releases make room. -/
  | row0Allocate (c : CoreId)
  /-- COMBINING_CONTRIBUTION (R287). A CMB packet is added into its target row and counted, setting DONE and adding to SEM when EXP is reached. -/
  | combiningContribution (k : Nat) (flt : Bool) (ecc : Ecc)
  /-- REDUCE_MERGE (R261). Two reduce-flagged contributions meeting in a router merge into one packet. -/
  | reduceMerge (a b : Nat)
  /-- ANTI_STARVATION_GRANT (R257). An injecting or turning packet that has waited 64 cc takes the link ahead of travelling packets. -/
  | antiStarvationGrant (k : Nat)
  /-- CREDIT_RETURN (R280). A CRD packet adds its count to a send-credit entry's CRED. -/
  | creditReturn (k : Nat) (flt : Bool)
  /-- SEMAPHORE_ADD (R304). A SEM add is applied atomically, satisfying waits and firing watches. -/
  | semaphoreAdd (k : Nat) (flt : Bool)
  /-- SEMAPHORE_SUBTRACT (R304). A SEM subtract is applied atomically, or fails below zero. -/
  | semaphoreSubtract (k : Nat) (flt : Bool)
  /-- SEMAPHORE_WAIT (R304). A SEM wait is recorded in the owner's wait slot and answered when satisfied. -/
  | semaphoreWait (k : Nat) (flt : Bool)
  /-- SEMAPHORE_WAIT_SUBTRACT (R304). A SEM wait that subtracts its threshold in the same application on satisfaction. -/
  | semaphoreWaitSubtract (k : Nat) (flt : Bool)
  /-- ARM_WATCH (R312). A SEM arm operation sets THR and ARM on an enabled watch entry and tests it. -/
  | armWatch (k : Nat) (flt : Bool)
  /-- CANCEL_WAIT (R309). A SEM cancel removes a pending wait and answers with status 0x3. -/
  | cancelWait (k : Nat) (flt : Bool)
  /-- SEMAPHORE_RESPONSE (R307). A SACK reaches its issuer, completing a command, a Gecko WAIT or a cancel, or raising a semaphore error. -/
  | semaphoreResponse (k : Nat) (flt : Bool)
  /-- MANAGEMENT_REQUEST (R93). A CTL management request sets INTP.MGMT of a core. -/
  | managementRequest (c : CoreId)
  /-- WATCH_ENTRY_WRITE (R311). A management write of a watch entry word, tested at once when it sets ARM. -/
  | watchEntryWrite (cl : ClusterId) (w : BitVec 6) (j : BitVec 2) (v : DWord)
  /-- TBINV (R317). A SUCTL write with TBINV = 1 invalidates the translation buffer. -/
  | tbinv (cl : ClusterId) (v : Word)
  /-- TRANSLATION_MISS_FILL (R317). A translation-buffer miss completes its stack read and lets the semaphore packet leave. -/
  | translationMissFill (cl : ClusterId)
  /-- CHANNEL_BEGIN (R328). The DMA engine begins the next queued channel after the running one ends. -/
  | channelBegin (cl : ClusterId)
  /-- MGMT_CHANNEL_START (R331). The management subsystem starts a DMA channel with MGS = 1. -/
  | mgmtChannelStart (cl : ClusterId) (ch : ChanId) (prog : FAddr)
  /-- GECKO_FETCH (R333). A program block arrives at a channel, which decodes its instructions. -/
  | geckoFetch (k : Nat) (flt : Bool)
  /-- MOVE (R335). Gecko instruction that copies LEN bytes with strided addresses through the funnel. -/
  | move (cl : ClusterId)
  /-- GECKO_LOOP (R334). Gecko instruction that opens a loop level with its count and strides. -/
  | geckoLoop (cl : ClusterId)
  /-- ENDLOOP (R334). Gecko instruction that loops back or closes the innermost level. -/
  | endloop (cl : ClusterId)
  /-- GECKO_WAIT (R339). Gecko instruction that sends a wait to its own unit and holds the channel in WAIT. -/
  | geckoWait (cl : ClusterId)
  /-- SIGNAL (R340). Gecko instruction that sends an add once every earlier write of the channel is acknowledged. -/
  | signal (cl : ClusterId)
  /-- CSUM (R342). Gecko instruction that writes a checksum record after earlier writes are acknowledged. -/
  | csum (cl : ClusterId)
  /-- END (R345). Gecko instruction that completes the run once every write is acknowledged. -/
  | gend (cl : ClusterId)
  /-- HEAD (R342). Gecko instruction at index 0 that names the abort and error record address. -/
  | head (cl : ClusterId)
  /-- DCH_ABORT (R344). A management write of DCH_CTL.ABT = 1 requests an abort. -/
  | dchAbort (cl : ClusterId) (ch : ChanId)
  /-- DCH_DISABLE (R344). A management write of DCH_CTL.DIS = 1 aborts any run in progress and refuses later starts. -/
  | dchDisable (cl : ClusterId) (ch : ChanId)
  /-- ABORT_COMPLETE (R344). An aborting channel whose writes are all acknowledged writes its record and becomes ABORTED. -/
  | abortComplete (cl : ClusterId)
  /-- NEWT_COMMAND_ROW (R200). A command row arrives in a Newt engine's command ring. -/
  | newtCommandRow (k : Nat) (flt : Bool)
  /-- MARK (R202). Newt command that starts once every earlier-started command has completed. -/
  | mark (st : StackId)
  /-- ADELTA (R215). Newt command that computes an adapter delta under the current version, grouped by handle. -/
  | adelta (st : StackId)
  /-- ATTN (R216). Newt command that optionally appends k and v and computes decode attention. -/
  | attn (st : StackId)
  /-- OPT (R217). Newt command that runs an optimizer step into the buffer not in use. -/
  | opt (st : StackId)
  /-- AVSW (R218). Newt command that schedules an adapter version switch at beat SWB. -/
  | avsw (st : StackId)
  /-- SCRUB (R219). Newt command from the management subsystem that zeroes granules and reads them back. -/
  | scrub (st : StackId) (bad : Bool)
  /-- NEWT_COMMAND_COMPLETE (R206). After all result and stack writes are acknowledged, writes the completion record and sends the semaphore add. -/
  | newtCommandComplete (st : StackId) (id : Nat)
  /-- NERR1_READ (R210). A read of NERR1 returns the head error entry and removes it. -/
  | nerr1Read (st : StackId)
  /-- NCTL_EN_WRITE (R221). A write of NCTL.EN enables the engine, or disables it only when it is idle. -/
  | nctlEnWrite (st : StackId) (en : Bool)
  /-- NCTL_HALTQ_WRITE (R220). A write of NCTL.HALTQ stops or resumes acceptance of command rows. -/
  | nctlHaltqWrite (st : StackId) (hq : Bool)
  /-- NEWT_TABLE_WRITE (R199). A management write to the directory or a slot table, held until referencing commands complete. -/
  | newtTableWrite (st : StackId) (off : BitVec 21) (v : Word)
  /-- REFRESH (R226). A memory controller refreshes its stack without software action. -/
  | refresh (st : StackId)
  /-- PATROL_READ (R226). The patrol reads a granule, writing back corrected bursts and logging uncorrectable ones. -/
  | patrolRead (st : StackId) (ecc : Ecc)
  /-- IMBALANCE_WINDOW_END (R242). At the end of each W-beat window the monitor computes the ratio and begins or ends an episode. -/
  | imbalanceWindowEnd
  /-- BOUNDARY_GENERATE (R366). The master generates boundary b + 1, applying the stretch of requests gathered before the cutoff, and sends markers. -/
  | boundaryGenerate
  /-- BEAT_BOUNDARY_APPLY (R349). The beat unit applies a boundary: increments BCNT, pulses BEAT_OUT, computes lag and sends HOLD. -/
  | beatBoundaryApply
  /-- BEATL_UPDATE (R350). 64 cc after an applied boundary, every enabled core's BEATL takes the new BCNT and INTP.BEAT sets. -/
  | beatlUpdate
  /-- BEAT_IN_EDGE (R353). A BEAT_IN rising edge gives a received boundary to a pin follower or a role 1 master. -/
  | beatInEdge
  /-- BEAT_MARKER (R353). A beat marker control flit is applied once per beat number and forwarded on other active ports. -/
  | beatMarker (p : PortId) (f : CtlFlit)
  /-- HOLD_FLIT (R365). A HOLD control flit is relayed once per origin, beat and value, and gathered by the master. -/
  | holdFlit (p : PortId) (f : CtlFlit)
  /-- IDENT_FLIT (R404). An IDENT control flit gives the peer identity and a round-trip sample, moving the port to ACTIVE after 64. -/
  | identFlit (p : PortId) (f : CtlFlit)
  /-- FLYWHEEL_ENTRY (R355). No received boundary within 2 × PERIOD + 64 cc moves the lock to FLYWHEEL and applies the missed boundary. -/
  | flywheelEntry
  /-- FLYWHEEL_BOUNDARY (R355). A flywheel boundary is applied PERIOD after the previous one, and the lock becomes LOST after 16. -/
  | flywheelBoundary
  /-- RESPONSE_HOLD_REQUEST (R358). A core held more than GRACE cycles on a response raises a stall request. -/
  | responseHoldRequest (c : CoreId)
  /-- STALL_REQUEST (R360). A stall request reaches the beat unit, which names a freeze cycle 64 cc later or cancels a named resume. -/
  | stallRequest (k : Nat) (flt : Bool)
  /-- STALL_WITHDRAW (R360). A withdrawal reaches the beat unit, which names the resume when the count falls to 0. -/
  | stallWithdraw (k : Nat) (flt : Bool)
  /-- FREEZE_BEGIN (R360). In the named freeze cycle every enabled compute region freezes. -/
  | freezeBegin
  /-- FREEZE_RESUME (R360). In the named resume cycle all regions resume together. -/
  | freezeResume
  /-- FREEZE_TIMEOUT (R362). A freeze lasting STOUT cc ends and masks the requests in force. -/
  | freezeTimeout
  /-- HOLD_REPEAT (R364). After each further 512 cc of freeze, a larger HOLD request is sent on every active link. -/
  | holdRepeat
  /-- BT_RESYNC (R356). A write of BT_CTL.RESYNC makes BCNT take BT_RSB at the next applied boundary and clears LAG. -/
  | btResync
  /-- BT_ROLE_WRITE (R357). A write that changes ROLE, PORT or PERIOD, refused in RUN, otherwise returning the lock to NOLOCK. -/
  | btRoleWrite (ctl cfg : Word)
  /-- BT_STEN_WRITE (R358). A write of BT_CTL.STEN starts or ends freezing on the requests in force. -/
  | btStenWrite (sten : Bool)
  /-- BT_EN_WRITE (R368). A write of BT_CTL.EN stops or resumes the application of boundaries. -/
  | btEnWrite (en : Bool)
  /-- RC_RUN (R379). A write of RC_CTL.RUN starts a stopped core at RC_PC at the level that SUPST names. -/
  | rcRun (c : CoreId) (supst : Bool)
  /-- RC_STOP (R379). A write of RC_CTL.STOP stops a running core at its next instruction or row boundary. -/
  | rcStop (c : CoreId)
  /-- VARIANT_CHOICE (R466). During each beat the power controller chooses the next beat's variant and writes its ring entry. -/
  | variantChoice
  /-- LINK_FRAME_RECEIVE (R397). A link frame is checked, its flits are delivered in order, and its trailer gives ACK, NAK and credits. -/
  | linkFrameReceive (p : PortId) (f : Frame)
  /-- RETRY_TIMER_EXPIRY (R398). An unacknowledged frame that has waited 4,096 cc is replayed. -/
  | retryTimerExpiry (p : PortId)
  /-- TRAIN_SUCCESS (R403). Link training succeeds, and the port moves to ALIGN. -/
  | trainSuccess (p : PortId)
  /-- TRAIN_TIMEOUT (R403). A port still in TRAIN after 200 ms moves to FAILED. -/
  | trainTimeout (p : PortId)
  /-- ALIGN_LOCK (R403). FEC lock and frame alignment move the port to IDENT. -/
  | alignLock (p : PortId)
  /-- ALIGN_TIMEOUT (R403). A port not aligned within 1 ms moves to FAILED. -/
  | alignTimeout (p : PortId)
  /-- ALIGNMENT_LOST (R403). Loss of alignment on an ACTIVE port moves it to RETRAIN. -/
  | alignmentLost (p : PortId)
  /-- RETRAIN_COMPLETE (R403). A retrained port returns to ACTIVE, resuming at the peer's expected SEQ. -/
  | retrainComplete (p : PortId) (seq : BitVec 12)
  /-- RETRAIN_TIMEOUT (R403). A port still in RETRAIN after 20 ms moves to FAILED and discards its queued packets. -/
  | retrainTimeout (p : PortId)
  /-- FAILED_RETRY (R403). A FAILED port with EN = 1 returns to TRAIN after 1 s. -/
  | failedRetry (p : PortId)
  /-- DRAIN_COMPLETE (R405). A draining port whose retry buffer is fully acknowledged enters OFF. -/
  | drainComplete (p : PortId)
  /-- DRAIN_TIMEOUT (R405). A port still draining after 100 µs discards its packets, records DTMO and enters OFF. -/
  | drainTimeout (p : PortId)
  /-- LP_EN_WRITE (R405). A write of LP_CTL.EN starts a port training or moves an ACTIVE port to DRAIN. -/
  | lpEnWrite (p : PortId) (en : Bool)
  /-- LP_RETR (R411). A write of LP_CTL.RETR = 1 moves an ACTIVE port to RETRAIN. -/
  | lpRetr (p : PortId)
  /-- ROUTE_ENTRY_WRITE (R407). A route table write is acknowledged once every injection point holds it. -/
  | routeEntryWrite (dev : BitVec 10) (v : Word)
  /-- PCIE_LINK_TRAINED (R419). The PCIe link trains, and a rate or width below nominal sets PEND.DEG. -/
  | pcieLinkTrained (speed : BitVec 4) (width : BitVec 5)
  /-- PCIE_RESET (R419). An FLR, hot reset, PERST_N or link-down resets the BAR0 registers and ends transfers in progress. -/
  | pcieReset
  /-- MAILBOX_ENABLE (R421). A write of MB_CTL.EN = 1 enables the mailbox and sets HEAD and TAIL to 0. -/
  | mailboxEnable (v : Word)
  /-- DOORBELL (R425). An MB_DB write advances TAIL, or sets OVR, and lets the E4 fetch requests. -/
  | doorbell (tail : BitVec 16)
  /-- RETIRE_ENABLE (R421). A write of SL_CTL.RT = 1 enables retire records and sets PI to 0. -/
  | retireEnable (v : Word)
  /-- DICTIONARY_WINDOW_ACCESS (R422). A write of OD_CMD.GO performs one dictionary read or write through the BAR0 window. -/
  | dictionaryWindowAccess (cmd : Word)
  /-- BAR2_READ (R423). A host read through BAR2 of the memory class, completed after earlier BAR2 writes are acknowledged. -/
  | bar2Read (off : HostRead) (len : Nat)
  /-- BAR2_WRITE (R423). A host write through BAR2 of the memory class. -/
  | bar2Write (off : Nat) (bytes : List Byte)
  /-- NOP_COMMAND (R429). Mailbox command that only returns a reply header. -/
  | nopCommand (r : ReqHdr)
  /-- DICT_READ (R429). Mailbox command that reads up to 232 bytes of an entry from OFFSET. -/
  | dictRead (r : ReqHdr) (index : BitVec 16) (sub : Byte) (off : Word)
  /-- DICT_WRITE (R441). Mailbox command that writes an entry after the access checks, persisting RWP values. -/
  | dictWrite (r : ReqHdr) (index : BitVec 16) (sub : Byte) (off : Word) (value : List Byte)
  /-- LOG_READ (R485). Mailbox command that returns whole log records from FROM. -/
  | logRead (r : ReqHdr) (sfrom : DWord)
  /-- ATTN_ACK (R428). Mailbox command that acknowledges attention entries up to sequence q. -/
  | attnAck (r : ReqHdr) (q : DWord)
  /-- STATE (R450). Mailbox command that requests a device state transition. -/
  | state (r : ReqHdr) (target : Byte)
  /-- LOAD (R380). Mailbox command that loads and places a staged image. -/
  | load (r : ReqHdr) (mbase ptab : DWord) (npeer : BitVec 16)
  /-- RELEASE (R382). Mailbox command that releases the placed image to run from beat START. -/
  | release (r : ReqHdr) (start : DWord)
  /-- RESYNC (R429). Mailbox command that writes BT_RSB and RESYNC. -/
  | resync (r : ReqHdr) (beat : DWord)
  /-- BIND (R431). Mailbox command that binds a slot to a tenant's adapter from beat EFF. -/
  | bind (r : ReqHdr) (slot : BitVec 16) (eff half : Word)
  /-- UNBIND (R431). Mailbox command that unbinds a slot from beat EFF. -/
  | unbind (r : ReqHdr) (slot : BitVec 16) (eff : Word)
  /-- SEMADD (R435). Mailbox command that adds to a semaphore after earlier BAR2 writes are acknowledged. -/
  | semadd (r : ReqHdr) (snw val : Word)
  /-- HDMA (R434). Mailbox command that copies bytes between host memory and device memory. -/
  | hdma (r : ReqHdr) (dir : Byte) (len : Word) (haddr daddr : DWord)
  /-- MCTP_DICT_READ (R446). A dictionary read request over MCTP. -/
  | mctpDictRead (secured : Option Nat) (vendor : BitVec 16) (tag : MctpTag) (index : BitVec 16) (sub : Byte) (off : Word)
  /-- MCTP_DICT_WRITE (R446). A dictionary write request over MCTP. -/
  | mctpDictWrite (secured : Option Nat) (vendor : BitVec 16) (tag : Byte) (index : BitVec 16) (sub : Byte) (off : Word) (value : List Byte)
  /-- WARM_START_REQUEST (R453). A write of 1 to 0x0003:01 replies and then begins a warm start. -/
  | warmStartRequest
  /-- COLD_START_REQUEST (R453). A write of 2 to 0x0003:01 replies and then begins a cold start. -/
  | coldStartRequest
  /-- STORE_CLEAR_REQUEST (R455). A write of 0x5A to 0x0003:02 clears the persisted store at the next start. -/
  | storeClearRequest (v : Byte)
  /-- SUPPLY_RISE (R522). The 48 V supply arrives after precharge, and the device leaves OFF for TADPOLE. -/
  | supplyRise
  /-- COLD_START (R471). Runs the cold start steps to PREOP or READY. -/
  | coldStart (r : StartResult)
  /-- WARM_START (R471). Runs the warm start steps, keeping stack contents and the image if possible. -/
  | warmStart (r : StartResult)
  /-- SUPPLY_TICK (R459). Once per µs the supply is classified, and loss or over-voltage stops the regulators. -/
  | supplyTick (mv : Nat) (mw : Nat) (low : Bool)
  /-- PWR_WARN_FALL (R460). PWR_WARN_N falls, and V3 is written into every ring entry still writable. -/
  | pwrWarnFall
  /-- WARN_THROTTLE (R460). If V3 is not in force 2 µs after the fall, the array throttle goes to duty 2. -/
  | warnThrottle
  /-- THERMAL_TICK (R467). Once per tick the thermal estimate, the excesses, the throttle duty and the stack rates are updated. -/
  | thermalTick
  /-- THERMAL_TRIP (R469). A hardware comparator at 125 °C die or 105 °C stack stops every regulator. -/
  | thermalTrip
  /-- REFCLK_LOSS (R462). REF_CLK absent for more than 100 µs moves the device to FAULT. -/
  | refclkLoss
  /-- REGION_POWER_REQUEST (R474). A write of 0x2020:01 powers regions up or down, refusing regions that are not idle. -/
  | regionPowerRequest (v : BitVec 16)
  /-- WATCHDOG_EXPIRY (R480). The watchdog runs out, moving the device to FAULT and restarting the Skink processor. -/
  | watchdogExpiry
  /-- SENSOR_SAMPLE (R481). Once per tick every sensor is sampled, and invalid sensors are replaced. -/
  | sensorSample (id : Nat) (conv : Option (BitVec 32))
  /-- RAIL_EVENT (R482). A rail outside ±5 % reports an event, and FAULT follows after 10 ticks. -/
  | railEvent (rail : Fin 14)
  /-- LOG_FLUSH (R484). Log records are written from the SRAM buffer to the flash ring in SEQ order. -/
  | logFlush (n : Nat)
  /-- TENANT_RELEASE (R499). A write of 0x7031:01 erases a tenant's adapter regions on every stack. -/
  | tenantRelease (w : Secured (BitVec 16))
  /-- RECOVERY_START (R504). A write of 1 to 0x7050:01 stops, saves and enters AXOLOTL. -/
  | recoveryStart (w : Secured Byte)
  /-- RECOVERY_LOAD (R505). A write of 0x7050:03 loads and releases the staged recovery image. -/
  | recoveryLoad (w : Secured DWord)
  /-- MINSVN_RAISE (R495). A write of 0x7001:03 raises MINSVN. -/
  | minsvnRaise (w : Secured Byte)
  /-- SET_ROOT_HASH (R491). A write of 0x7002:02 sets or clears the operator root hash. -/
  | setRootHash (session : Nat) (hash : List Byte)
  /-- KEY_INSTALL (R490). A write of 0x7012 installs or removes a schedule-image key modulus. -/
  | keyInstall (session : Nat) (k : Fin 32) (modulus : List Byte)
  /-- UNLOCK_MODULUS_INSTALL (R518). A write of 0x7040:03 installs or removes the monitor unlock modulus. -/
  | unlockModulusInstall (session : Nat) (modulus : List Byte)
  /-- QUERY_DEVICE_IDENTIFIERS (R494). PLDM firmware update command. -/
  | queryDeviceIdentifiers
  /-- GET_FIRMWARE_PARAMETERS (R494). PLDM firmware update command. -/
  | getFirmwareParameters
  /-- REQUEST_UPDATE (R494). PLDM command that begins an update of the inactive slot. -/
  | requestUpdate
  /-- PASS_COMPONENT_TABLE (R494). PLDM firmware update command. -/
  | passComponentTable
  /-- UPDATE_COMPONENT (R494). PLDM firmware update command. -/
  | updateComponent (len : Nat)
  /-- REQUEST_FIRMWARE_DATA (R494). PLDM transfer of firmware data into the inactive slot. -/
  | requestFirmwareData (off : Nat) (bytes : List Byte)
  /-- TRANSFER_COMPLETE (R494). PLDM firmware update command. -/
  | transferComplete
  /-- VERIFY_COMPLETE (R494). PLDM command that reports whether the written image verifies. -/
  | verifyComplete
  /-- APPLY_COMPLETE (R494). PLDM firmware update command. -/
  | applyComplete
  /-- ACTIVATE_FIRMWARE (R494). PLDM command that sets TRIAL to the written slot and TRIES to 0. -/
  | activateFirmware
  /-- GET_STATUS (R494). PLDM firmware update command. -/
  | getStatus
  /-- CANCEL_UPDATE_COMPONENT (R494). PLDM firmware update command. -/
  | cancelUpdateComponent
  /-- CANCEL_UPDATE (R494). PLDM firmware update command. -/
  | cancelUpdate
  /-- GET_VERSION (R496). SPDM request. -/
  | getVersion
  /-- GET_CAPABILITIES (R496). SPDM request. -/
  | getCapabilities
  /-- NEGOTIATE_ALGORITHMS (R496). SPDM request. -/
  | negotiateAlgorithms
  /-- GET_DIGESTS (R496). SPDM request. -/
  | getDigests
  /-- GET_CERTIFICATE (R496). SPDM request for certificate slot 0. -/
  | getCertificate (slot : Byte) (off len : BitVec 16)
  /-- CHALLENGE (R496). SPDM request. -/
  | challenge (slot : Byte) (nonce : List Byte)
  /-- GET_MEASUREMENTS (R497). SPDM request that reports measurement blocks taken at one instant. -/
  | getMeasurements (index : Byte)
  /-- KEY_EXCHANGE (R496). SPDM request that opens a session, answering BUSY beyond two. -/
  | keyExchange (x : KeyExchange)
  /-- FINISH (R496). SPDM request. -/
  | finish (session : Nat)
  /-- HEARTBEAT (R496). SPDM request. -/
  | heartbeat (session : Nat)
  /-- KEY_UPDATE (R496). SPDM request. -/
  | keyUpdate (session : Nat)
  /-- END_SESSION (R496). SPDM request. -/
  | endSession (session : Nat)
  /-- VARAN_ST (R512). Monitor command that reports state, hold, fault, BCNT, lock and attention count. -/
  | varanSt
  /-- VARAN_OR (R513). Monitor command that reads a dictionary entry. -/
  | varanOr (index : BitVec 16) (sub : Byte) (off len : Nat)
  /-- VARAN_OW (R513). Monitor command that writes a dictionary entry. -/
  | varanOw (index : BitVec 16) (sub : Byte) (bytes : List Byte)
  /-- VARAN_LR (R512). Monitor command that reads whole log records. -/
  | varanLr (seq : Nat) (n : Nat)
  /-- VARAN_CHAL (R514). Monitor command that returns a fresh unlock nonce. -/
  | varanChal
  /-- VARAN_UNLOCK (R514). Monitor command that unlocks the monitor if the signature verifies. -/
  | varanUnlock (bytes : List Byte)
  /-- VARAN_LOCK (R514). Monitor command that relocks the monitor. -/
  | varanLock
  /-- VARAN_MR (R515). Monitor command that reads items of memory. -/
  | varanMr (w : Width) (addr : DWord) (n : Nat)
  /-- VARAN_MW (R515). Monitor command that writes items of memory. -/
  | varanMw (w : Width) (addr : DWord) (bytes : List Byte)
  /-- VARAN_CS (R516). Monitor command that reports the state of a stopped core. -/
  | varanCs (core : Nat)
  /-- MONITOR_INACTIVITY_TIMEOUT (R514). 15 minutes without a received line relocks the monitor. -/
  | monitorInactivityTimeout
  /-- REGISTER_WRITE (R11). A write of a register that has no row of its own sets its fields under the access codes. -/
  | registerWrite (sp : RegSpace) (off : BitVec 46) (w : Width) (v : DWord)
  /-- ILLEGAL_OPCODE_FAULT (R56). A fetched word with a reserved opcode, prefix or sub-operation raises the illegal opcode fault before it has any effect. -/
  | illegalOpcodeFault (c : CoreId) (w1 w2 : BitVec 14)
  /-- HOST_READ_COMPLETION (R434). A PCIe completion returns host-memory data, or an error, for a read the host interface issued for an input pull or an HDMA to the device. -/
  | hostReadCompletion (tag : Nat) (ok : Bool) (bytes : List Byte)
  /-- UNKNOWN_OP_REQUEST (R429). A fetched mailbox request with an unlisted OP receives a reply with status BADOP. -/
  | unknownOpRequest (r : ReqHdr) (op : Byte)
deriving DecidableEq, Repr

end Sys2Proof
end

