-- ==== Sys2Proof/Machine/State.lean ====
section
/-! DEFINITION. The whole state of the block, its reset value, and the reasons a step can stop. -/

namespace Sys2Proof.Machine

/-- Device-wide identity and state (R2, R7, R19, R448-R452). -/
structure Dev where
  /-- Stepping B0 (R7). -/
  b0      : Bool := false
  /-- Enabled-region map (R2). -/
  map     : BitVec 16 := 0xFFFF
  /-- Regions that are powered (R474). -/
  powered : BitVec 16 := 0xFFFF
  /-- Asynchronous region crossings in force (R19). -/
  async   : Bool := false
  st      : DevSt := .preop
  prev    : DevSt := .tadpole
  /-- Hold causes: bit 0 power budget, 1 thermal, 2 beat (R451). -/
  holds   : BitVec 3 := 0
  /-- First FAULT cause since the last start (Table 19.8); 0 none. -/
  cause   : Byte := 0
  /-- BCNT at the last transition. -/
  lastB   : DWord := 0
deriving DecidableEq, Repr

/-- The machine. [DESIGN CHOICE, log entry 131: safe] [DEDUCED, log entry 141: safe] -/
structure State where
  /-- Commands that wait, first in, first out. -/
  pending : List Instr := []
  cores   : Table Core := []
  clus    : Table Cluster := []
  stks  : Table Stack := []
  /-- Stack memory by stack * 2^37 + stack address (R240); an unlisted byte reads 0. -/
  mem     : List Host.Cell := []
  /-- Bursts that are uncorrectable (R225), by key / 64, rising. -/
  badMem  : List Nat := []
  /-- Bursts whose error a read corrects (R225), by key / 64. -/
  softMem : List Nat := []
  /-- Fabric packets in flight, in injection order (R254). -/
  net     : List Packet := []
  /-- DEVT from which each link of the rings is free, by `RingLink.key`: a granted packet keeps its link until its last flit has passed (R257). -/
  rings   : Table Nat := []
  imb     : Imbalance := {}
  beat    : Beat := {}
  links   : Links := {}
  host    : HostIf := {}
  log     : Log := {}
  loader  : Loader := {}
  power   : Power := {}
  mgmt    : Mgmt := {}
  mon     : Varan := {}
  /-- Dictionary counters by index * 256 + subindex. -/
  cnt     : Table Nat := []
  dev     : Dev := {}
  /-- How many free values the run has drawn. -/
  free    : Nat := 0
deriving DecidableEq, Repr

/-- Why the machine stops with a fault. [DEDUCED, log entry 133: safe] -/
inductive Fault where
  /-- A write changed SUCTL.VM while a core of the cluster was not stopped or a SEM packet of it was unanswered: R316 calls the outcome undefined. Raised by REGISTER_WRITE and other writes of that register, and by a release of cores that changes VM. Safe. -/
  | vmChangedLive
deriving DecidableEq, Repr

/-- Why a command has no meaning. -/
inductive Refusal where
  /-- Raised by an arm of Dispatch whose command has no meaning yet. Safe. -/
  | notModelled (mnemonic : String)
deriving DecidableEq, Repr

/-- A record that the start has left in the log. -/
def startRec (seq : Nat) (code : BitVec 16) (fields : List Byte) : LogRec :=
  { seq, tus := 0, code, beat := 0, att := false, fields, rep := 0, una := 0, more := false, chain := false, flash := false }

/-- The log right after a cold start: the start record (kind, cold starts, firmware version), then the two transitions (R449, R486). -/
def Log.reset : Log :=
  { nextSeq := 4, recs := [startRec 1 0x1202 [1, 1, 0, 0, 0, 1], startRec 2 0x1201 [0, 1, 0, 0], startRec 3 0x1201 [1, 2, 0, 0]] }

/-- The link ports right after a start: the default map enables all 18, 10 µs apart in ascending order, and port 0 trains (R403, R470). -/
def Links.reset : Links := { ports := [(0, { en := true, st := .train })], starts := (List.range 17).map (fun p => (22500 * (p + 1), p + 1)) }

/-- The machine right after a completed cold start. [DESIGN CHOICE, log entry 2: unsafe] [DESIGN CHOICE, log entry 3: unsafe] -/
def State.reset : State := { log := Log.reset, links := Links.reset }

end Sys2Proof.Machine
end

