-- ==== Sys2Proof/Machine/Addr.lean ====
section
/-! DEFINITION. Identities (R17), the fabric address map (R229-R240), bit-field helpers and byte order (R10). -/

namespace Sys2Proof.Machine

/-! ## Bits and bytes -/

/-- Bits [hi:lo] of a natural number. -/
def bitsOf (n hi lo : Nat) : Nat := (n >>> lo) % 2 ^ (hi + 1 - lo)

/-- Byte `i` of a little-endian bit vector (R10). -/
def byteAt {w : Nat} (v : BitVec w) (i : Nat) : Byte := BitVec.ofNat 8 (v.toNat >>> (8 * i))

/-- The little-endian bytes of `v`, `n` of them. -/
def bytesOf {w : Nat} (v : BitVec w) (n : Nat) : List Byte := (List.range n).map (byteAt v)

/-- The number that little-endian bytes spell (R10). -/
def leNat : List Byte → Nat
  | [] => 0
  | b :: bs => b.toNat + 256 * leNat bs

/-- `n` little-endian bytes of a number. -/
def leBytes : Nat → Nat → List Byte
  | 0, _ => []
  | n + 1, v => BitVec.ofNat 8 v :: leBytes n (v / 256)

/-- A field of a log record: the smallest of 1, 2, 4 or 8 bytes that holds it, little-endian (R483). [DEDUCED, log entry 28: unsafe] -/
def lf (v : Nat) : List Byte :=
  leBytes (if v < 2 ^ 8 then 1 else if v < 2 ^ 16 then 2 else if v < 2 ^ 32 then 4 else 8) v

/-- `v` with the `len` bits from `lo` replaced by `x`. -/
def setBits {w : Nat} (v : BitVec w) (lo len : Nat) (x : Nat) : BitVec w :=
  let m := BitVec.ofNat w ((2 ^ len - 1) <<< lo)
  (v &&& ~~~m) ||| (BitVec.ofNat w ((x % 2 ^ len) <<< lo))

/-- Sign extension of the low `n` bits of a word. -/
def sext (n : Nat) (v : Nat) : Word := BitVec.ofInt 32 ((BitVec.ofNat n v).toInt)

/-- A Boolean as a number. -/
def bnat (b : Bool) : Nat := if b then 1 else 0

/-! ## Identities (R17) -/

/-- Grid row of a core. -/
def rowOf (c : Nat) : Nat := c / 32
/-- Grid column of a core. -/
def colOf (c : Nat) : Nat := c % 32
/-- Cluster of a core (R17). -/
def clusterOf (c : Nat) : Nat := (rowOf c / 4) * 8 + colOf c / 4
/-- Compute region of a core (R17). -/
def regionOf (c : Nat) : Nat := (colOf c / 16) * 8 + (rowOf c / 8) * 2 + (colOf c % 16) / 8
/-- Place of a core within its cluster (R236). -/
def kOf (c : Nat) : Nat := (rowOf c % 4) * 4 + colOf c % 4
/-- North-west core of a cluster (R249). -/
def nwOf (cl : Nat) : Nat := (cl / 8) * 4 * 32 + (cl % 8) * 4
/-- Core `k` of a cluster (R236). -/
def coreOfK (cl k : Nat) : Nat := nwOf cl + (k / 4) * 32 + k % 4
/-- Region of a cluster. -/
def regionOfCluster (cl : Nat) : Nat := regionOf (nwOf cl)

/-! ## The local address map (R230, Tables 5.2, 10.2, 10.4-10.6) -/

/-- What a local address names. -/
inductive Target where
  /-- stack memory: stack and stack address -/
  | mem (stack sa : Nat)
  /-- scratchpad data: core, memory, row, byte in the row -/
  | data (core : Nat) (pad : Pad) (row off : Nat)
  /-- scratchpad side bands: core, memory, row, byte in the side band -/
  | side (core : Nat) (pad : Pad) (row off : Nat)
  /-- way memory: core, offset in the window -/
  | way (core off : Nat)
  | coreCtl (core off : Nat)
  | clusCtl (cl off : Nat)
  | newt (stack off : Nat)
  /-- the command window of a Newt engine -/
  | command (stack : Nat)
  | mctl (stack off : Nat)
  | devCtl (off : Nat)
  /-- an offset of a core's scratchpad window that Table 5.2 gives no target -/
  | hole (core : Nat)
  | nothing
deriving DecidableEq, Repr

/-- Address classes (Table 10.3). -/
inductive ACls where
  | memory | row | way | control | command | none_
deriving DecidableEq, Repr

/-- The interleave of R239: stack, channel, channel granule and byte of an interleaved local address. -/
def interleave (a : Nat) : Nat × Nat × Nat × Nat :=
  let g := a / 512
  let b := a % 512
  let w := g / 256
  let f8 := (w % 256) ^^^ (w / 256 % 256) ^^^ (w / 65536 % 128)
  let ch := (g % 256) ^^^ f8
  (ch / 32, ch % 32, w, b)

/-- The fold of R240. -/
def fold5 (w : Nat) : Nat :=
  (w % 32) ^^^ (w / 32 % 32) ^^^ (w / 1024 % 32) ^^^ (w / 32768 % 32) ^^^ (w / 1048576 % 8)

/-- Stack address of a channel, channel granule and byte (R240). -/
def stackAddr (c w b : Nat) : Nat := ((w * 32) + (c ^^^ fold5 w)) * 512 + b

/-- Stack and stack address of an interleaved local address (R239, R240). -/
def memOfLocal (a : Nat) : Nat × Nat :=
  let (s, c, w, b) := interleave a
  (s, stackAddr c w b)

/-- Interleaved local address of a stack address, the inverse of R239 and R240. -/
def localOfMem (st sa : Nat) : Nat :=
  let w := sa / 16384
  let c := st * 32 + (sa / 512 % 32 ^^^ fold5 w)
  let f8 := (w % 256) ^^^ (w / 256 % 256) ^^^ (w / 65536 % 128)
  (w * 256 + (c ^^^ f8)) * 512 + sa % 512

/-- Bytes of the interleaved range: 576 GiB. -/
def memTop : Nat := 0x9000000000

/-- Decode of a scratchpad window offset (Table 5.2). -/
def padTarget (core o : Nat) : Target :=
  if o < 0x60000 then .data core .w (o / 512) (o % 512)
  else if o < 0x90000 then .data core .a ((o - 0x60000) / 512) (o % 512)
  else if o < 0xA0000 then .data core .p ((o - 0x90000) / 512) (o % 512)
  else if o < 0xA6000 then .way core (o - 0xA0000)
  else if o < 0xC0000 then .hole core
  else if o < 0xC6000 then .side core .w ((o - 0xC0000) / 32) (o % 32)
  else if o < 0xC9000 then .side core .a ((o - 0xC6000) / 32) (o % 32)
  else if o < 0xCA000 then .side core .p ((o - 0xC9000) / 32) (o % 32)
  else .hole core

/-- What a local address names (Table 10.2). -/
def targetOf (a : Nat) : Target :=
  if a < memTop then let (s, sa) := memOfLocal a; .mem s sa
  else if a < 0x10000000000 then .nothing
  else if a < 0x20000000000 then
    let o := a - 0x10000000000
    if o % 0x2000000000 < 0x1200000000 then .mem (o / 0x2000000000) (o % 0x2000000000) else .nothing
  else if a < 0x100000000000 then .nothing
  else if a < 0x100040000000 then
    padTarget ((a - 0x100000000000) / 0x100000) (a % 0x100000)
  else if a < 0x200000000000 then .nothing
  else if a < 0x200004000000 then .coreCtl ((a - 0x200000000000) / 0x10000) (a % 0x10000)
  else if a < 0x200004400000 then .clusCtl ((a - 0x200004000000) / 0x10000) (a % 0x10000)
  else if a < 0x200008000000 then .nothing
  else if a < 0x200009000000 then
    let s := (a - 0x200008000000) / 0x200000
    let o := a % 0x200000
    if 0x10000 ≤ o ∧ o < 0x11000 then .command s else .newt s o
  else if a < 0x200009080000 then .mctl ((a - 0x200009000000) / 0x10000) (a % 0x10000)
  else if a < 0x200010000000 then .nothing
  else if a < 0x200020000000 then .devCtl (a - 0x200010000000)
  else .nothing

/-- The class of a target (Tables 10.2, 10.3, 5.2). -/
def Target.cls : Target → ACls
  | .mem _ _ => .memory
  | .data _ _ _ _ => .row
  | .side _ _ _ _ => .row
  | .way _ _ => .way
  | .coreCtl _ _ => .control
  | .clusCtl _ _ => .control
  | .newt _ _ => .control
  | .command _ => .command
  | .mctl _ _ => .control
  | .devCtl _ => .control
  | .hole _ => .none_
  | .nothing => .none_

/-- Local part of a fabric address. -/
def localOf (a : FAddr) : Nat := a.toNat % 2 ^ 46
/-- Device field of a fabric address. -/
def devOf (a : FAddr) : DevId := BitVec.ofNat 10 (a.toNat >>> 46)
/-- A fabric address from device and local part. -/
def mkFAddr (d : DevId) (l : Nat) : FAddr := BitVec.ofNat 56 (d.toNat * 2 ^ 46 + l % 2 ^ 46)

/-- Key of a byte of stack memory in `State.mem`. -/
def memKey (stack sa : Nat) : Nat := stack * 2 ^ 37 + sa

/-- Rim node of a stack (Table 11.1). -/
def stackNode (s : Nat) : NodeId := BitVec.ofNat 11 (if s < 4 then 0x400 + s else 0x410 + (s - 4))
/-- Rim node of a link port group (R394). -/
def groupNode (g : Nat) : NodeId := BitVec.ofNat 11 (if g < 3 then 0x404 + g else 0x414 + (g - 3))
/-- Node of the management subsystem, loader, beat unit and device control (Table 11.1). -/
def mgmtNode : NodeId := 0x408
/-- Node of the host interface (Table 11.1). -/
def hostNode : NodeId := 0x407

/-- Destination node and port of a target (Table 11.2). -/
def Target.dest : Target → NodeId × BitVec 3
  | .mem s _ => (stackNode s, 0)
  | .data c _ _ _ => (BitVec.ofNat 11 c, 1)
  | .side c _ _ _ => (BitVec.ofNat 11 c, 1)
  | .way c _ => (BitVec.ofNat 11 c, 1)
  | .coreCtl c _ => (BitVec.ofNat 11 c, 0)
  | .clusCtl cl o => (BitVec.ofNat 11 (nwOf cl), if 0x2000 ≤ o ∧ o < 0x2200 then 2 else 3)
  | .newt s _ => (stackNode s, 1)
  | .command s => (stackNode s, 1)
  | .mctl s _ => (stackNode s, 0)
  | .devCtl _ => (mgmtNode, 0)
  | .hole c => (BitVec.ofNat 11 c, 1)
  | .nothing => (mgmtNode, 0)

/-- Rows of a scratchpad (Table 5.1). -/
def Pad.rows : Pad → Nat
  | .w => 768
  | .a => 384
  | .p => 128

/-- Data offset of a scratchpad in its window (Table 5.2). -/
def Pad.base : Pad → Nat
  | .w => 0
  | .a => 0x60000
  | .p => 0x90000

/-- Local address of a scratchpad row's data (R114). -/
def rowAddr (core : Nat) (pad : Pad) (row : Nat) : Nat :=
  0x100000000000 + core * 0x100000 + pad.base + row * 0x200

/-- Local address of semaphore `i` of core `c` (R301). -/
def semAddr (c i : Nat) : Nat :=
  0x200004000000 + clusterOf c * 0x10000 + kOf c * 0xC0 + 4 * i

end Sys2Proof.Machine
end

