-- ==== Sys2Proof/Machine/Float.lean ====
section
/-! DEFINITION. Exact binary values and their rounding to the formats of Table 2.2; the arithmetic of the vector lanes, the fabric adds and the ledger lanes rests on it. -/

namespace Sys2Proof.Machine

/-- A decoded value: NaN, an infinity, or the exact number (−1)^neg · m · 2^e. -/
inductive FVal where
  | nan
  | inf (neg : Bool)
  | fin (neg : Bool) (m : Nat) (e : Int)
deriving DecidableEq, Repr

/-- An IEEE-style format: exponent bits and mantissa bits; its bias is 2^(eb−1) − 1 (Table 2.2). -/
structure FFmt where
  eb : Nat
  mb : Nat
deriving DecidableEq, Repr

/-- FP32, BF16, FP16, FP64 and E5M2 share the IEEE scheme of specials (Table 2.2). -/
def fp32 : FFmt := ⟨8, 23⟩
def bf16 : FFmt := ⟨8, 7⟩
def fp16 : FFmt := ⟨5, 10⟩
def fp64 : FFmt := ⟨11, 52⟩
def e5m2 : FFmt := ⟨5, 2⟩

/-- Exponent bias. -/
def FFmt.bias (f : FFmt) : Int := (2 ^ (f.eb - 1) : Nat) - 1
/-- Exponent of the smallest normal. -/
def FFmt.emin (f : FFmt) : Int := 1 - f.bias
/-- Exponent field of infinities and NaN. -/
def FFmt.emax (f : FFmt) : Nat := 2 ^ f.eb - 1
/-- Sign bit place. -/
def FFmt.sign (f : FFmt) : Nat := f.eb + f.mb

/-- Decodes the bits of an IEEE-style format exactly (R28). -/
def FFmt.decode (f : FFmt) (v : Nat) : FVal :=
  let neg := v.testBit f.sign
  let e := (v >>> f.mb) % 2 ^ f.eb
  let m := v % 2 ^ f.mb
  if e = f.emax then (if m = 0 then .inf neg else .nan)
  else if e = 0 then .fin neg m (f.emin - f.mb)
  else .fin neg (m + 2 ^ f.mb) (f.emin - f.mb + (e - 1))

/-- The canonical quiet NaN of an IEEE-style format, sign 0 (R31). -/
def FFmt.qnan (f : FFmt) : Nat := f.emax <<< f.mb ||| (if f = e5m2 then 3 else 1 <<< (f.mb - 1))
/-- Infinity. -/
def FFmt.infinity (f : FFmt) (neg : Bool) : Nat := bnat neg <<< f.sign ||| f.emax <<< f.mb
/-- Zero. -/
def FFmt.zero (f : FFmt) (neg : Bool) : Nat := bnat neg <<< f.sign
/-- Largest finite. -/
def FFmt.maxFin (f : FFmt) (neg : Bool) : Nat := bnat neg <<< f.sign ||| ((f.emax <<< f.mb) - 1)

/-- Rounding directions (R38): nearest-even, toward zero, toward +∞, toward −∞, nearest-away. -/
inductive RMode where
  | ne | tz | up | dn | na
deriving DecidableEq, Repr

/-- Whether a magnitude `q` with remainder `r` of `2^k` is rounded up in magnitude. -/
def roundUp (md : RMode) (neg : Bool) (q r k : Nat) : Bool :=
  match md with
  | .ne => decide (2 ^ k < 2 * r) || (decide (2 * r = 2 ^ k) && decide (q % 2 = 1))
  | .tz => false
  | .up => decide (r ≠ 0) && !neg
  | .dn => decide (r ≠ 0) && neg
  | .na => decide (2 ^ k ≤ 2 * r)

/-- `m · 2^e` as a multiple of `2^q`, rounded; with whether it was inexact. -/
def quantise (md : RMode) (neg : Bool) (m : Nat) (e q : Int) : Nat × Bool :=
  if q ≤ e then (m <<< (e - q).toNat, false)
  else
    let k := (q - e).toNat
    let n := m >>> k
    let r := m % 2 ^ k
    (n + bnat (roundUp md neg n r k), decide (r ≠ 0))

/-- IEEE flags of one operation, in the order NV DZ OF UF NX (Table 9.11). -/
structure FFlags where
  nv : Bool := false
  dz : Bool := false
  ovf : Bool := false
  uf : Bool := false
  nx : Bool := false
deriving DecidableEq, Repr

/-- The flags of two operations together. -/
def FFlags.or (a b : FFlags) : FFlags :=
  ⟨a.nv || b.nv, a.dz || b.dz, a.ovf || b.ovf, a.uf || b.uf, a.nx || b.nx⟩

/-- Rounds an exact finite value to a format: its bits and the overflow, underflow and inexact flags; tininess is detected after rounding (R38). -/
def FFmt.roundFl (f : FFmt) (md : RMode) (neg : Bool) (m : Nat) (e : Int) : Nat × FFlags :=
  if m = 0 then (f.zero neg, {})
  else
    let lead : Int := e + (Nat.log2 m : Int)
    let q : Int := (if lead < f.emin then f.emin else lead) - f.mb
    let (n, nx) := quantise md neg m e q
    let bits := ((q - (f.emin - f.mb)).toNat <<< f.mb) + n
    let (nu, _) := quantise md neg m e (lead - f.mb)
    let tiny := decide (lead < f.emin) && !(decide (lead = f.emin - 1) && decide (nu = 2 ^ (f.mb + 1)))
    if f.emax <<< f.mb ≤ bits then
      let big := match md with
        | .ne => true | .na => true | .tz => false | .up => !neg | .dn => neg
      ((if big then f.infinity neg else f.maxFin neg), { ovf := true, nx := true })
    else (bnat neg <<< f.sign ||| bits, { uf := tiny && nx, nx })

/-- Rounds an exact finite value to a format. -/
def FFmt.round (f : FFmt) (md : RMode) (neg : Bool) (m : Nat) (e : Int) : Nat := (f.roundFl md neg m e).1

/-- A signed mantissa as a value. -/
def ofSigned (z : Int) (e : Int) : FVal := .fin (decide (z < 0)) z.natAbs e

/-- The signed mantissa of a finite value at exponent `q ≤ e`. -/
def signedAt (neg : Bool) (m : Nat) (e q : Int) : Int :=
  let v : Int := ((m <<< (e - q).toNat : Nat) : Int)
  if neg then -v else v

/-- Exact sum; a zero sum is +0 unless both addends are −0 (or one is and the mode is toward −∞). -/
def FVal.add (rdn : Bool) : FVal → FVal → FVal
  | .nan, _ => .nan
  | _, .nan => .nan
  | .inf a, .inf b => if a = b then .inf a else .nan
  | .inf a, _ => .inf a
  | _, .inf b => .inf b
  | .fin s1 m1 e1, .fin s2 m2 e2 =>
    let q := min e1 e2
    let z := signedAt s1 m1 e1 q + signedAt s2 m2 e2 q
    if z = 0 then .fin (if m1 = 0 ∧ m2 = 0 ∧ s1 = s2 then s1 else rdn) 0 q
    else ofSigned z q

/-- Exact product. -/
def FVal.mul : FVal → FVal → FVal
  | .nan, _ => .nan
  | _, .nan => .nan
  | .inf a, .inf b => .inf (a != b)
  | .inf a, .fin b m _ => if m = 0 then .nan else .inf (a != b)
  | .fin a m _, .inf b => if m = 0 then .nan else .inf (a != b)
  | .fin a m1 e1, .fin b m2 e2 => .fin (a != b) (m1 * m2) (e1 + e2)

/-- Negation. -/
def FVal.neg : FVal → FVal
  | .nan => .nan
  | .inf a => .inf (!a)
  | .fin a m e => .fin (!a) m e

/-- Quotient to 80 further bits with a sticky bit: exact enough to round once to any format here. -/
def FVal.div : FVal → FVal → FVal
  | .nan, _ => .nan
  | _, .nan => .nan
  | .inf _, .inf _ => .nan
  | .inf a, .fin b _ _ => .inf (a != b)
  | .fin a _ _, .inf b => .fin (a != b) 0 0
  | .fin a m1 e1, .fin b m2 e2 =>
    if m2 = 0 then (if m1 = 0 then .nan else .inf (a != b))
    else if m1 = 0 then .fin (a != b) 0 0
    else
      let k := Nat.log2 m2 + 80
      let n := (m1 <<< k) / m2
      let r := (m1 <<< k) % m2
      .fin (a != b) (2 * n + bnat (decide (r ≠ 0))) (e1 - e2 - k - 1)

/-- Integer square root by the digit recurrence, `fuel` bits. -/
def isqrtGo : Nat → Nat → Nat → Nat
  | 0, _, r => r
  | fuel + 1, n, r =>
    let c := r + 2 ^ fuel
    if c * c ≤ n then isqrtGo fuel n c else isqrtGo fuel n r

/-- Square root with a sticky bit (R38); −0 keeps its sign, a negative value gives NaN. -/
def FVal.sqrt : FVal → FVal
  | .nan => .nan
  | .inf neg => if neg then .nan else .inf false
  | .fin neg m e =>
    if m = 0 then .fin neg 0 e
    else if neg then .nan
    else
      let k := 140 + bnat (decide (e % 2 ≠ 0))
      let n := m <<< k
      let r := isqrtGo (Nat.log2 n / 2 + 1) n 0
      .fin false (2 * r + bnat (decide (r * r ≠ n))) ((e - k) / 2 - 1)

/-- Zero of the sign of a subnormal: the flushing of the vector FP32 lanes and tiles (Table 2.4, R37). -/
def flush32 (v : Word) : Word := if bitsOf v.toNat 30 23 = 0 then v &&& 0x80000000 else v

/-- A value rounded to flushing FP32, nearest ties to even, NaN canonical (R31, Table 2.4). -/
def toFp32 (x : FVal) : Word :=
  match x with
  | .nan => 0x7FC00000
  | .inf neg => BitVec.ofNat 32 (fp32.infinity neg)
  | .fin neg m e => flush32 (BitVec.ofNat 32 (fp32.round .ne neg m e))

/-- An FP32 operand of a flushing domain: a subnormal reads as zero of its sign (Table 2.4). -/
def ofFp32 (v : Word) : FVal := fp32.decode (flush32 v).toNat

/-- A value rounded to BF16, nearest ties to even, subnormals kept, NaN canonical (Table 2.4). -/
def toBf16 (x : FVal) : BitVec 16 :=
  match x with
  | .nan => 0x7FC0
  | .inf neg => BitVec.ofNat 16 (bf16.infinity neg)
  | .fin neg m e => BitVec.ofNat 16 (bf16.round .ne neg m e)

/-- A BF16 operand, decoded exactly. -/
def ofBf16 (v : BitVec 16) : FVal := bf16.decode v.toNat

/-- FP32 addition of the vector lanes and the fabric (Table 2.4). -/
def add32 (a b : Word) : Word := toFp32 (FVal.add false (ofFp32 a) (ofFp32 b))
/-- FP32 multiplication of the vector lanes. -/
def mul32 (a b : Word) : Word := toFp32 (FVal.mul (ofFp32 a) (ofFp32 b))
/-- FP32 division of the vector lanes. -/
def div32 (a b : Word) : Word := toFp32 (FVal.div (ofFp32 a) (ofFp32 b))
/-- FP32 fused multiply-add, one rounding (R37). -/
def fma32 (a b c : Word) : Word := toFp32 (FVal.add false (FVal.mul (ofFp32 a) (ofFp32 b)) (ofFp32 c))
/-- FP32 negation. -/
def neg32 (a : Word) : Word := a ^^^ 0x80000000
/-- BF16 addition of the vector lanes and the fabric. -/
def add16 (a b : BitVec 16) : BitVec 16 := toBf16 (FVal.add false (ofBf16 a) (ofBf16 b))

/-- Strict order of two values, false with a NaN; −0 and +0 are equal (R178). -/
def FVal.lt : FVal → FVal → Bool
  | .nan, _ => false
  | _, .nan => false
  | .inf a, .inf b => a && !b
  | .inf a, .fin _ _ _ => a
  | .fin _ _ _, .inf b => !b
  | .fin s1 m1 e1, .fin s2 m2 e2 =>
    let q := min e1 e2
    decide (signedAt s1 m1 e1 q < signedAt s2 m2 e2 q)

/-- Equality of two values, false with a NaN (R178). -/
def FVal.eq (a b : FVal) : Bool :=
  match a, b with
  | .nan, _ => false
  | _, .nan => false
  | a, b => !(a.lt b) && !(b.lt a)

/-- ⌊x⌋ of a finite value, as an integer. -/
def floorInt (neg : Bool) (m : Nat) (e : Int) : Int :=
  let z : Int := if neg then -(m : Int) else m
  if 0 ≤ e then z * ((2 ^ e.toNat : Nat) : Int) else z.fdiv ((2 ^ (-e).toNat : Nat) : Int)

/-- Whether a value is NaN. -/
def FVal.isNan : FVal → Bool
  | .nan => true
  | _ => false

/-- Whether a value is zero. -/
def FVal.isZero : FVal → Bool
  | .fin _ m _ => decide (m = 0)
  | _ => false

/-- Multiplies a value by 2^k exactly. -/
def FVal.scale (k : Int) : FVal → FVal
  | .fin a m e => .fin a m (e + k)
  | x => x

/-! ## The accumulation window of the matrix engines (R39-R41) -/

/-- Exponent of the leading bit of the largest finite non-zero addend. -/
def leadMax : List FVal → Option Int
  | [] => none
  | .fin _ m e :: xs =>
    if m = 0 then leadMax xs
    else
      let l : Int := e + (Nat.log2 m : Int)
      match leadMax xs with
      | none => some l
      | some k => some (max l k)
  | _ :: xs => leadMax xs

/-- An addend truncated toward minus infinity to units of `2^u` (R39). -/
def truncTo (u : Int) : FVal → Int
  | .fin neg m e =>
    let z : Int := if neg then -(m : Int) else m
    if u ≤ e then z * ((2 ^ (e - u).toNat : Nat) : Int) else z.fdiv ((2 ^ (u - e).toNat : Nat) : Int)
  | _ => 0

/-- Conversion of the window sum to FP32 (R40). [DESIGN CHOICE, log entry 144: unsafe] -/
def windowOut (allNegZero : Bool) (z u : Int) : Word :=
  if z = 0 then (if allNegZero then 0x80000000 else 0)
  else
    let n := Nat.log2 z.natAbs + 1
    let k := n - 24
    let z' : Int := (z.fdiv ((2 ^ k : Nat) : Int)) * ((2 ^ k : Nat) : Int)
    let neg := decide (z' < 0)
    let m := z'.natAbs
    let lead : Int := u + (Nat.log2 m : Int)
    if 127 < lead then BitVec.ofNat 32 (fp32.infinity (decide (z < 0)))
    else if lead < -126 then BitVec.ofNat 32 (fp32.zero (decide (z < 0)))
    else BitVec.ofNat 32 (fp32.round .tz neg m u)

/-- One accumulation step: the running value and a group's products (R39-R41). -/
def accStep (a : Word) (prods : List FVal) : Word :=
  let xs := fp32.decode a.toNat :: prods
  if xs.any FVal.isNan then 0x7FC00000
  else if xs.any (fun x => decide (x = .inf false)) && xs.any (fun x => decide (x = .inf true)) then 0x7FC00000
  else if xs.any (fun x => decide (x = .inf false)) then BitVec.ofNat 32 (fp32.infinity false)
  else if xs.any (fun x => decide (x = .inf true)) then BitVec.ofNat 32 (fp32.infinity true)
  else
    let allNegZero := xs.all (fun x => match x with | .fin neg m _ => neg && decide (m = 0) | _ => false)
    match leadMax xs with
    | none => if allNegZero then 0x80000000 else 0
    | some l =>
      let u := l - 20
      windowOut allNegZero (xs.foldl (fun z x => z + truncTo u x) 0) u

end Sys2Proof.Machine
end

