-- ==== Sys2Proof/Machine/Formats.lean ====
section
/-! DEFINITION. Row formats (Table 2.3), element codecs (Table 2.2), the store and load converters (R43-R48) and the fabric's row addition (R262). -/

namespace Sys2Proof.Machine

/-- Format codes 0xB-0xE are reserved (Table 2.3). -/
def fmtReserved (f : Nat) : Bool := 0xB ≤ f && f ≤ 0xE

/-- Bits of an element (Table 2.3). -/
def elemBits (f : Nat) : Nat :=
  match f with
  | 0 => 32 | 1 => 16 | 2 => 16 | 3 => 32 | 6 => 6 | 7 => 6 | 8 => 4 | _ => 8

/-- Elements of a row (Table 2.3). -/
def epr (f : Nat) : Nat :=
  match f with
  | 0 => 128 | 1 => 256 | 2 => 256 | 3 => 128 | 6 => 640 | 7 => 640 | 8 => 960 | _ => 512

/-- The MX formats, which carry a scale for each block of 32 (R32). -/
def isMx (f : Nat) : Bool := 4 ≤ f && f ≤ 9

/-- The element format's exponent and mantissa bits (Table 2.2). -/
def elemFmt (f : Nat) : FFmt :=
  match f with
  | 0 => fp32 | 1 => bf16 | 2 => fp16 | 4 => ⟨4, 3⟩ | 5 => e5m2 | 6 => ⟨3, 2⟩ | 7 => ⟨2, 3⟩ | _ => ⟨2, 1⟩

/-- Decodes an element code without its scale (R28, R29); FP32 outside the ledger lanes is the flushing one (Tables 2.1, 2.2, 2.4). -/
def decodeElem (f v : Nat) : FVal :=
  match f with
  | 0 => ofFp32 (BitVec.ofNat 32 v)
  | 1 => bf16.decode v
  | 2 => fp16.decode v
  | 3 => ofSigned (BitVec.ofNat 32 v).toInt 0
  | 5 => e5m2.decode v
  | 9 => ofSigned (BitVec.ofNat 8 v).toInt (-6)
  | 10 => ofSigned (BitVec.ofNat 8 v).toInt 0
  | _ =>
    let g := elemFmt f
    if f = 4 ∧ v % 128 = 0x7F then .nan
    else
      let e := (v >>> g.mb) % 2 ^ g.eb
      let m := v % 2 ^ g.mb
      if e = 0 then .fin (v.testBit g.sign) m (g.emin - g.mb)
      else .fin (v.testBit g.sign) (m + 2 ^ g.mb) (g.emin - g.mb + (e - 1))

/-- Element `k` of a row of format `f`, its block scale included (R32, R33). -/
def rowElem (f : Nat) (r : Row) (k : Nat) : FVal :=
  let b := elemBits f
  let v := decodeElem f ((r.data.toNat >>> (b * k)) % 2 ^ b)
  if isMx f then
    let sc := bitsOf r.side.toNat (8 * (k / 32) + 7) (8 * (k / 32))
    if sc = 0xFF then .nan else v.scale ((sc : Int) - 127)
  else v

/-- Little-endian packing of codes of `b` bits. -/
def packLE (b : Nat) : List Nat → Nat
  | [] => 0
  | c :: cs => c % 2 ^ b + 2 ^ b * packLE b cs

/-! ## The store converter -/

/-- Rounding of a descriptor: RND 1 is toward zero, anything else nearest-even (Table 2.7). -/
def cdRnd (cd : Word) : RMode := if bitsOf cd.toNat 5 4 = 1 then .tz else .ne
/-- SMODE 1 is per-block scaling; 2-3 are treated as 0 (Table 2.7). -/
def cdBlock (cd : Word) : Bool := decide (bitsOf cd.toNat 9 8 = 1)
/-- SAT. -/
def cdSat (cd : Word) : Bool := cd.getLsbD 6
/-- FMT. -/
def cdFmt (cd : Word) : Nat := bitsOf cd.toNat 3 0
/-- SCALE. -/
def cdScale (cd : Word) : Nat := bitsOf cd.toNat 31 24
/-- BIAS, signed. -/
def cdBias (cd : Word) : Int := (BitVec.ofNat 8 (bitsOf cd.toNat 23 16)).toInt

/-- Code of the largest finite magnitude of a floating element format (Table 2.2). -/
def maxCode (f : Nat) : Nat :=
  match f with
  | 0 => 0x7F7FFFFF | 1 => 0x7F7F | 2 => 0x7BFF | 4 => 0x7E | 5 => 0x7B | 6 => 0x1F | 7 => 0x1F | _ => 0x7

/-- An element as the converter forms it: a code, or the mark that the whole block becomes NaN (R47). -/
inductive Elem where
  | code (v : Nat)
  | nanBlock
deriving DecidableEq, Repr

/-- An infinity under Table 2.9. -/
def elemInf (f : Nat) (sat neg : Bool) : Elem :=
  let g := elemFmt f
  if f = 9 then (if sat then .code (if neg then 0x80 else 0x7F) else .nanBlock)
  else if sat then .code (bnat neg <<< g.sign ||| maxCode f)
  else
    match f with
    | 0 => .code (g.infinity neg) | 1 => .code (g.infinity neg) | 2 => .code (g.infinity neg)
    | 5 => .code (g.infinity neg)
    | 4 => .code 0x7F
    | _ => .nanBlock

/-- A NaN under Table 2.9. -/
def elemNan (f : Nat) : Elem :=
  match f with
  | 0 => .code 0x7FC00000 | 1 => .code 0x7FC0 | 2 => .code 0x7E00 | 4 => .code 0x7F | 5 => .code 0x7F
  | _ => .nanBlock

/-- A finite value, already divided by its block scale, rounded to an element; beyond the largest finite it saturates where `clip` says so, and is an infinity otherwise (R45, R46). -/
def elemFin (f : Nat) (md : RMode) (clip sat neg : Bool) (m : Nat) (e : Int) : Elem :=
  let g := elemFmt f
  if m = 0 then .code (if f = 9 then 0 else bnat neg <<< g.sign)
  else if f = 9 then
    let (n, _) := quantise md neg m e (-6)
    if (if neg then 128 else 127) < n then (if clip then .code (if neg then 0x80 else 0x7F) else elemInf f sat neg)
    else .code (if neg then (256 - n) % 256 else n)
  else
    let lead : Int := e + (Nat.log2 m : Int)
    let q : Int := (if lead < g.emin then g.emin else lead) - g.mb
    let (n, _) := quantise md neg m e q
    let bits := ((q - (g.emin - g.mb)).toNat <<< g.mb) + n
    if maxCode f < bits then (if clip then .code (bnat neg <<< g.sign ||| maxCode f) else elemInf f sat neg)
    else if f = 0 then .code (flush32 (BitVec.ofNat 32 (bnat neg <<< g.sign ||| bits))).toNat
    else .code (bnat neg <<< g.sign ||| bits)

/-- An element of a target without block scales (R47). -/
def plainElem (f : Nat) (md : RMode) (sat : Bool) (x : FVal) : Nat :=
  if f = 3 ∨ f = 10 then
    let w := if f = 3 then 32 else 8
    let hi : Int := (2 ^ (w - 1) : Nat) - 1
    match x with
    | .nan => 0
    | .inf neg => if neg then 2 ^ (w - 1) else 2 ^ (w - 1) - 1
    | .fin neg m e =>
      let (n, _) := quantise md neg m e 0
      let z : Int := if neg then -(n : Int) else n
      ((max (-hi - 1) (min hi z)) % (2 ^ w : Nat)).toNat
  else
    let r := match x with
      | .nan => elemNan f
      | .inf neg => elemInf f sat neg
      | .fin neg m e => elemFin f md sat sat neg m e
    match r with | .code v => v | .nanBlock => 0

/-- Largest normal exponent of an MX element format (Table 2.8). -/
def emaxOf (f : Nat) : Int :=
  match f with
  | 4 => 8 | 5 => 15 | 6 => 4 | 7 => 2 | 8 => 2 | _ => 0

/-- FP32 flushing of a source value (R45). -/
def flushVal : FVal → FVal
  | .fin neg m e => if m ≠ 0 ∧ e + (Nat.log2 m : Int) < -126 then .fin neg 0 e else .fin neg m e
  | x => x

/-- One block of an MX target: its scale byte and its element codes (R45-R47). -/
def mxBlock (cd : Word) (xs : List FVal) : Nat × List Nat :=
  let f := cdFmt cd
  let md := cdRnd cd
  let sat := cdSat cd
  let zeros := xs.map (fun _ => 0)
  let finish (sc : Nat) (clip : Bool) (xs : List FVal) : Nat × List Nat :=
    let es : List Elem := xs.map (fun (x : FVal) =>
      match x with
      | .nan => elemNan f
      | .inf neg => elemInf f sat neg
      | .fin neg m e => elemFin f md clip sat neg m (e - ((sc : Int) - 127)))
    if es.any (fun e => decide (e = .nanBlock)) then (0xFF, zeros)
    else (sc, es.map (fun e => match e with | .code v => v | .nanBlock => 0))
  if cdBlock cd then
    let ys := xs.map flushVal
    if ys.any FVal.isNan then (0xFF, zeros)
    else
      match leadMax ys with
      | none => finish 0x7F true ys
      | some l =>
        let x := max (-127) (min 127 (l - emaxOf f + cdBias cd))
        finish (x + 127).toNat true ys
  else if cdScale cd = 0xFF then (0xFF, zeros)
  else finish (cdScale cd) sat xs

/-- Blocks of 32 of a list; `fuel` bounds their number. -/
def blocks32 {α : Type} : Nat → List α → List (List α)
  | 0, _ => []
  | fuel + 1, xs => if xs.isEmpty then [] else xs.take 32 :: blocks32 fuel (xs.drop 32)

/-- The whole row that a converting store writes: positions not supplied are zero, the row tag carries the format (R34, R125). -/
def convertRow (cd : Word) (xs : List FVal) : Row :=
  let f := cdFmt cd
  let n := epr f
  let ys := (xs ++ List.replicate (n - xs.length) (FVal.fin false 0 0)).take n
  let tag := f <<< 252
  if isMx f then
    let bl := (blocks32 30 ys).map (mxBlock cd)
    { data := BitVec.ofNat 4096 (packLE (elemBits f) (bl.flatMap (·.2))),
      side := BitVec.ofNat 256 (packLE 8 (bl.map (·.1)) + tag) }
  else
    { data := BitVec.ofNat 4096 (packLE (elemBits f) (ys.map (plainElem f (cdRnd cd) (cdSat cd)))),
      side := BitVec.ofNat 256 tag }

/-! ## The load converter (R48, R183) -/

/-- A decoded value as an INT8 lane: nearest, ties to even, saturated, NaN giving 0 (R183). -/
def toInt8 (x : FVal) : Byte :=
  match x with
  | .nan => 0
  | .inf neg => if neg then 0x80 else 0x7F
  | .fin neg m e =>
    let (n, _) := quantise .ne neg m e 0
    let z : Int := if neg then -(n : Int) else n
    BitVec.ofInt 8 (max (-128) (min 127 z))

/-- A decoded value in the lane format TY (Table 8.1), as its bits. -/
def toLane (ty : Nat) (x : FVal) : Nat :=
  match ty with
  | 1 => (toBf16 x).toNat
  | 2 => (toInt8 x).toNat
  | _ => (toFp32 x).toNat

/-- A lane as a value of its type; FP32 subnormals read as zero (Table 2.4). -/
def ofLane (ty v : Nat) : FVal :=
  match ty with
  | 1 => ofBf16 (BitVec.ofNat 16 v)
  | 2 => ofSigned (BitVec.ofNat 8 v).toInt 0
  | _ => ofFp32 (BitVec.ofNat 32 v)

/-! ## Fabric and combining additions (R262, R287) -/

/-- Elementwise sum of two rows of data in a reduction format: 0 FP32, 1 BF16, 2 INT32. [DESIGN CHOICE, log entry 145: unsafe] -/
def addRows (rf : Nat) (a b : BitVec 4096) : BitVec 4096 :=
  let w := if rf = 1 then 16 else 32
  let n := 4096 / w
  let x (v : BitVec 4096) (i : Nat) : Nat := (v.toNat >>> (w * i)) % 2 ^ w
  BitVec.ofNat 4096 (packLE w ((List.range n).map (fun i =>
    match rf with
    | 1 => (add16 (BitVec.ofNat 16 (x a i)) (BitVec.ofNat 16 (x b i))).toNat
    | 0 => (add32 (BitVec.ofNat 32 (x a i)) (BitVec.ofNat 32 (x b i))).toNat
    | _ => (x a i + x b i) % 2 ^ 32)))

/-- A row whose every element is the poison word of a reduction format (R267). -/
def poisonRow (rf : Nat) : BitVec 4096 :=
  if rf = 1 then BitVec.ofNat 4096 (packLE 16 (List.replicate 256 0x7FC0))
  else BitVec.ofNat 4096 (packLE 32 (List.replicate 128 0x7FC00000))

end Sys2Proof.Machine
end

