-- ==== Sys2Proof/Config.lean ====
section
/-! DEFINITION. The values that the spec leaves open: constants without a body, so that no proof can rest on one. -/

namespace Sys2Proof.Config

/-- An upset of stored data: of a scratchpad row (core, 0 W, 1 A or 2 P, row), or of a burst of stack memory (by key / 64); `hard` says that the check bits cannot correct it. -/
inductive Upset where
  | row (core pad row : Nat) (hard : Bool)
  | burst (b : Nat) (hard : Bool)
deriving DecidableEq, Repr

/-- What upsets stored data in a cycle, by DEVT (R126, R225 give errors no source). [DEDUCED, log entry 146: safe] -/
opaque upset : Nat → Option Upset

/-- Whether a release in progress writes its next RUN in a cycle, by DEVT (R382 gives no rate). -/
opaque runWrite : Nat → Bool

/-- Whether a write of the persisted store does not read back (R442 gives the flash no failures of its own), by the number of RWP writes before it. -/
opaque storeBad : Nat → Bool

/-- Severity of a log record by its code: R483 gives the codes of SEV and no event its severity. [DESIGN CHOICE, log entry 27: safe] -/
opaque logSev : Nat → BitVec 2

/-- A byte of a newly converted cache way (R136: the content is undefined), by free-value index and offset. [DESIGN CHOICE, log entry 34: safe] -/
opaque wayByte : Nat → Nat → Byte

/-- A byte of a MOVE destination that overlaps its source (R335: undefined), by free-value index and offset. [DESIGN CHOICE, log entry 33: safe] -/
opaque overlapByte : Nat → Nat → Byte

/-- Which of the FP32 values within 1 ulp of the exact exponential a Newt engine's exp returns (R216), by the operand's bits. [DESIGN CHOICE, log entry 35: safe] -/
opaque expUlp : Word → Nat

/-- A result row that two commands write (R214: the surviving value is not defined). [DESIGN CHOICE, log entry 36: safe] -/
opaque rowClash : Nat → BitVec 4096

/-- Which of two zeros of opposite sign a vector maximum or minimum returns (Table 8.2 gives the larger, and -0 equals +0), by the two lanes' bits: true for the first. [DESIGN CHOICE, log entry 31: safe] -/
opaque zeroTie : Nat → Nat → Bool

/-- A mode-1 function-table result whose segment index rounds up to 128, past the last entry (R188 gives none), by the FP32 input's bits. [DESIGN CHOICE, log entry 32: safe] -/
opaque fnEdge : Word → Word

/-- Which burst of an access or granule the check symbols found uncorrectable (R225), by free-value index. [DESIGN CHOICE, log entry 18: safe] -/
opaque badBurst : Nat → Nat

/-- Whether the loader refuses an image's minor FVER (Table 16.9 refuses some with FORMAT; R371 names the accepted major only). [DESIGN CHOICE, log entry 38: safe] -/
opaque minorRefused : Nat → Bool

/-- Which of several NaN operands a ledger lane's result takes its payload from (R38: IEEE 754 leaves it open), by the operands. [DESIGN CHOICE, log entry 37: safe] -/
opaque nanPick : List Nat → Nat

/-- The sign of a NaN that a ledger lane propagates (R38: IEEE 754 gives none), by the operands. -/
opaque nanSign : List Nat → Bool

/-- The payload of an FP64 NaN that an invalid operation makes in a ledger lane (R31 lists no FP64, and IEEE 754 fixes no payload), by the operands. -/
opaque nanMade : List Nat → Nat

/-- The payload of an FP64 NaN converted to FP32 in a ledger lane (R38: IEEE 754 does not fix it). -/
opaque nanNarrow : Nat → Nat

/-- Whether fma(0, ∞, quiet NaN) raises NV in a ledger lane (R38: IEEE 754 leaves it open). -/
opaque fmaNv : Bool

/-- Character `i` of the module serial number, before it is brought into the printable range (0x0001:03; the spec gives no serial number). [DESIGN CHOICE, log entry 39: safe] -/
opaque serialChar : Nat → Byte

/-- The die identifier (0x0001:04; no value is given). -/
opaque dieId : DWord

/-- The PCI vendor ID of 0x6000:01 (R417: Sprinestin's, no value is given). -/
opaque vendorId : BitVec 16

/-- Byte `i` of the device identity modulus (0x7000:01). -/
opaque identityByte : Nat → Byte

/-- The identity certificate chain (0x7000:02), of which the first 4,096 bytes count. -/
opaque certChain : List Byte

/-- FWROOT (Table 21.7), the SHA-512 of the firmware root modulus. -/
opaque fwRoot : List Byte

/-- The SHA-512 of the Tadpole ROM (Table 21.9). -/
opaque romHash : List Byte

/-- The SHA-512 of the firmware image written at manufacture (Table 21.9). -/
opaque madeHash : List Byte

/-- What a router finds in the check bits of a packet's flits (R267: an error comes from outside the model), by free-value index: nothing, a corrected word, or an uncorrectable one. [DEDUCED, log entry 60: safe] -/
opaque flitFault : Nat → Option Bool

/-- Random bytes: nonces and challenges, by free-value index and offset (R496, R514). -/
opaque random : Nat → Nat → Byte

/-- A signature of the device's identity key over a message (R488: the private key never leaves the key store), by free-value index. -/
opaque identitySign : Nat → List Byte → List Byte

/-- The responder's DHE share of a session (R496: the key agreement's secrets are not in the spec), by free-value index; 96 bytes count. [DESIGN CHOICE, log entry 193: safe] -/
opaque dheShare : Nat → List Byte

/-- Byte `i` of the AES-256-GCM keys of a session's two directions (R496), by free-value index. -/
opaque sessionKey : Nat → Nat → Byte

end Sys2Proof.Config
end

