-- ==== Sys2Proof/Machine/Packets.lean ====
section
/-! DEFINITION. Packets of the fabric: virtual channels, sizes, payloads, answers and slots (R254, R255). -/

namespace Sys2Proof

open Sys2Proof.Machine

/-- Virtual channel of a packet (Table 11.4); an ERR that answers a SEM is marked by `red` and travels on VC0. -/
def Packet.vc (p : Packet) : Nat :=
  match p.kind with
  | .rd => 1 | .wr => 1
  | .rdr => 2 | .wack => 2 | .msg => 2 | .cmb => 2
  | .err => if p.red then 0 else 2
  | .sem => 0 | .sack => 0 | .crd => 0 | .ctl => 0
  | .res _ => 2

/-- Bytes that a SIZE code names (Table 11.3). -/
def sizeBytes (z : BitVec 4) : Nat :=
  match z.toNat with
  | 0 => 1 | 1 => 2 | 2 => 4 | 3 => 8 | 4 => 32 | 5 => 64 | 6 => 512 | _ => 0

/-- SIZE code of an access of `n` bytes (Table 11.3). -/
def sizeCode (n : Nat) : BitVec 4 :=
  match n with
  | 1 => 0 | 2 => 1 | 4 => 2 | 8 => 3 | 32 => 4 | 64 => 5 | _ => 6

/-- Data flits of a packet (R254). -/
def Packet.flits (p : Packet) : Nat :=
  match p.kind with
  | .wr => if p.size = 6 then 8 else if p.size = 5 then 1 else 0
  | .rdr => if p.size = 6 then 8 else if p.size = 5 then 1 else 0
  | .msg => 8
  | .cmb => 8
  | _ => 0

/-- Whether a packet expects an answer (Table 11.4). -/
def Packet.answered (p : Packet) : Bool :=
  match p.kind with
  | .rd => true | .wr => true | .msg => true | .sem => true
  | .cmb => !p.red
  | _ => false

/-- Payload bytes of a packet: the side-band place for up to 32 bytes, the data flits otherwise (R254). -/
def Packet.payload (p : Packet) : List Byte :=
  let n := sizeBytes p.size
  if n ≤ 32 then bytesOf p.side n else bytesOf p.data n

/-- A packet with `n` payload bytes placed as R254 states. -/
def Packet.withPayload (p : Packet) (bs : List Byte) : Packet :=
  let n := bs.length
  if n ≤ 32 then { p with size := sizeCode n, side := BitVec.ofNat 256 (leNat bs) }
  else { p with size := sizeCode n, data := BitVec.ofNat 4096 (leNat bs) }

/-- The answer to a packet: source and destination exchanged, TID echoed, ADDR its request's (R408). -/
def Packet.reply (p : Packet) (own : DevId) (kind : PKind) : Packet :=
  { kind, size := p.size, tid := p.tid, dst := p.src, dport := p.sport, ddev := p.sdev,
    src := p.dst, sport := p.dport, sdev := own, addr := p.addr }

/-- An ERR of status `st` that answers a packet (Table 11.5). -/
def Packet.errReply (p : Packet) (own : DevId) (st : Nat) : Packet :=
  { p.reply own .err with status := BitVec.ofNat 4 st, red := decide (p.kind = .sem) }

/-- The slots of a packet: its header flit and its data flits (R396). -/
def Packet.slots (p : Packet) : List Slot :=
  .hdr { p with data := if p.flits = 0 then p.data else 0 } ::
    (List.range p.flits).map (fun i => .dat (BitVec.ofNat 512 (p.data.toNat >>> (512 * i))))

/-- A row for a core's ingress buffer (R117): every request to port 1 of a core. -/
def Packet.isRow (p : Packet) : Bool :=
  decide (p.dst.toNat < 1024) && decide (p.dport = 1)
    && (decide (p.kind = .rd) || decide (p.kind = .wr) || decide (p.kind = .msg) || decide (p.kind = .cmb))

/-- The core that a packet is for. -/
def Packet.core (p : Packet) : CoreId := BitVec.ofNat 10 p.dst.toNat

/-- Source and destination of a packet, for the log. -/
def Packet.ends (p : Packet) : List Byte :=
  lf p.sdev.toNat ++ lf p.src.toNat ++ lf p.ddev.toNat ++ lf p.dst.toNat

/-- A core of the cluster, or none of it, sent the packet. -/
def Packet.near (p : Packet) (cl : Nat) : Bool := decide (p.src.toNat < 1024) && decide (clusterOf p.src.toNat = cl)

/-- Whether a packet's address lies in a scratchpad window. -/
def Packet.toPads (p : Packet) : Bool :=
  match targetOf (localOf p.addr) with
  | .data _ _ _ _ => true | .side _ _ _ _ => true | .way _ _ => true | _ => false

/-- The stack whose command window a packet's address lies in. -/
def Packet.toWindow (p : Packet) : Option Nat :=
  match targetOf (localOf p.addr) with | .command st => some st | _ => none

/-- The semaphore unit at a packet's destination. -/
def Packet.unit (p : Packet) : Nat := clusterOf p.dst.toNat

/-- A packet that the rim unit of link port `n` sends (R409, Table 11.2). -/
def Packet.fromPort (e : Packet) (n : Nat) : Packet := { e with src := groupNode (n / 3), sport := BitVec.ofNat 3 (n % 3) }

/-- A packet stands in the receive buffer of the port that it came in by (R399): its rim unit has not forwarded it. -/
def Packet.inRx (p : Packet) : Bool := p.via.isSome && decide (p.hop = 0)

/-- The device that an answer stands for: an ERR, which another device on the way may send (R406), carries its request's address. -/
def Packet.askedDev (p : Packet) : DevId := if p.kind = .err then devOf p.addr else p.sdev

end Sys2Proof
end

