-- ==== Sys2Proof/Machine/Routes.lean ====
section
/-! DEFINITION. The rings and their routes: positions, edge nodes, rims, links, paths, region crossings and one-way latencies (R247-R252, R264, R265). -/

namespace Sys2Proof

open Sys2Proof.Machine

/-! ## Rings (R247) -/

/-- Position on a ring of the core at `x`: its column on a row ring, its row on a column ring. -/
def ringPos (x : Nat) : Nat := if x % 2 = 0 then 1 + x / 2 else 18 + (31 - x) / 2

/-- The column or row at a position; none at the edge nodes, positions 0 and 17. -/
def ringAt (p : Nat) : Option Nat :=
  if p = 0 ∨ p = 17 then none else if p < 17 then some (2 * (p - 1)) else some (31 - 2 * (p - 18))

/-- Hops between two positions of a ring. -/
def ringDist (p q : Nat) : Nat := min ((q + 34 - p) % 34) ((p + 34 - q) % 34)

/-- One link of one direction: the ring, a row's or a column's, and the position that it leaves. -/
structure RingLink where
  col  : Bool
  ring : Nat
  pos  : Nat
  up   : Bool
deriving DecidableEq, Repr

/-- The position that a link leads to. -/
def RingLink.next (l : RingLink) : Nat := if l.up then (l.pos + 1) % 34 else (l.pos + 33) % 34

/-- The link between the same neighbours in the other direction. -/
def RingLink.back (l : RingLink) : RingLink := { l with pos := l.next, up := !l.up }

/-- A link as a key of a table. -/
def RingLink.key (l : RingLink) : Nat := ((bnat l.col * 32 + l.ring) * 34 + l.pos) * 2 + bnat l.up

/-- The links from position `p` to position `q` of a ring: with increasing positions where (q - p) mod 34 is at most 17 (R250). -/
def ringLeg (col : Bool) (ring p q : Nat) : List RingLink :=
  let d := (q + 34 - p) % 34
  if d ≤ 17 then (List.range d).map (fun i => { col, ring, pos := (p + i) % 34, up := true })
  else (List.range (34 - d)).map (fun i => { col, ring, pos := (p + 34 - i) % 34, up := false })

/-! ## Rims (R248, Table 11.1) -/

/-- Where a node stands: a core by its row and column, or a unit of a rim by its number u. -/
inductive Place where
  | core (row col : Nat)
  | unit (east : Bool) (u : Nat)
deriving DecidableEq, Repr

/-- The place of a node ID. -/
def placeOf (n : NodeId) : Place :=
  if n.toNat < 1024 then .core (rowOf n.toNat) (colOf n.toNat) else .unit (n.getLsbD 4) (n.toNat % 16)

/-- The rim of a core: the east rim has RE of every row, and CN and CS of columns 16-31. -/
def eastOf (col : Nat) : Bool := decide (16 ≤ col)

/-- Position of a row ring's edge node at a rim: RW 0, RE 17. -/
def rimPos (east : Bool) : Nat := if east then 17 else 0

/-! ## Paths (R250-R252) -/

/-- The path between a core and a unit, from the core: R, or C at the core's own rim where r + c + u + a[9] is odd (R251). -/
def rimPath (row col : Nat) (east : Bool) (u : Nat) (a : FAddr) : List RingLink :=
  if east = eastOf col ∧ (row + col + u + bnat (a.getLsbD 9)) % 2 = 1 then
    ringLeg true col (ringPos row) (if row < 16 then 0 else 17)
  else ringLeg false row (ringPos col) (rimPos east)

/-- The links of a path between two places for a target address. -/
def pathOf (a : FAddr) : Place → Place → List RingLink
  | .core r c, .core r' c' => ringLeg false r (ringPos c) (ringPos c') ++ ringLeg true c' (ringPos r) (ringPos r')
  | .core r c, .unit e u => rimPath r c e u a
  | .unit e u, .core r c => ((rimPath r c e u a).map RingLink.back).reverse
  | .unit e u, .unit e' u' =>
    if e = e' then []
    else ringLeg false ((bitsOf a.toNat 13 9 ^^^ u ^^^ u') % 32) (rimPos e) (rimPos e')

/-- Whether a packet answers another. -/
def Packet.isAnswer (p : Packet) : Bool :=
  match p.kind with
  | .rdr => true | .wack => true | .err => true | .sack => true | _ => false

/-- Where a packet starts on this die: at its source, or at the rim unit of the port it came in by (R409). -/
def Packet.entry (p : Packet) : Place := placeOf (match p.via with | some n => groupNode (n / 3) | none => p.src)

/-- Where its way on this die ends: at its destination, or at the rim unit of the port it leaves by (R408). -/
def Packet.exit (p : Packet) : Place := placeOf (match p.out with | some n => groupNode (n / 3) | none => p.dst)

/-- The address that a packet's paths use: one without a target address uses 0 (R251). -/
def Packet.pathAddr (p : Packet) : FAddr := if p.kind = .crd ∨ p.kind = .ctl then 0 else p.addr

/-- The links that a packet takes; one without a target address uses a = 0 (R251), and an answer between units of two rims takes the mirror of its request's path. [DEDUCED, log entry 142: unsafe] -/
def Packet.route (p : Packet) : List RingLink :=
  let a := p.pathAddr
  match p.entry, p.exit with
  | .unit e u, .unit e' u' =>
    if p.isAnswer then ((pathOf a (.unit e' u') (.unit e u)).map RingLink.back).reverse else pathOf a (.unit e u) (.unit e' u')
  | x, y => pathOf a x y

/-- The next link of a packet: none in the router of its destination. -/
def Packet.link (p : Packet) : Option RingLink := p.route[p.hop]?

/-- The link whose far end holds the packet: none in its injection queue. -/
def Packet.behind (p : Packet) : Option RingLink := if p.hop = 0 then none else p.route[p.hop - 1]?

/-- Taking link `i` of a path, a packet enters a ring: by injection, from the rim, or by the turn (R256). -/
def entersRing (ls : List RingLink) (i : Nat) : Bool :=
  match i, ls[i]? with
  | 0, _ => true
  | j + 1, some l => match ls[j]? with | some m => decide (m.col ≠ l.col) | none => true
  | _, none => false

/-- The packet's next link enters a ring. -/
def Packet.entering (p : Packet) : Bool := entersRing p.route p.hop

/-! ## Crossings and latency (R264, R265) -/

/-- The compute region of a node of a ring; none of an edge node. -/
def RingLink.regionAt (l : RingLink) (pos : Nat) : Option Nat :=
  (ringAt pos).map (fun x => regionOf (if l.col then x * 32 + l.ring else l.ring * 32 + x))

/-- The compute regions of a link's two nodes. -/
def RingLink.regions (l : RingLink) : List Nat := ((l.regionAt l.pos).toList ++ (l.regionAt l.next).toList)

/-- A link crosses a region boundary where its two nodes lie in different compute regions. -/
def RingLink.crosses (l : RingLink) : Bool :=
  match l.regionAt l.pos, l.regionAt l.next with
  | some a, some b => decide (a ≠ b)
  | _, _ => false

/-- Latency of a crossing by the mode of R19. -/
def crossCc (async : Bool) : Nat := if async then 4 else 1

/-- Latency of one link: a hop, and its crossing (Table 11.6). -/
def RingLink.cc (l : RingLink) (async : Bool) : Nat := 2 + if l.crosses then crossCc async else 0

/-- One-way latency between two places for a target address, with no wait (Table 11.6). -/
def oneWay (async : Bool) (a : FAddr) (x y : Place) : Nat :=
  let ls := pathOf a x y
  let ring := (ls.map (fun l => l.cc async)).sum + (List.range ls.length).countP (fun i => decide (i ≠ 0) && entersRing ls i)
  match x, y with
  | .unit _ _, .unit _ _ => if ls.isEmpty then 4 else 12 + ring
  | .core _ _, .core _ _ => 2 + ring
  | _, _ => 7 + ring

/-- Round trip between a core and a unit (Table 10.10): the response takes the mirror path. -/
def roundTrip (async : Bool) (a : FAddr) (x y : Place) : Nat := 2 * oneWay async a x y

/-! ## On the way (R256, R257, R259, R261) -/

/-- What the order flag does not wait for: reduce-flagged contributions, credit returns and control signals. -/
def Packet.unordered (q : Packet) : Bool :=
  (decide (q.kind = .cmb) && q.red) || decide (q.kind = .crd) || decide (q.kind = .ctl)

/-- A packet that injects or turns and has waited 64 cc. -/
def Packet.starved (p : Packet) : Bool := p.entering && decide (64 ≤ p.wait)

/-- Order of grants of one link: VC0, VC2, VC1, and in each the starved, the travelling, the injecting and turning packets. -/
def Packet.rank (p : Packet) : Nat :=
  (match p.vc with | 0 => 0 | 2 => 3 | _ => 6) + if p.starved then 0 else if p.entering then 2 else 1

/-- A packet after its next link `l`, granted at DEVT `now`. -/
def Packet.hopped (p : Packet) (l : RingLink) (async : Bool) (now : Nat) : Packet :=
  let n := p.hop + 1
  let last := decide (p.route.length ≤ n)
  let more := if last then (match p.exit with | .core _ _ => 1 | .unit _ _ => 6) else bnat (entersRing p.route n)
  { p with hop := n, wait := 0, ready := now + l.cc async + more }

/-- A packet's first cycle in its injection queue: the port of a core takes 1 cc, the way from a unit to an edge node 6, to a unit of its rim 4 (Table 11.6). -/
def Packet.noticed (p : Packet) (now : Nat) : Packet :=
  if p.hop = 0 ∧ p.ready = 0 then
    { p with ready := now + (match p.entry with | .core _ _ => 1 | .unit _ _ => if p.route.isEmpty then 4 else 6) }
  else p

/-- A cycle of waiting to inject or to turn. -/
def Packet.waited (p : Packet) (now : Nat) : Packet :=
  if p.ready ≠ 0 ∧ p.ready ≤ now ∧ p.link.isSome ∧ p.entering then { p with wait := p.wait + 1 } else p

/-- `p` holds an input buffer that can merge: of a router on a ring or at a turn, or of an edge node; a core's injection queue, the buffer of a link port and a destination's ingress buffer cannot (R261, R410). -/
def Packet.inBuffer (p : Packet) : Bool := decide (p.hop ≠ 0) || (p.via.isNone && (match p.entry with | .unit _ _ => p.link.isSome | .core _ _ => false))

end Sys2Proof
end

