-- ==== Sys2Proof/Machine/Ops.lean ====
section
/-! DEFINITION. The shared operations of the machine: access to units, counters and log, stack memory, packets and links, device transitions, and taking an exception. -/

namespace Sys2Proof.Machine

/-! ## Access to units -/

/-- The state of core `c`. [DEDUCED, log entry 132: safe] -/
def State.core (s : State) (c : CoreId) : Core := Table.get Core.reset s.cores c.toNat
/-- `s` with core `c` replaced. -/
def State.setCore (s : State) (c : CoreId) (v : Core) : State := { s with cores := Table.put s.cores c.toNat v }
/-- `s` with core `c` changed by `f`. -/
def State.modCore (s : State) (c : CoreId) (f : Core → Core) : State := s.setCore c (f (s.core c))
/-- The state of cluster `i`. -/
def State.clu (s : State) (i : Nat) : Cluster := Table.get Cluster.reset s.clus i
/-- `s` with cluster `i` replaced. -/
def State.setClu (s : State) (i : Nat) (v : Cluster) : State := { s with clus := Table.put s.clus i v }
/-- `s` with the synchronisation unit of cluster `i` changed. -/
def State.modSync (s : State) (i : Nat) (f : Sync → Sync) : State :=
  s.setClu i { s.clu i with sync := f (s.clu i).sync }
/-- Channel `ch` of cluster `i`. -/
def State.chan (s : State) (i ch : Nat) : Chan := Table.get {} (s.clu i).chans ch
/-- `s` with channel `ch` of cluster `i` replaced. -/
def State.setChan (s : State) (i ch : Nat) (v : Chan) : State :=
  s.setClu i { s.clu i with chans := Table.put (s.clu i).chans ch v }
/-- Stack `i`. -/
def State.stack (s : State) (i : Nat) : Stack := Table.get Stack.reset s.stks i
/-- `s` with stack `i` replaced. -/
def State.setStack (s : State) (i : Nat) (v : Stack) : State := { s with stks := Table.put s.stks i v }
/-- Link port `i`. -/
def State.port (s : State) (i : Nat) : Port := Table.get {} s.links.ports i
/-- `s` with link port `i` replaced. -/
def State.setPort (s : State) (i : Nat) (v : Port) : State :=
  { s with links := { s.links with ports := Table.put s.links.ports i v } }

/-- This device's ID (R402). -/
def State.own (s : State) : DevId := s.links.devId

/-- Device ID 0x3FF names the requesting device itself (R229). -/
def State.resolveDev (s : State) (d : DevId) : DevId := if d = 0x3FF then s.own else d

/-- A region that exists on this device and is powered (R4, R474). -/
def State.regionOn (s : State) (r : Nat) : Bool := s.dev.map.getLsbD r && s.dev.powered.getLsbD r
/-- A core of an enabled region. -/
def State.coreOn (s : State) (c : Nat) : Bool := s.regionOn (regionOf c)
/-- A cluster of an enabled region. -/
def State.cluOn (s : State) (cl : Nat) : Bool := s.regionOn (regionOfCluster cl)

/-! ## Counters and log -/

/-- Adds `n` to the dictionary counter `index:sub`, modulo 2^64. [DEDUCED, log entry 29: unsafe] -/
def State.countN (s : State) (index sub n : Nat) : State :=
  { s with cnt := Table.put s.cnt (index * 256 + sub) ((Table.get 0 s.cnt (index * 256 + sub) + n) % 2 ^ 64) }
/-- Adds 1 to the dictionary counter `index:sub`. -/
def State.count (s : State) (index sub : Nat) : State := s.countN index sub 1

/-- Entries of a record whose event has `n` field bytes (R483). -/
def logEntries (n : Nat) : Nat := 1 + (n - 8 + 23) / 24

/-- Log entries that wait for flash (R484). -/
def Log.waiting (l : Log) : Nat :=
  (l.recs.filter (fun r => !r.flash)).foldl (fun a r => a + logEntries r.fields.length) 0

/-- Attention events that no ATTN_ACK has covered (R428). -/
def Log.attn (l : Log) : Nat := l.recs.foldl (fun a r => a + r.una) 0 + l.gone.foldl (fun a g => a + g.2) 0

/-- Head SEQ of the last record (R483, R484). -/
def Log.lastHead (l : Log) : Nat := match l.recs.getLast? with | some r => r.seq | none => l.nextSeq - 1

/-- Folds an event into the newest waiting record of its code (R484); `none` where there is none. [DEDUCED, log entry 112: unsafe] -/
def foldInto (code : BitVec 16) (att : Bool) : List LogRec → Option (List LogRec)
  | [] => none
  | r :: rs =>
    match foldInto code att rs with
    | some rs' => some (r :: rs')
    | none =>
      if r.code = code ∧ r.flash = false ∧ r.chain = false then
        some ({ r with rep := min (r.rep + 1) 0xFFFF, una := r.una + bnat att } :: rs)
      else none

/-- Splits field bytes into pieces of at most 80 (R483); `fuel` bounds the pieces. -/
def logPieces : Nat → List Byte → List (List Byte)
  | 0, bs => [bs]
  | fuel + 1, bs => if bs.length ≤ 80 then [bs] else bs.take 80 :: logPieces fuel (bs.drop 80)

/-- Appends the records of one event: a chain where there is more than one piece (R483). -/
def logAppend (code : BitVec 16) (att : Bool) (tus : Nat) (beat : Word) (chain : Bool) : List (List Byte) → Log → Log
  | [], l => l
  | p :: ps, l =>
    let r : LogRec := { seq := l.nextSeq, tus, code, beat, att, fields := p, rep := 0, una := bnat att, more := !ps.isEmpty, chain, flash := false }
    logAppend code false tus beat chain ps
      { l with recs := l.recs ++ [r], nextSeq := l.nextSeq + logEntries p.length }

/-- Logs an event with its field bytes; `att` marks it as attention, which raises Croak (R428, R484). -/
def State.logEv (s : State) (code : Nat) (att : Bool) (fields : List Byte) : State :=
  let l := s.log
  let tus := s.beat.devt.toNat / 2250
  let beat := s.beat.bcnt.setWidth 32
  let ps := logPieces (fields.length / 80) fields
  let need := ps.foldl (fun a p => a + logEntries p.length) 0
  match (if 4096 < l.waiting then foldInto (BitVec.ofNat 16 code) att l.recs else none) with
  | some rs => { s with log := { l with recs := rs } }.count 0x8001 1
  | none =>
    if 8192 < l.waiting + need then
      { s with log := { l with lost := l.lost + 1,
                               lostSeq := if l.lost = 0 then l.lastHead else l.lostSeq,
                               lostBeat := if l.lost = 0 then beat else l.lostBeat } }.count 0x8001 2
    else
      { s with log := logAppend (BitVec.ofNat 16 code) att tus beat (1 < ps.length) ps l }

/-- Draws the index of a fresh free value. -/
def State.draw (s : State) : State × Nat := ({ s with free := s.free + 1 }, s.free)

/-! ## Stack memory (R224-R240) -/

/-- The byte of stack memory at a key. -/
def State.memByte (s : State) (key : Nat) : Byte := Table.get 0 s.mem key

/-- `n` bytes of stack memory from a key on. -/
def State.memRead (s : State) (key : Nat) : Nat → List Byte
  | 0 => []
  | n + 1 => s.memByte key :: s.memRead (key + 1) n

/-- Bytes into a memory list, in its canonical form. -/
def memPut (m : List Host.Cell) (key : Nat) : List Byte → List Host.Cell
  | [] => m
  | b :: bs => memPut (Table.putc 0 m key b) (key + 1) bs

/-- `s` with bytes written to stack memory from a key on. -/
def State.memWrite (s : State) (key : Nat) (bs : List Byte) : State := { s with mem := memPut s.mem key bs }

/-- Whether a burst is one of those that `n` bytes from a key touch. -/
def touches (key n b : Nat) : Bool := decide (n ≠ 0) && decide (key / 64 ≤ b) && decide (b ≤ (key + n - 1) / 64)

/-- Whether a burst that `n` bytes from a key touch is uncorrectable (R225). -/
def State.memBad (s : State) (key n : Nat) : Bool := s.badMem.any (touches key n)

/-- The bursts that `n` bytes from a key touch are good again: they have been written whole. -/
def State.cleanBursts (s : State) (key n : Nat) : State :=
  { s with badMem := s.badMem.filter (fun b => !touches key n b), softMem := s.softMem.filter (fun b => !touches key n b) }

/-- Key of a local memory-class address, where it is one. -/
def keyOfLocal (a : Nat) : Option Nat :=
  match targetOf a with
  | .mem st sa => some (memKey st sa)
  | _ => none

/-- `n` bytes at a memory-class local address, each byte mapped on its own (a range may cross granules). -/
def State.localRead (s : State) (a : Nat) : Nat → List Byte
  | 0 => []
  | n + 1 => (match keyOfLocal a with | some k => s.memByte k | none => 0) :: s.localRead (a + 1) n

/-- Bytes written at a memory-class local address, each byte mapped on its own. -/
def State.localWrite (s : State) (a : Nat) : List Byte → State
  | [] => s
  | b :: bs =>
    (match keyOfLocal a with
     | some k => { s with mem := Table.putc 0 s.mem k b }
     | none => s).localWrite (a + 1) bs

/-- Whether any of `n` bytes at a local address lies in an uncorrectable burst. -/
def State.localBad (s : State) (a : Nat) : Nat → Bool
  | 0 => false
  | n + 1 => (match keyOfLocal a with | some k => s.badMem.contains (k / 64) | none => false) || s.localBad (a + 1) n

/-! ## Settings of the dictionary -/

/-- The value last written to an RW or RWP entry, or its default, as a number. -/
def State.setting (s : State) (index sub dflt : Nat) : Nat :=
  match Table.look s.mgmt.vals (index * 256 + sub) with
  | some bs => leNat bs
  | none => dflt

/-- The value that an RWP entry had at the last start, for the entries that take effect then (R442). -/
def State.bootSetting (s : State) (index sub dflt : Nat) : Nat :=
  match Table.look s.mgmt.boot (index * 256 + sub) with
  | some bs => leNat bs
  | none => dflt

/-! ## What memory reads find (R225, R242) -/

/-- Channel and channel granule of a stack address (R240). -/
def chanOfSa (sa : Nat) : Nat × Nat :=
  let w := sa / 2 ^ 14
  ((sa / 512 % 32) ^^^ fold5 w, w)

/-- An uncorrectable event of a stack: counted, logged with stack, channel and granule, Croak (R225). [DESIGN CHOICE, log entry 134: unsafe] -/
def State.memEvent (s : State) (st sa : Nat) : State :=
  let (c, w) := chanOfSa sa
  (s.count 0x3003 (st + 1)).logEv 0x0C01 true (lf st ++ lf c ++ lf w)

/-- Whether a burst that `n` bytes from a key touch is corrected by the read (R225). -/
def State.memSoft (s : State) (key n : Nat) : Bool := s.softMem.any (touches key n)

/-- A die-side granule is counted for its channel while the imbalance monitor is enabled (R242). -/
def State.dieSide (s : State) (st sa : Nat) : State :=
  let i := st * 32 + (chanOfSa sa).1
  if s.setting 0x3010 1 1 = 0 then s
  else { s with imb := { s.imb with n := Table.put s.imb.n i (Table.get 0 s.imb.n i + 1) } }

/-- A read of bytes of one granule, at a stack's controller, reports what the check symbols show (R225): an uncorrectable burst is an event, else a corrected one is counted. -/
def State.granuleRead (s : State) (st sa n : Nat) : State :=
  let key := memKey st sa
  if s.memBad key n then s.memEvent st sa
  else if s.memSoft key n then s.count 0x3002 (st + 1)
  else s

/-- The parts of the range of `n` bytes from `a` in each granule: start and length. -/
def granules (a n : Nat) : List (Nat × Nat) :=
  if n = 0 then []
  else (List.range ((a % 512 + n + 511) / 512)).map (fun i =>
    let lo := max a (a / 512 * 512 + 512 * i)
    (lo, min (a + n) (a / 512 * 512 + 512 * (i + 1)) - lo))

/-- An engine's own read of a range of its stack reports what it finds (R225). -/
def State.engineRead (s : State) (st sa n : Nat) : State :=
  (granules sa n).foldl (fun s x => s.granuleRead st x.1 x.2) s

/-- A die-side read of a range of local addresses: its granules are counted (R242), and report what they find (R225). -/
def State.localSee (s : State) (a n : Nat) : State :=
  (granules a n).foldl (fun s x => match targetOf x.1 with
    | .mem st sa => (s.dieSide st sa).granuleRead st sa x.2
    | _ => s) s

/-! ## Packets (chapter 11) -/

/-- The port a packet for another device leaves through, where one is usable, and the port that its entry names for it (R407, R408); the entries of 0x3FF and of this device are ignored. -/
def State.portFor (s : State) (p : Packet) : Option Nat × Nat :=
  let e := Table.get 0 s.links.routes p.ddev.toNat
  let n : NodeId := if p.isAnswer then p.dst else p.src
  let i := n.getLsbD 0 != p.addr.getLsbD 9
  let p0 := bitsOf e.toNat 4 0
  let p1 := bitsOf e.toNat 12 8
  let (a, b) := if i then (p1, p0) else (p0, p1)
  if e.getLsbD 31 = false ∨ s.own = 0x3FF ∨ p.ddev = 0x3FF ∨ p.ddev = s.own then (none, a)
  else if (s.port a).st = .active then (some a, a)
  else if (s.port b).st = .active then (some b, a)
  else (none, a)

/-- Flits of a packet freed in the receive buffer of its channel (R399). -/
def Port.freeFlits (t : Port) (p : Packet) : Port :=
  let n := BitVec.ofNat 16 (p.flits + 1)
  match p.vc with
  | 0 => { t with cr0 := t.cr0 + n }
  | 1 => { t with cr1 := t.cr1 + n }
  | _ => { t with cr2 := t.cr2 + n }

/-- A packet leaves the receive buffer in which it stands, and its flits return as credits (R399). -/
def State.freeRx (s : State) (p : Packet) : State :=
  match p.via with
  | some n => if p.hop = 0 then s.setPort n ((s.port n).freeFlits p) else s
  | none => s

/-- A packet dropped under R406: counted at a port, logged, Croak. [DEDUCED, log entry 143: unsafe] -/
def State.drop406 (s : State) (n : Nat) (p : Packet) : State :=
  (s.count (0x5100 + n) 0x0B).logEv 0x0E02 true (lf p.src.toNat ++ lf p.ddev.toNat)

/-- A request to another device is no longer outstanding (R259). -/
def State.unasked (s : State) (src : NodeId) (sport : BitVec 3) (ddev : DevId) (tid : BitVec 12) : State :=
  { s with links := { s.links with asked := s.links.asked.filter (fun q =>
      !(decide (q.src = src) && decide (q.sport = sport) && decide (q.ddev = ddev) && decide (q.tid = tid))) } }

/-- What R406 does with a packet that port `n`, or the injection point for which its entry names port `n`, discards: a request is answered with status 0x1 by the port's rim unit or the injection point, which for a forwarded packet is the rim unit that it came in by, and anything else is dropped. -/
def State.discard406 (s : State) (atPort : Bool) (n : Nat) (p : Packet) : State :=
  let s := s.drop406 n p
  if p.answered then
    let s := s.unasked p.src p.sport p.ddev p.tid
    let e := p.bare.errReply s.own 1
    let e := if atPort then e.fromPort n else match p.via with | some m => e.fromPort m | none => { e with src := p.src, sport := p.sport }
    if e.ddev = s.own then { s with net := s.net ++ [e] }
    else match s.portFor e with
      | (some m, _) => { s with net := s.net ++ [{ e with out := some m }] }
      | (none, m) => s.drop406 m e
  else s

/-- A packet enters the fabric: for this device, or, for another, on its way to the port that its injection point chooses (R407, R408). -/
def State.inject (s : State) (p : Packet) : State :=
  if p.ddev = s.own then { s with net := s.net ++ [p] }
  else match s.portFor p with
    | (some n, _) => { s with net := s.net ++ [{ p with out := some n }] }
    | (none, n) => s.discard406 false n p

/-- Several packets enter the fabric in order. -/
def State.injectAll (s : State) : List Packet → State
  | [] => s
  | p :: ps => (s.inject p).injectAll ps

/-- The effective address with the requester's own ID in place of 0x3FF (R229). -/
def State.resolve (s : State) (a : Nat) : FAddr := mkFAddr (s.resolveDev (BitVec.ofNat 10 (a >>> 46))) (a % 2 ^ 46)

/-- A packet from a node and port to a fabric address (Table 11.2). -/
def State.mkPkt (s : State) (kind : PKind) (src : NodeId) (sport : BitVec 3) (tid : BitVec 12) (a : FAddr) : Packet :=
  let d := s.resolveDev (devOf a)
  let dest := (targetOf (localOf a)).dest
  { kind, src, sport, sdev := s.own, tid, dst := dest.1, dport := dest.2, ddev := d, addr := mkFAddr d (localOf a) }

/-- A CTL packet from the beat unit's sources (R360); stall signalling carries its source in the operation words. -/
def ctlPkt (s : State) (src : NodeId) (op6 op7 : Word) : Packet :=
  { kind := .ctl, src, sport := 3, sdev := s.own, dst := mgmtNode, dport := 0, ddev := s.own, op6, op7 }

/-! ## Beat unit: freeze (R358-R362) -/

/-- The count of requests in force that are not masked (R362). -/
def Beat.inForce (b : Beat) : Nat := b.reqs.length

/-- The count has fallen to 0: a named freeze is dropped, a freeze in force gets a resume cycle (R360). -/
def Beat.noRequests (b : Beat) : Beat :=
  if b.frz then
    { b with resumeAt := match b.resumeAt with | some t => some t | none => some (b.devt.toNat + 64) }
  else { b with freezeAt := none }

/-- The count has risen from 0: the freeze cycle is named while STEN = 1; a named resume is cancelled (R360). -/
def Beat.someRequest (b : Beat) : Beat :=
  let b := { b with resumeAt := if b.sten then none else b.resumeAt }
  if b.sten && !b.frz && b.freezeAt.isNone then { b with freezeAt := some (b.devt.toNat + 64) } else b

/-- A write of STEN (R358). -/
def Beat.setSten (b : Beat) (v : Bool) : Beat :=
  if v then
    let b' := { b with sten := true }
    if !b.sten && b.reqs.length ≠ 0 then b'.someRequest else b'
  else
    let b' := { b with sten := false }
    if b.sten then b'.noRequests else b'

/-! ## Stopping cores and aborting channels -/

/-- STOP takes effect at a boundary of the core (R379). -/
def RunCtl.stopAt (r : RunCtl) (pc : PAddr) : RunCtl :=
  { r with st := .stopped, spc := pc, hold := .none, wait := .none, held := 0, stopRq := false }

/-- A response hold ends: its stall request is withdrawn (R358). [DEDUCED, log entry 13: unsafe] -/
def State.endHold (s : State) (c : CoreId) : State :=
  let k := s.core c
  if k.run.stall then
    let s := s.setCore c { k with run := { k.run with stall := false } }
    s.inject (ctlPkt s (BitVec.ofNat 11 c.toNat) (BitVec.ofNat 32 (2 * 2 ^ 28 + 1 * 2 ^ 16 + c.toNat)) 0)
  else s

/-- The tile of a number. -/
def Matrix.tile (m : Matrix) (t : TileId) : Tile :=
  match t.toNat with | 0 => m.fa0 | 1 => m.fa1 | 2 => m.ba0 | _ => m.ba1

/-- The matrix state with a tile replaced. -/
def Matrix.setTile (m : Matrix) (t : TileId) (v : Tile) : Matrix :=
  match t.toNat with
  | 0 => { m with fa0 := v } | 1 => { m with fa1 := v } | 2 => { m with ba0 := v } | _ => { m with ba1 := v }

/-- Changes one tile of a core. -/
def Core.modTile (k : Core) (t : TileId) (f : Tile → Tile) : Core :=
  { k with mat := k.mat.setTile t (f (k.mat.tile t)) }

/-- Transfer rows of a tile (R148). -/
def tileRows (t : TileId) : Nat := if t.toNat < 2 then 4 else 8

/-- A multi-row instruction ends at a row boundary: its tile is in use, and SROW names the first pass or row not requested (R96). -/
def Core.rowBoundary (k : Core) (tile : TileId) (next : Nat) : Core :=
  k.modTile tile (fun t => { t with inuse := true, srow := BitVec.ofNat 16 next })

/-- A tile transfer is at a row boundary (R96): it has rows to request, and nothing keeps it from requesting them. -/
def TileMove.mayCut (m : TileMove) : Bool :=
  decide (m.next < tileRows m.tile) && m.fail.isNone && decide (m.cut = .none)

/-- The cancel of a swait that holds issue (R309). -/
def cancelPkt (s : State) (c : CoreId) (tid : BitVec 12) (snw : Word) : Packet :=
  { s.mkPkt .sem (BitVec.ofNat 11 c.toNat) 0 tid (mkFAddr s.own (semAddr (bitsOf snw.toNat 31 22) (bitsOf snw.toNat 21 16)))
      with op6 := BitVec.ofNat 32 (5 <<< 28 ||| kOf (bitsOf snw.toNat 31 22) <<< 24 ||| bitsOf snw.toNat 21 16 <<< 18) }

/-- A core, its cell `k`, stops with SPC = `pc` (R379). -/
def State.stopNow (s : State) (c : CoreId) (k : Core) (pc : PAddr) : State := (s.setCore c { k with run := k.run.stopAt pc }).endHold c

/-- A STOP that waits takes effect once it can (R379): not in an entry sequence, nor before an event that R90 takes first, nor in a device-wide stall; at an instruction boundary, or at a row boundary, where INUSE and SROW are as R96 states. A waiting swait is cancelled first (R309). -/
def State.settleStop (s : State) (c : CoreId) : State :=
  let k := s.core c
  if k.run.stopRq ∧ k.run.st = .running ∧ k.run.saving = [] ∧ k.run.due = none ∧ s.beat.frz = false then
    match k.run.hold with
    | .none => s.stopNow c k k.cpu.pc
    | .mm tile _ _ _ _ next _ pc => s.stopNow c (k.rowBoundary tile next) pc
    | .rows m =>
      if m.mayCut then
        if m.left = 0 then s.stopNow c (k.rowBoundary m.tile m.next) m.pc
        else s.setCore c { k with run := { k.run with hold := .rows { m with cut := .stop } } }
      else s
    | .sem tid snw wait cancel pc =>
      if wait && !cancel then
        (s.setCore c { k with run := { k.run with hold := .sem tid snw wait true pc } }).inject (cancelPkt s c tid snw)
      else s
    | .trap _ => s
    | .done _ _ => s
  else s

/-- STOP (R379): a running core stops at its next instruction or row boundary. -/
def State.stopReq (s : State) (c : CoreId) : State :=
  if (s.core c).run.st = .running then
    (s.modCore c (fun k => { k with run := { k.run with stopRq := true } })).settleStop c
  else s

/-- STOP to every core that a table lists. -/
def State.stopAll (s : State) : State :=
  s.cores.foldl (fun s kv => s.stopReq (BitVec.ofNat 10 kv.1)) s

/-- Block number of an instruction, counted from the block that holds instruction 0. -/
def Chan.blockOf (h : Chan) (i : Nat) : Nat := (h.prog.toNat + 32 * i) / 512 - h.prog.toNat / 512
/-- The 32 bytes of the instruction at IPC, where its block is held. -/
def Chan.instr (h : Chan) : Option (BitVec 256) :=
  match Table.look h.blocks (h.blockOf h.ipc.toNat) with
  | some b => some (BitVec.ofNat 256 (b.toNat >>> (8 * ((h.prog.toNat + 32 * h.ipc.toNat) % 512))))
  | none => none

/-- Opcode. -/
def gOp (w : BitVec 256) : Nat := bitsOf w.toNat 31 28
/-- The channel is in a CSUM or SIGNAL: the reads of its MOVEs have issued, and such an instruction has been decoded (R344, R345). -/
def Chan.inLast (h : Chan) : Bool :=
  h.moves.all (fun m => decide (m.reqd = m.len)) && (match h.instr with | some w => gOp w == 5 || gOp w == 6 | none => false)

/-- Where writing stops under an abort: the end of the oldest burst whose writes have not all been issued, bursts ending at 4 KiB-aligned destination addresses (R344). -/
def MoveSt.burstEnd (m : MoveSt) : Nat := min m.len (((m.dst + m.wrtn) / 4096 + 1) * 4096 - m.dst)

/-- A MOVE with no byte after its current burst (R344). -/
def MoveSt.cut (m : MoveSt) : MoveSt := { m with len := m.burstEnd, reqd := min m.reqd m.burstEnd }

/-- What an aborted channel still moves: its current burst, or, in a CSUM or SIGNAL, every MOVE that it waits for (R344). -/
def Chan.aborted (h : Chan) : Chan :=
  if h.abort then h
  else if h.inLast then { h with abort := true, last := true }
  else { h with abort := true, last := false, moves := (h.moves.find? (fun m => decide (m.wrtn < m.len))).toList.map MoveSt.cut }

/-- An abort request to a channel (R344). [DEDUCED, log entry 162: unsafe] -/
def State.abortChan (s : State) (cl ch : Nat) : State :=
  let v := s.chan cl ch
  match v.st with
  | .queued =>
    let s := s.setChan cl ch { v with st := .aborted }
    s.setClu cl { s.clu cl with queue := (s.clu cl).queue.filter (· ≠ BitVec.ofNat 3 ch) }
  | .run => s.setChan cl ch v.aborted
  | .wait =>
    let s := s.setChan cl ch { v with abort := true }
    match v.waitP with
    | some p =>
      if v.abort then s
      else s.inject { p with op6 := BitVec.ofNat 32 (5 * 2 ^ 28 + bitsOf p.op6.toNat 27 0), op7 := 0 }
    | none => s
  | _ => s

/-- DIS = 1 on a channel: an abort of any run in progress, and refusal of later starts (Table 14.2). -/
def State.disableChan (s : State) (cl ch : Nat) : State :=
  let s := s.setChan cl ch { s.chan cl ch with dis := true }
  s.abortChan cl ch

/-! ## Device states (R449, R452) -/

/-- Code of a device state (Table 19.6). -/
def DevSt.code : DevSt → Nat
  | .off => 0 | .tadpole => 1 | .preop => 2 | .ready => 3 | .run => 4 | .hold => 5 | .axolotl => 6 | .fault => 7

/-- A transition, logged; entry to HOLD, AXOLOTL or FAULT raises Croak (R449). -/
def State.toState (s : State) (t : DevSt) (cause : Nat) : State :=
  if s.dev.st = t then s
  else
    let att := match t with | .hold => true | .axolotl => true | .fault => true | _ => false
    let old := s.dev.st
    let s := { s with dev := { s.dev with st := t, prev := old, lastB := s.beat.bcnt } }
    s.logEv 0x1201 att (lf old.code ++ lf t.code ++ lf cause ++ lf s.beat.bcnt.toNat)

/-- Numbers of a list of naturals below `n`, for the loops over units. -/
def forN (n : Nat) (f : State → Nat → State) (s : State) : State := (List.range n).foldl f s

/-- The device enters FAULT (R452): first cause recorded, cores stopped, STEN cleared, DMA channels disabled, Newt queues halted, pulls and retirement off. -/
def State.deviceFault (s : State) (cause : Nat) : State :=
  if s.dev.st = .off then s
  else
    let s := { s with dev := { s.dev with cause := if s.dev.cause = 0 then BitVec.ofNat 8 cause else s.dev.cause } }
    if s.dev.st = .fault then s
    else
      let s := s.toState .fault cause
      let s := s.stopAll
      let s := { s with beat := s.beat.setSten false }
      let s := forN 64 (fun s cl => forN 8 (fun s ch => s.disableChan cl ch) s) s
      let s := forN 8 (fun s i => s.setStack i { s.stack i with haltq := true }) s
      { s with host := { s.host with slIn := false, slRt := false } }

/-- A core stops under R109: it keeps its state; the stop is logged, raises Croak and moves the device to FAULT. -/
def State.coreStop (s : State) (c : CoreId) (pc : PAddr) : State :=
  let s := s.modCore c (fun k => { k with run := { k.run with st := .failed, spc := pc, hold := .none, wait := .none, held := 0, saving := [], due := none } })
  (s.logEv 0x0101 true (lf c.toNat)).deviceFault 1

/-! ## Cache invalidation (R132) -/

/-- Drops one line from the cache and the side buffer and marks a fill in flight for it (R132). -/
def Lsu.dropLine (l : Lsu) (line : BitVec 50) : Lsu :=
  { l with lines := l.lines.filter (fun e => e.2.1 ≠ line),
           side := l.side.filter (fun e => e.1 ≠ line),
           fills := l.fills.map (fun f => if f.line = line then { f with dropped := true } else f) }

/-- Drops `n` consecutive lines. -/
def Lsu.dropLines (l : Lsu) (line : BitVec 50) : Nat → Lsu
  | 0 => l
  | n + 1 => (l.dropLine line).dropLines (line + 1) n

/-- Drops every line and every side-buffer entry, and marks every fill (R132). -/
def Lsu.dropAll (l : Lsu) : Lsu :=
  { l with lines := [], side := [], fills := l.fills.map (fun f => { f with dropped := true }) }

/-- Line number of a fabric address, bits [55:6]. -/
def lineOf (a : FAddr) : BitVec 50 := BitVec.ofNat 50 (a.toNat / 64)

/-! ## Entry: taking an exception (R86, R101, R108, R109) -/

/-- The CAUSE word (Table 4.9). -/
def Cause.word (e : Cause) (more : Bool) (escr : Nat) : Word :=
  BitVec.ofNat 32 (e.kind % 4 * 2 ^ 30 + e.vec % 256 * 2 ^ 16 + e.sub % 256 * 2 ^ 8 + bnat e.imp * 2 ^ 7
    + bnat more * 2 ^ 6 + bnat e.row * 2 ^ 5 + e.tile % 4 * 2 ^ 3 + escr % 8)

/-- CSR as read (Table 3.11). -/
def Cpu.csr (u : Cpu) : Word := BitVec.ofNat 32 (bnat u.sup * 2 ^ 31 + bnat u.rso * 2 ^ 8 + bnat u.ie)
/-- RSP as read (Table 3.9). -/
def Cpu.rsp (u : Cpu) : Word := BitVec.ofNat 32 (u.depth.toNat * 16 + u.top.toNat)

/-- A tile's in-use flag and start-row as the block holds them (Table 4.8). -/
def Tile.saved (t : Tile) : Nat := bnat t.inuse * 2 ^ 31 + t.srow.toNat

/-- The 256 bytes of a task-state block or escalation frame (Table 4.8). -/
def blockBytes (k : Core) (e : Cause) (escr : Nat) : List Byte :=
  let u := k.cpu
  leBytes 4 (e.word k.run.more escr).toNat ++ leBytes 4 e.pc.toNat ++ leBytes 4 u.csr.toNat ++ leBytes 4 u.rsp.toNat
    ++ (List.range 8).flatMap (fun i => leBytes 2 (Table.get 0 u.rstack i).toNat)
    ++ leBytes 8 e.faddr.toNat ++ leBytes 4 e.fpc.toNat ++ leBytes 4 e.info
    ++ leBytes 4 u.lc0.toNat ++ leBytes 4 u.lc1.toNat
    ++ leBytes 2 u.ls0.toNat ++ leBytes 2 u.le0.toNat ++ leBytes 2 u.ls1.toNat ++ leBytes 2 u.le1.toNat
    ++ (List.range 15).flatMap (fun i => leBytes 4 (Table.get 0 u.regs (i + 1)).toNat)
    ++ leBytes 4 0
    ++ leBytes 4 k.mat.fa0.saved ++ leBytes 4 k.mat.fa1.saved ++ leBytes 4 k.mat.ba0.saved ++ leBytes 4 k.mat.ba1.saved
    ++ leBytes 112 0

/-- The four 64-byte save writes of an entry, uncached on VC1 with the order flag (Table 4.10). -/
def savePkts (s : State) (c : CoreId) (tid : BitVec 12) (addr : Nat) (bs : List Byte) : List Packet :=
  (List.range 4).map (fun i =>
    { ({ s.mkPkt .wr (BitVec.ofNat 11 c.toNat) 0 (tid + BitVec.ofNat 12 i) (mkFAddr s.own (addr + 64 * i)) with ord := true } : Packet)
        with size := 5, data := BitVec.ofNat 4096 (leNat ((bs.drop (64 * i)).take 64)) })

/-- The registers an entry changes (Table 4.10, R153): SUP, IE, loop counters, DEPTH, pc at the vector's slot, start-rows, MORE, shadow. -/
def Core.entered (k : Core) (vec : Nat) : Core :=
  { k with
    cpu := { k.cpu with sup := true, ie := false, lc0 := 0, lc1 := 0, depth := 0, shadow := true,
                        pc := BitVec.ofNat 14 (k.cpu.xvb.toNat * 64 + 2 * vec) },
    run := { k.run with more := false, hold := .none, wait := .none, held := 0 },
    que := { k.que with qswc := 0, stalled := false },
    mat := { k.mat with fa0 := { k.mat.fa0 with srow := 0 }, fa1 := { k.mat.fa1 with srow := 0 },
                        ba0 := { k.mat.ba0 with srow := 0 }, ba1 := { k.mat.ba1 with srow := 0 } } }

/-- What an entry waits for: its four save writes, from transaction `tid` on (R102). -/
def savingOf (k : Core) (e : Cause) (escr : Nat) (frame : Bool) (tid : BitVec 12) : Saving :=
  { tid, left := 4, frame, cause := e.word k.run.more escr, pc := e.pc, faddr := e.faddr, fpc := e.fpc, info := BitVec.ofNat 32 e.info }

/-- The load and store side with four save writes outstanding from transaction `tid` on (R102). -/
def Lsu.awaitSaves (l : Lsu) (tid : BitVec 12) : Lsu :=
  { l with nextTid := tid + 4, outs := l.outs ++ (List.range 4).map (fun i => (tid + BitVec.ofNat 12 i, OutOp.save tid)) }

/-- The core after an entry of `vec` with its load and store side and what it waits for. -/
def Core.saves (k : Core) (vec : Nat) (l : Lsu) (sv : Saving) : Core :=
  let k := k.entered vec
  { k with lsu := l, run := { k.run with saving := k.run.saving ++ [sv] } }

/-- Writes a block at `addr` and enters vector `vec` (R101, R102). [DEDUCED, log entry 9: unsafe] -/
def State.enterAt (s : State) (c : CoreId) (e : Cause) (escr vec addr : Nat) (frame : Bool) : State :=
  let k := s.core c
  let tid := k.lsu.nextTid
  let lsu := (k.lsu.dropLines (lineOf (mkFAddr s.own addr)) 4).awaitSaves tid
  (s.setCore c (k.saves vec lsu (savingOf k e escr frame tid))).injectAll (savePkts s c tid addr (blockBytes k e escr))

/-- Escalation entry (R108), or core stop (R109). -/
def State.escalate (s : State) (c : CoreId) (e : Cause) (escr : Nat) : State :=
  let k := s.core c
  if k.cpu.espAct ∨ k.cpu.espV = false then s.coreStop c e.pc
  else
    let s := s.enterAt c e escr 0 (k.cpu.espAddr.toNat * 1024) true
    s.modCore c (fun k => { k with cpu := { k.cpu with espAct := true, qAct := false } })

/-- Entry (R101): the common sequence of faults, interrupts and traps, with escalation (R108) and core stop (R109) where they apply. [DESIGN CHOICE, log entry 153: unsafe] -/
def State.enter (s : State) (c : CoreId) (e : Cause) : State :=
  let k := s.core c
  let addr := k.cpu.tsAddr.toNat * 1024
  if k.cpu.espAct ∧ e.kind ≠ 1 then s.coreStop c e.pc
  else if k.cpu.tsSaved ∧ e.kind ≠ 1 ∧ e.imp = false then s.escalate c e 1
  else if k.cpu.tsV = false ∨ memTop ≤ addr then s.escalate c e 2
  else
    let s := s.enterAt c e 0 e.vec addr false
    s.modCore c (fun k => { k with cpu := { k.cpu with tsSaved := true } })

/-- A response-time fault has been chosen and is not yet entered. -/
def Hold.imprecise : Hold → Bool
  | .trap e => e.imp
  | _ => false

/-- A response-time fault arises (R89, R90): it becomes pending; while another is pending, or while the entry of one is in progress, it sets MORE; while the escalation handler runs it stops the core at its next boundary (R109). [DEDUCED, log entry 158: unsafe] -/
def Core.respFault (k : Core) (f : RespFault) : Core :=
  if k.cpu.espAct then { k with run := { k.run with due := some (k.run.due.getD .resp) } }
  else if k.run.pend.isSome ∨ k.run.saving.any (fun v => v.cause.getLsbD 7) ∨ k.run.hold.imprecise then { k with run := { k.run with more := true } }
  else { k with run := { k.run with pend := some f } }

end Sys2Proof.Machine
end

