-- ==== Sys2Proof/Machine/Operands.lean ====
section
/-! DEFINITION. Operand forms of the core instructions: registers, instruction words, the issue of one instruction (R84, R89-R91) with the pc and the loop-back test (R53, R70-R72), and the segment checks (R76). -/

namespace Sys2Proof.Machine

/-! ## General registers (R51, R52) -/

/-- Reads a general register; g0 reads zero (R51). -/
def Cpu.reg (u : Cpu) (g : Reg) : Word := if g = 0 then 0 else Table.get 0 u.regs g.toNat
/-- Writes a general register; a write of g0 is discarded (R52). -/
def Cpu.setReg (u : Cpu) (g : Reg) (v : Word) : Cpu :=
  if g = 0 then u else { u with regs := Table.put u.regs g.toNat v }
/-- A core's general register. -/
def State.reg (s : State) (c : CoreId) (g : Reg) : Word := (s.core c).cpu.reg g
/-- `s` with a core's scalar state changed. -/
def State.modCpu (s : State) (c : CoreId) (f : Cpu → Cpu) : State :=
  s.modCore c (fun k => { k with cpu := f k.cpu })
/-- `s` with a core's general register written. -/
def State.setReg (s : State) (c : CoreId) (g : Reg) (v : Word) : State := s.modCpu c (fun u => u.setReg g v)

/-- Registers whose load result has not returned (R84); a load to g0 leaves none pending. -/
def Lsu.busy (l : Lsu) : List Reg :=
  (l.fills.flatMap (fun f => f.waiters.map (·.reg)) ++
    l.outs.filterMap (fun o => match o.2 with | .load w => some w.reg | _ => none)).filter (fun g => decide (g ≠ 0))

/-- Whether one of these registers awaits a load; g0 never does. -/
def Core.regBusy (k : Core) (gs : List Reg) : Bool :=
  gs.any (fun g => decide (g ≠ 0) && k.lsu.busy.contains g)

/-! ## Instruction words (R55, Table 3.2) -/

/-- A one-word instruction: opcode, gd and gs fields. -/
def enc1 (op gd gs : Nat) : List Nat := [op * 256 + gd * 16 + gs]
/-- A two-word instruction: prefix, field A, field B. -/
def enc2 (prefx a b : Nat) : List Nat := [prefx * 256 + a, b]

/-- INFO of an illegal opcode fault: the first word, and the second word or 0 (Table 4.4). -/
def wordsInfo : List Nat → Nat
  | [a] => a
  | a :: b :: _ => a + b * 2 ^ 14
  | [] => 0

/-! ## Issue of one instruction -/

/-- What the attempt to issue an instruction comes to. -/
inductive Exec where
  /-- it completed without transferring control; `f` is what its reads report (R126), which may stop the core behind it -/
  | done (s : State) (f : State → State := id)
  /-- it transferred control -/
  | jump (s : State) (pc : PAddr)
  /-- it issued and holds issue; `f` as above -/
  | stay (s : State) (f : State → State := id)
  /-- it waits before issue; `f` is what the wait itself changes (a translation miss, R317) -/
  | wait (w : Wait) (f : State → State := id)
  /-- it raised a precise fault; `s` is the state it leaves, changed only by rows already moved (R97) -/
  | trip (s : State) (t : Trip)
  /-- it issued and its event is chosen: a trap (R101) -/
  | event (s : State) (e : Cause)

/-- A pending response-time fault may be taken at the next boundary (R90). -/
def Core.respDue (k : Core) : Bool :=
  k.run.pend.isSome && !k.cpu.tsSaved && !k.cpu.espAct && !k.cpu.shadow

/-- An interrupt that R94 would take is pending, leaving QUIET out of account. -/
def Core.intReady (k : Core) : Bool :=
  decide (k.cpu.intp &&& k.cpu.inte ≠ 0) && k.cpu.ie && !k.cpu.tsSaved && !k.cpu.espAct && !k.cpu.shadow

/-- A pending interrupt qualifies under R94; a device-wide stall is left to the caller. -/
def Core.intDue (k : Core) : Bool := k.intReady && !k.cpu.qAct

/-- Whether core `c` is at an instruction boundary at which it may issue: its region is enabled, it runs and no STOP waits, no command of it holds issue, no device-wide stall is in force, and no event that R90 takes first is due (R84, R90, R111). -/
def State.canIssue (s : State) (c : CoreId) : Bool :=
  s.coreOn c.toNat && decide ((s.core c).run.st = .running) && !(s.core c).run.stopRq
    && decide ((s.core c).run.hold = .none) && !s.beat.frz && (s.core c).run.due.isNone && !(s.core c).respDue && !(s.core c).intDue

/-- The pc after an instruction at `pc` of `n` words that completes without transferring control (R53), with the loop-back test (R70, R71). -/
def Cpu.advance (u : Cpu) (pc : PAddr) (n : Nat) : Cpu :=
  let nxt := pc + BitVec.ofNat 14 n
  if pc = u.le1 ∧ u.lc1 ≠ 0 ∧ 1 < u.lc1.toNat then { u with lc1 := u.lc1 - 1, pc := u.ls1 }
  else
    let u := if pc = u.le1 then { u with lc1 := 0 } else u
    if pc = u.le0 ∧ u.lc0 ≠ 0 then
      if 1 < u.lc0.toNat then { u with lc0 := u.lc0 - 1, pc := u.ls0 }
      else { u with lc0 := 0, pc := nxt }
    else { u with pc := nxt }

/-- A held or completed instruction leaves the wait it was in; a send's waiting episode ends (R297). -/
def Core.issued (k : Core) : Core :=
  { k with run := { k.run with wait := .none, held := 0 }, que := { k.que with qswc := 0, stalled := false } }

/-- An instruction that waits before issue records what it waits for. -/
def State.waits (s : State) (c : CoreId) (w : Wait) : State :=
  s.modCore c (fun k => { k with run := { k.run with wait := w, held := if k.run.wait = w then k.run.held else 0 } })

/-- What the entry of a precise fault at the instruction at `pc` records (R89). -/
def Trip.cause (t : Trip) (pc : PAddr) : Cause :=
  { kind := 0, vec := t.vec, sub := t.sub, pc, info := t.info, faddr := t.faddr, fpc := pc, row := t.row, tile := t.tile }

/-- The event of cycle t of Table 4.10 is chosen (R90, R101): the wait of the instruction there is over, and the event is entered at once, or kept as chosen until the register results of earlier instructions are written and no device-wide stall freezes the entry (R111). What arises meanwhile comes after it. -/
def State.take (s : State) (c : CoreId) (e : Cause) : State :=
  let s := s.endHold c
  if (s.core c).lsu.busy.isEmpty ∧ s.beat.frz = false then s.enter c e
  else s.modCore c (fun k => { k with run := { k.run with hold := .trap e, wait := .load [], held := 0 } })

/-- A precise fault of a command that holds issue (R95, R307). Where an event that R90 takes first waits, the command's boundary is its own address. [DEDUCED, log entry 148: unsafe] -/
def State.raise (s : State) (c : CoreId) (pc : PAddr) (t : Trip) : State :=
  if (s.core c).run.due.isSome then s.modCore c (fun k => { k with run := { k.run with hold := .none } })
  else s.take c (t.cause pc)

/-- An instruction that held issue has completed: the hold ends, pc advances with the loop-back test (R53, R73), a stall request is withdrawn. -/
def State.endCommand (s : State) (c : CoreId) (pc : PAddr) (n : Nat) : State :=
  (s.modCore c (fun k => { k with run := { k.run with hold := .none, held := 0 }, cpu := k.cpu.advance pc n })).endHold c

/-- The end of a tile transfer (R96, R97, R148): SROW ← 0 and REL on success; on failure SROW names the failing row and INUSE sets. -/
def Core.moved (k : Core) (store : Bool) (tile : TileId) (rel : Bool) (fail : Option (Nat × Nat × Nat × FAddr)) : Core :=
  match fail with
  | none => k.modTile tile (fun t => { t with srow := 0, inuse := if store && rel then false else t.inuse })
  | some (r, _, _, _) => k.modTile tile (fun t => { t with srow := BitVec.ofNat 16 r, inuse := true })

/-- A precise fault at a row (R97). -/
def rowTrip (sd : SdId) (tile : TileId) (f : Nat × Nat × Nat × FAddr) : Trip :=
  { vec := f.2.1, sub := f.2.2.1, info := sd.toNat, faddr := f.2.2.2, row := true, tile := tile.toNat }

/-- A tile transfer requests no further row and awaits none. -/
def TileMove.over (m : TileMove) : Bool :=
  decide (m.left = 0) && (m.fail.isSome || decide (m.cut ≠ .none) || decide (tileRows m.tile ≤ m.next))

/-- A tile transfer that is over ends (R95-R97): with the fault of its failing row, with the interrupt or the STOP that cut it at a row boundary, or complete. [DEDUCED, log entry 149: unsafe] -/
def State.endMove (s : State) (c : CoreId) (m : TileMove) : State :=
  match m.fail with
  | some f =>
    ((s.modCore c (fun k => { k.moved m.store m.tile m.rel (some f) with run := { k.run with hold := .none, held := 0 } })).endHold c).raise c m.pc (rowTrip m.sd m.tile f)
  | none =>
    match m.cut with
    | .none => (s.modCore c (fun k => k.moved m.store m.tile m.rel none)).endCommand c m.pc 2
    | .int v =>
      (s.modCore c (fun k => k.rowBoundary m.tile m.next)).take c
        { kind := 1, vec := v, sub := 0, pc := m.pc, fpc := m.pc, row := true, tile := m.tile.toNat }
    | .stop => s.stopNow c ((s.core c).rowBoundary m.tile m.next) m.pc

/-- What a core that holds issue has waited for takes effect once no device-wide stall is in force (R101, R111): the entry of a chosen event, a completion, the end of a tile transfer. -/
def State.settleHold (s : State) (c : CoreId) : State :=
  match (s.core c).run.hold with
  | .trap e => if (s.core c).lsu.busy.isEmpty ∧ s.beat.frz = false then (s.endHold c).enter c e else s
  | .done pc n => if s.beat.frz then s else s.endCommand c pc n
  | .rows m => if m.over && !s.beat.frz then s.endMove c m else s
  | _ => s

/-- The event that R90 takes first, at an instruction boundary with no register result pending: escalation after a failed save write (R108), or the stop of R109. -/
def State.settleDue (s : State) (c : CoreId) : State :=
  let k := s.core c
  match k.run.due with
  | none => s
  | some d =>
    if k.run.st = .running ∧ k.run.hold = .none ∧ k.lsu.busy.isEmpty ∧ s.beat.frz = false then
      let s := (s.modCore c (fun k => { k with run := { k.run with due := none, wait := .none, held := 0 } })).endHold c
      match d with
      | .resp => s.coreStop c k.cpu.pc
      | .save v =>
        if v.frame then s.coreStop c v.pc
        else
          let w := v.cause.toNat
          s.escalate c { kind := bitsOf w 31 30, vec := bitsOf w 23 16, sub := bitsOf w 15 8, pc := k.cpu.pc, info := v.info.toNat,
                         faddr := v.faddr, fpc := v.fpc, imp := w.testBit 7, row := w.testBit 5, tile := bitsOf w 4 3 } 3
    else s

/-- What waited for a boundary of core `c`, in the order of R90: the end of the command that holds issue, an escalation condition, a STOP. -/
def State.settle (s : State) (c : CoreId) : State := ((s.settleHold c).settleDue c).settleStop c

/-- An instruction that held issue completes, in a device-wide stall only at its end (R111). -/
def State.complete (s : State) (c : CoreId) (pc : PAddr) (n : Nat) : State :=
  ((s.modCore c (fun k => { k with run := { k.run with hold := .done pc n } })).endHold c).settle c

/-- What an attempt's outcome does to the machine. -/
def Exec.apply (s : State) (c : CoreId) (pc : PAddr) (n : Nat) : Exec → State
  | .done t f => f (((t.modCore c Core.issued).modCpu c (fun u => u.advance pc n)).endHold c)
  | .jump t p => ((t.modCore c Core.issued).modCpu c (fun u => { u with pc := p })).endHold c
  | .stay t f => f ((t.modCore c Core.issued).endHold c)
  | .wait w f => f (s.waits c w)
  | .trip t f => (t.modCore c Core.issued).take c (f.cause pc)
  | .event t e => (t.modCore c Core.issued).take c e

/-- Issues one instruction of core `c` (R84, R89, R91): nothing happens where the core cannot issue; a register that awaits a load makes it wait; a two-word form at 0x3FFF is illegal (R53); otherwise `eff` runs on the state with the shadow of R79 over. [DESIGN CHOICE, log entry 6: safe] [DESIGN CHOICE, log entry 7: unsafe] -/
def State.issue (s : State) (c : CoreId) (ws : List Nat) (uses : List Reg) (eff : State → Exec) : State :=
  if s.canIssue c then
    let k := s.core c
    let pc := k.cpu.pc
    let n := ws.length
    if n = 2 ∧ pc = 0x3FFF then
      (Exec.trip (s.modCpu c (fun u => { u with shadow := false })) { vec := 1, sub := 4, info := wordsInfo ws }).apply s c pc n
    else if k.regBusy uses then s.waits c (.load uses)
    else (eff (s.modCpu c (fun u => { u with shadow := false }))).apply s c pc n
  else s

/-- An illegal opcode fault of sub-cause `sub` (Table 4.4). -/
def illegal (s : State) (ws : List Nat) (sub : Nat) : Exec := .trip s { vec := 1, sub, info := wordsInfo ws }

/-- A privileged instruction at task level is an illegal opcode with sub-cause 3 (R80). -/
def privileged (s : State) (c : CoreId) (ws : List Nat) (e : Exec) : Exec :=
  if (s.core c).cpu.sup then e else illegal s ws 3

/-! ## Segment descriptors (R75, R76) -/

/-- A core's segment descriptor. -/
def Cpu.seg (u : Cpu) (n : SdId) : BitVec 128 := Table.get 0 u.sds n.toNat

/-- V. -/
def sdV (d : BitVec 128) : Bool := d.getLsbD 63
/-- TASK. -/
def sdTask (d : BitVec 128) : Bool := d.getLsbD 62
/-- WR. -/
def sdWr (d : BitVec 128) : Bool := d.getLsbD 61
/-- RD. -/
def sdRd (d : BitVec 128) : Bool := d.getLsbD 60
/-- KIND: 0 MEM, 1 MEMU, 2 ROW, 3 CTRL. -/
def sdKind (d : BitVec 128) : Nat := bitsOf d.toNat 57 56
/-- BASE. -/
def sdBase (d : BitVec 128) : Nat := bitsOf d.toNat 55 0
/-- LIMIT. -/
def sdLimit (d : BitVec 128) : Nat := bitsOf d.toNat 95 64

/-- The reserved bits of a descriptor read zero (R12, Table 3.10). -/
def sdMask : BitVec 128 := BitVec.ofNat 128 0xFFFFFFFFF3FFFFFFFFFFFFFF

/-- Whether a class matches a segment KIND (Table 10.3). -/
def kindFits (kind : Nat) (cls : ACls) : Bool :=
  match cls with
  | .memory => kind ≤ 1
  | .way => kind ≤ 1
  | .row => kind = 2
  | .control => kind = 3
  | _ => false

/-- Step 6 of R76 for an address: its target, or the bus error's sub-cause. -/
def busCheck (s : State) (c : CoreId) (kind addr : Nat) : Except Nat Target :=
  if 2 ^ 56 ≤ addr then .error 0
  else
    let t := targetOf (addr % 2 ^ 46)
    let mine := decide (s.resolveDev (BitVec.ofNat 10 (addr >>> 46)) = s.own)
    match t with
    | .nothing => .error 3
    | .hole n => .error (if mine && !s.coreOn n then 2 else 3)
    | .way n _ => if kindFits kind .way && mine && decide (n = c.toNat) then .ok t else .error 1
    | _ =>
      if !kindFits kind t.cls then .error 1
      else if mine then
        match t with
        | .data n _ _ _ => if s.coreOn n then .ok t else .error 2
        | .side n _ _ _ => if s.coreOn n then .ok t else .error 2
        | .coreCtl n _ => if s.coreOn n then .ok t else .error 2
        | .clusCtl cl _ => if s.cluOn cl then .ok t else .error 2
        | _ => .ok t
      else .ok t

/-- Whether a target is the core's own control region on this device (R15). -/
def ownCtl (s : State) (c : CoreId) (a : Nat) (t : Target) : Option Nat :=
  match t with
  | .coreCtl n o => if n = c.toNat ∧ s.resolveDev (BitVec.ofNat 10 (a >>> 46)) = s.own then some o else none
  | _ => none

/-- The sub-cause of an access through a segment that is not aligned to its size (step 5 of R76): 1 for one through a CTRL segment to the core's own control region (R15, Table 4.4), 0 for any other. -/
def misalignSub (s : State) (c : CoreId) (kind addr : Nat) : Nat :=
  if kind = 3 ∧ addr < 2 ^ 56 ∧ (ownCtl s c addr (targetOf (addr % 2 ^ 46))).isSome then 1 else 0

/-- The checks of R76 on one access through a descriptor, in order: the target, or the fault. [DEDUCED, log entry 12: unsafe] -/
def segCheck (s : State) (c : CoreId) (n : SdId) (d : BitVec 128) (write : Bool) (off size : Nat) : Except Trip Target :=
  let addr := sdBase d + off
  let fa : FAddr := BitVec.ofNat 56 addr
  let bad (vec sub : Nat) : Except Trip Target := .error { vec, sub, info := n.toNat, faddr := fa }
  if !sdV d then bad 4 1
  else if !(s.core c).cpu.sup && !sdTask d then bad 4 2
  else if (if write then !sdWr d else !sdRd d) then bad 4 3
  else if sdLimit d < off + size then bad 4 4
  else if decide (sdKind d = 2) && decide (size ≠ 512) then bad 2 0
  else if addr % size ≠ 0 then bad 2 (misalignSub s c (sdKind d) addr)
  else match busCheck s c (sdKind d) addr with
    | .ok t => .ok t
    | .error sub => bad 3 sub

end Sys2Proof.Machine
end

