-- ==== Sys2Proof/Machine/Scalar.lean ====
section
/-! DEFINITION. The one-word and immediate arithmetic of the scalar core (Tables 3.3, 3.6; R57, R60-R63). -/

namespace Sys2Proof.Machine

/-- What a command answers. -/
abbrev Out := Host.Outcome State Fault Refusal

/-! ## Word operations -/

/-- 1 where the relation holds, 0 otherwise (R57, R64). -/
def flag (b : Bool) : Word := if b then 1 else 0
/-- Number of leading zero bits among the low `n` bits of a word (R57). -/
def clzGo : Nat → Word → Nat
  | 0, _ => 0
  | n + 1, v => if v.getLsbD n then 0 else 1 + clzGo n v
/-- clz: leading zero bits, 32 for zero (R57). -/
def clz32 (v : Word) : Word := BitVec.ofNat 32 (clzGo 32 v)
/-- Number of one bits among the low `n` bits (R57). -/
def popGo : Nat → Word → Nat
  | 0, _ => 0
  | n + 1, v => bnat (v.getLsbD n) + popGo n v
/-- popc: the number of one bits (R57). -/
def popc32 (v : Word) : Word := BitVec.ofNat 32 (popGo 32 v)
/-- High half of the unsigned product (R57). -/
def mulHigh (a b : Word) : Word := BitVec.ofNat 32 ((a.toNat * b.toNat) >>> 32)
/-- High half of the signed product (R57). -/
def mulHighS (a b : Word) : Word := BitVec.ofInt 32 ((a.toInt * b.toInt) >>> 32)
/-- A shift count, bits [4:0] (R57). -/
def sh5 (b : Word) : Nat := b.toNat % 32

/-! ## Shared forms -/

/-- A one-word instruction that reads gd and gs and writes gd (R57). -/
def alu (s : State) (c : CoreId) (op : Nat) (gd gs : Reg) (f : Word → Word → Word) : Out :=
  .next (s.issue c (enc1 op gd.toNat gs.toNat) [gd, gs]
    (fun t => .done (t.setReg c gd (f (t.reg c gd) (t.reg c gs)))))

/-- An immediate form of prefix 0x30 that reads and writes gd (R60). -/
def aluImm (s : State) (c : CoreId) (sub : Nat) (gd : Reg) (imm : Nat) (f : Word → Word) : Out :=
  .next (s.issue c (enc2 0x30 (gd.toNat * 16 + sub) imm) [gd]
    (fun t => .done (t.setReg c gd (f (t.reg c gd)))))

/-! ## One-word opcodes (Table 3.3) -/

/-- MOV (R57): opcode 0x01. Copies gs into gd. -/
def execMov (c : CoreId) (gd gs : Reg) (s : State) : Out :=
  alu s c 0x01 gd gs (fun _ b => b)

/-- ADD (R57): opcode 0x02. Adds gs to gd modulo 2^32. -/
def execAdd (c : CoreId) (gd gs : Reg) (s : State) : Out :=
  alu s c 0x02 gd gs (fun a b => a + b)

/-- SUB (R57): opcode 0x03. Subtracts gs from gd modulo 2^32. -/
def execSub (c : CoreId) (gd gs : Reg) (s : State) : Out :=
  alu s c 0x03 gd gs (fun a b => a - b)

/-- AND (R57): opcode 0x04. Bitwise AND of gd and gs. -/
def execAnd (c : CoreId) (gd gs : Reg) (s : State) : Out :=
  alu s c 0x04 gd gs (fun a b => a &&& b)

/-- OR (R57): opcode 0x05. Bitwise OR of gd and gs. -/
def execOr (c : CoreId) (gd gs : Reg) (s : State) : Out :=
  alu s c 0x05 gd gs (fun a b => a ||| b)

/-- XOR (R57): opcode 0x06. Bitwise XOR of gd and gs. -/
def execXor (c : CoreId) (gd gs : Reg) (s : State) : Out :=
  alu s c 0x06 gd gs (fun a b => a ^^^ b)

/-- SHL (R57): opcode 0x07. Shifts gd left by gs[4:0]. -/
def execShl (c : CoreId) (gd gs : Reg) (s : State) : Out :=
  alu s c 0x07 gd gs (fun a b => a <<< sh5 b)

/-- SHR (R57): opcode 0x08. Shifts gd right logically by gs[4:0]. -/
def execShr (c : CoreId) (gd gs : Reg) (s : State) : Out :=
  alu s c 0x08 gd gs (fun a b => a >>> sh5 b)

/-- SAR (R57): opcode 0x09. Shifts gd right arithmetically by gs[4:0]. -/
def execSar (c : CoreId) (gd gs : Reg) (s : State) : Out :=
  alu s c 0x09 gd gs (fun a b => a.sshiftRight (sh5 b))

/-- ROR (R57): opcode 0x0A. Rotates gd right by gs[4:0]. -/
def execRor (c : CoreId) (gd gs : Reg) (s : State) : Out :=
  alu s c 0x0A gd gs (fun a b => a.rotateRight (sh5 b))

/-- MUL (R57): opcode 0x0B. Writes the low 32 bits of gd times gs into gd. -/
def execMul (c : CoreId) (gd gs : Reg) (s : State) : Out :=
  alu s c 0x0B gd gs (fun a b => a * b)

/-- MULHU (R57): opcode 0x0C. Writes the high 32 bits of the unsigned 64-bit product into gd. -/
def execMulhu (c : CoreId) (gd gs : Reg) (s : State) : Out :=
  alu s c 0x0C gd gs (mulHigh)

/-- MULHS (R57): opcode 0x0D. Writes the high 32 bits of the signed 64-bit product into gd. -/
def execMulhs (c : CoreId) (gd gs : Reg) (s : State) : Out :=
  alu s c 0x0D gd gs (mulHighS)

/-- NOT (R57): opcode 0x0E. Writes the complement of gs into gd. -/
def execNot (c : CoreId) (gd gs : Reg) (s : State) : Out :=
  alu s c 0x0E gd gs (fun _ b => ~~~b)

/-- NEG (R57): opcode 0x0F. Writes 0 minus gs into gd. -/
def execNeg (c : CoreId) (gd gs : Reg) (s : State) : Out :=
  alu s c 0x0F gd gs (fun _ b => 0 - b)

/-- CLZ (R57): opcode 0x10. Counts the leading zero bits of gs into gd. -/
def execClz (c : CoreId) (gd gs : Reg) (s : State) : Out :=
  alu s c 0x10 gd gs (fun _ b => clz32 b)

/-- POPC (R57): opcode 0x11. Counts the one bits of gs into gd. -/
def execPopc (c : CoreId) (gd gs : Reg) (s : State) : Out :=
  alu s c 0x11 gd gs (fun _ b => popc32 b)

/-- SEQ (R57): opcode 0x12. Writes 1 into gd if gd equals gs, and 0 otherwise. -/
def execSeq (c : CoreId) (gd gs : Reg) (s : State) : Out :=
  alu s c 0x12 gd gs (fun a b => flag (a == b))

/-- SNE (R57): opcode 0x13. Writes 1 into gd if gd differs from gs, and 0 otherwise. -/
def execSne (c : CoreId) (gd gs : Reg) (s : State) : Out :=
  alu s c 0x13 gd gs (fun a b => flag (a != b))

/-- SLT (R57): opcode 0x14. Signed less-than comparison into gd. -/
def execSlt (c : CoreId) (gd gs : Reg) (s : State) : Out :=
  alu s c 0x14 gd gs (fun a b => flag (a.slt b))

/-- SLTU (R57): opcode 0x15. Unsigned less-than comparison into gd. -/
def execSltu (c : CoreId) (gd gs : Reg) (s : State) : Out :=
  alu s c 0x15 gd gs (fun a b => flag (a.ult b))

/-- SGE (R57): opcode 0x16. Signed greater-or-equal comparison into gd. -/
def execSge (c : CoreId) (gd gs : Reg) (s : State) : Out :=
  alu s c 0x16 gd gs (fun a b => flag (!a.slt b))

/-- SGEU (R57): opcode 0x17. Unsigned greater-or-equal comparison into gd. -/
def execSgeu (c : CoreId) (gd gs : Reg) (s : State) : Out :=
  alu s c 0x17 gd gs (fun a b => flag (!a.ult b))

/-- MIN (R57): opcode 0x18. Signed minimum into gd. -/
def execMin (c : CoreId) (gd gs : Reg) (s : State) : Out :=
  alu s c 0x18 gd gs (fun a b => if b.slt a then b else a)

/-- MAX (R57): opcode 0x19. Signed maximum into gd. -/
def execMax (c : CoreId) (gd gs : Reg) (s : State) : Out :=
  alu s c 0x19 gd gs (fun a b => if a.slt b then b else a)

/-- MINU (R57): opcode 0x1A. Unsigned minimum into gd. -/
def execMinu (c : CoreId) (gd gs : Reg) (s : State) : Out :=
  alu s c 0x1A gd gs (fun a b => if b.ult a then b else a)

/-- MAXU (R57): opcode 0x1B. Unsigned maximum into gd. -/
def execMaxu (c : CoreId) (gd gs : Reg) (s : State) : Out :=
  alu s c 0x1B gd gs (fun a b => if a.ult b then b else a)

/-- SXB (R57): opcode 0x1C. Sign-extends gs[7:0] into gd. -/
def execSxb (c : CoreId) (gd gs : Reg) (s : State) : Out :=
  alu s c 0x1C gd gs (fun _ b => (b.setWidth 8).signExtend 32)

/-- SXH (R57): opcode 0x1D. Sign-extends gs[15:0] into gd. -/
def execSxh (c : CoreId) (gd gs : Reg) (s : State) : Out :=
  alu s c 0x1D gd gs (fun _ b => (b.setWidth 16).signExtend 32)

/-- ZXB (R57): opcode 0x1E. Zero-extends gs[7:0] into gd. -/
def execZxb (c : CoreId) (gd gs : Reg) (s : State) : Out :=
  alu s c 0x1E gd gs (fun _ b => (b.setWidth 8).setWidth 32)

/-- ZXH (R57): opcode 0x1F. Zero-extends gs[15:0] into gd. -/
def execZxh (c : CoreId) (gd gs : Reg) (s : State) : Out :=
  alu s c 0x1F gd gs (fun _ b => (b.setWidth 16).setWidth 32)

/-! ## Immediate arithmetic (Table 3.6) -/

/-- MOVI (R60). Loads the sign-extended imm14 into gd. -/
def execMovi (c : CoreId) (gd : Reg) (imm : BitVec 14) (s : State) : Out :=
  aluImm s c 0x0 gd imm.toNat (fun _ => imm.signExtend 32)

/-- ADDI (R60). Adds the sign-extended imm14 to gd. -/
def execAddi (c : CoreId) (gd : Reg) (imm : BitVec 14) (s : State) : Out :=
  aluImm s c 0x1 gd imm.toNat (fun a => a + imm.signExtend 32)

/-- ANDI (R60). ANDs the zero-extended imm14 into gd. -/
def execAndi (c : CoreId) (gd : Reg) (imm : BitVec 14) (s : State) : Out :=
  aluImm s c 0x2 gd imm.toNat (fun a => a &&& imm.setWidth 32)

/-- ORI (R60). ORs the zero-extended imm14 into gd. -/
def execOri (c : CoreId) (gd : Reg) (imm : BitVec 14) (s : State) : Out :=
  aluImm s c 0x3 gd imm.toNat (fun a => a ||| imm.setWidth 32)

/-- XORI (R60). XORs the zero-extended imm14 into gd. -/
def execXori (c : CoreId) (gd : Reg) (imm : BitVec 14) (s : State) : Out :=
  aluImm s c 0x4 gd imm.toNat (fun a => a ^^^ imm.setWidth 32)

/-- SEQI (R60). Compares gd with the sign-extended immediate for equality. -/
def execSeqi (c : CoreId) (gd : Reg) (imm : BitVec 14) (s : State) : Out :=
  aluImm s c 0x5 gd imm.toNat (fun a => flag (a == imm.signExtend 32))

/-- SLTI (R60). Signed less-than comparison of gd with the immediate. -/
def execSlti (c : CoreId) (gd : Reg) (imm : BitVec 14) (s : State) : Out :=
  aluImm s c 0x6 gd imm.toNat (fun a => flag (a.slt (imm.signExtend 32)))

/-- SLTUI (R60). Unsigned less-than comparison of gd with the sign-extended immediate. -/
def execSltui (c : CoreId) (gd : Reg) (imm : BitVec 14) (s : State) : Out :=
  aluImm s c 0x7 gd imm.toNat (fun a => flag (a.ult (imm.signExtend 32)))

/-- SHLI (R60). Shifts gd left by an immediate count. -/
def execShli (c : CoreId) (gd : Reg) (sh : BitVec 5) (s : State) : Out :=
  aluImm s c 0x8 gd sh.toNat (fun a => a <<< sh.toNat)

/-- SHRI (R60). Shifts gd right logically by an immediate count. -/
def execShri (c : CoreId) (gd : Reg) (sh : BitVec 5) (s : State) : Out :=
  aluImm s c 0x9 gd sh.toNat (fun a => a >>> sh.toNat)

/-- SARI (R60). Shifts gd right arithmetically by an immediate count. -/
def execSari (c : CoreId) (gd : Reg) (sh : BitVec 5) (s : State) : Out :=
  aluImm s c 0xA gd sh.toNat (fun a => a.sshiftRight sh.toNat)

/-- RORI (R60). Rotates gd right by an immediate count. -/
def execRori (c : CoreId) (gd : Reg) (sh : BitVec 5) (s : State) : Out :=
  aluImm s c 0xB gd sh.toNat (fun a => a.rotateRight sh.toNat)

/-- MULI (R60). Multiplies gd by the sign-extended immediate, keeping the low 32 bits. -/
def execMuli (c : CoreId) (gd : Reg) (imm : BitVec 14) (s : State) : Out :=
  aluImm s c 0xC gd imm.toNat (fun a => a * imm.signExtend 32)

/-- MOVHI (R61). Sets gd to imm18 shifted left by 14. -/
def execMovhi (c : CoreId) (gd : Reg) (imm : BitVec 18) (s : State) : Out :=
  .next (s.issue c (enc2 0x31 (gd.toNat * 16 + imm.toNat / 2 ^ 14) (imm.toNat % 2 ^ 14)) [gd]
    (fun t => .done (t.setReg c gd (imm.setWidth 32 <<< 14))))

/-! ## Bit fields and byte permute (R62, R63) -/

/-- Effective length L' = min(L, 32 − P) (R62). -/
def fieldLen (lm1 p : BitVec 5) : Nat := min (lm1.toNat + 1) (32 - p.toNat)

/-- A bit-field instruction of prefix 0x32: it reads gd and gs and writes gd (R62). -/
def bitField (s : State) (c : CoreId) (sub : Nat) (gd gs : Reg) (lm1 p : BitVec 5) (f : Word → Word → Word) : Out :=
  .next (s.issue c (enc2 0x32 (gd.toNat * 16 + gs.toNat) (sub * 2 ^ 12 + lm1.toNat * 32 + p.toNat)) [gd, gs]
    (fun t => .done (t.setReg c gd (f (t.reg c gd) (t.reg c gs)))))

/-- BFXU (R62). Extracts a zero-extended field of gs. -/
def execBfxu (c : CoreId) (gd gs : Reg) (lm1 p : BitVec 5) (s : State) : Out :=
  bitField s c 0 gd gs lm1 p (fun _ b => BitVec.ofNat 32 ((b.toNat >>> p.toNat) % 2 ^ fieldLen lm1 p))

/-- BFXS (R62). Extracts a field of gs, sign-extended from its bit L' − 1. -/
def execBfxs (c : CoreId) (gd gs : Reg) (lm1 p : BitVec 5) (s : State) : Out :=
  bitField s c 1 gd gs lm1 p (fun _ b => sext (fieldLen lm1 p) ((b.toNat >>> p.toNat) % 2 ^ fieldLen lm1 p))

/-- BFI (R62). Inserts the low L' bits of gs into gd at P. -/
def execBfi (c : CoreId) (gd gs : Reg) (lm1 p : BitVec 5) (s : State) : Out :=
  bitField s c 2 gd gs lm1 p (fun a b => setBits a p.toNat (fieldLen lm1 p) b.toNat)

/-- The four registers of a group, as one 128-bit number, the first lowest (R63). -/
def Cpu.group (u : Cpu) (g : Reg) : BitVec 128 :=
  u.reg (g + 3) ++ u.reg (g + 2) ++ u.reg (g + 1) ++ u.reg g

/-- `u` with the four registers of a group written (R63, R79). -/
def Cpu.setGroup (u : Cpu) (g : Reg) (v : BitVec 128) : Cpu :=
  (((u.setReg g (v.extractLsb' 0 32)).setReg (g + 1) (v.extractLsb' 32 32)).setReg (g + 2) (v.extractLsb' 64 32)).setReg (g + 3) (v.extractLsb' 96 32)

/-- Output byte i is source byte (nibble i) of the selector (R63). -/
def bytePerm (src : BitVec 128) (sel : DWord) : BitVec 128 :=
  BitVec.ofNat 128 (packLE 8 ((List.range 16).map (fun i =>
    (src.toNat >>> (8 * ((sel.toNat >>> (4 * i)) % 16))) % 256)))

/-- BPERM (R63). Permutes bytes between 4-register groups under the selector pair gc, gc + 1; misaligned groups are illegal (Table 4.4 SUB 2). -/
def execBperm (c : CoreId) (gd gs gc : Reg) (s : State) : Out :=
  let ws := enc2 0x32 (gd.toNat * 16 + gs.toNat) (3 * 2 ^ 12 + gc.toNat)
  let uses := [gd, gd + 1, gd + 2, gd + 3, gs, gs + 1, gs + 2, gs + 3, gc, gc + 1]
  if gd.toNat % 4 ≠ 0 ∨ gs.toNat % 4 ≠ 0 ∨ gc.toNat % 2 ≠ 0 then
    .next (s.issue c ws [] (fun t => illegal t ws 2))
  else
    .next (s.issue c ws uses (fun t =>
      let u := (t.core c).cpu
      .done (t.modCpu c (fun u' => u'.setGroup gd (bytePerm (u.group gs) (u.reg (gc + 1) ++ u.reg gc))))))

end Sys2Proof.Machine
end

