-- ==== Sys2Proof/Machine/Control.lean ====
section
/-! DEFINITION. The system group, branches, calls and hardware loops, control registers, segment-descriptor access, and the entries and returns of the scalar core (chapters 3 and 4). -/

namespace Sys2Proof.Machine

/-! ## System group (Table 3.4); fence stands with the queue commands -/

/-- NOP (R58): nothing. -/
def execNop (c : CoreId) (s : State) : Out :=
  .next (s.issue c (enc1 0 0 0) [] (fun t => .done t))

/-- A push of the return stack (R67). -/
def Cpu.push (u : Cpu) (ra : PAddr) : Cpu :=
  let top := u.top + 1
  { u with top, rstack := Table.put u.rstack top.toNat ra, depth := if u.depth.toNat < 8 then u.depth + 1 else 8 }

/-- A call: pushes the return address, unless the stack is at its limit with RSO = 1 (R67, R68). -/
def callTo (t : State) (c : CoreId) (ra target : PAddr) : Exec :=
  let u := (t.core c).cpu
  if u.depth = 8 ∧ u.rso then .trip t { vec := 7, sub := 0 }
  else .jump (t.modCpu c (fun u => u.push ra)) target

/-- RET (R67, R68): pops the return stack into pc. -/
def execRet (c : CoreId) (s : State) : Out :=
  .next (s.issue c (enc1 0 1 0) [] (fun t =>
    let u := (t.core c).cpu
    if u.depth = 0 ∧ u.rso then .trip t { vec := 7, sub := 1 }
    else .jump (t.modCpu c (fun u => { u with top := u.top - 1, depth := if u.depth = 0 then 0 else u.depth - 1 }))
      (Table.get 0 u.rstack u.top.toNat)))

/-- Scope M of a fence is clear: the store buffer is empty, and no store, load, fill or prefetch is unanswered (Table 13.12). -/
def Lsu.mClear (l : Lsu) : Bool :=
  l.sbuf.isEmpty && l.fills.isEmpty && l.outs.all (fun o => match o.2 with | .load _ => false | .store _ _ _ => false | _ => true)

/-- TRAP (R58, R101): enters the supervisor through vector 16 + n; the saved pc is the next instruction. -/
def execTrap (c : CoreId) (n : BitVec 4) (s : State) : Out :=
  .next (s.issue c (enc1 0 4 n.toNat) [] (fun t =>
    let nxt := (t.core c).cpu.pc + 1
    .event t { kind := 2, vec := 16 + n.toNat, sub := n.toNat, pc := nxt, fpc := nxt }))

/-- BWAIT (R58): holds issue until BEATL − gs is not negative as a signed value. -/
def execBwait (c : CoreId) (gs : Reg) (s : State) : Out :=
  .next (s.issue c (enc1 0 5 gs.toNat) [gs] (fun t =>
    if 0 ≤ ((t.core c).cpu.beatl - t.reg c gs).toInt then .done t else .wait .bwait))

/-- HALT (R58, Table 16.7): the core stops fetching; a supervisor instruction. -/
def execHalt (c : CoreId) (s : State) : Out :=
  let ws := enc1 0 6 0
  .next (s.issue c ws [] (fun t => privileged t c ws
    (.stay (t.modCore c (fun k => { k with run := { k.run with st := .halted, spc := k.cpu.pc } })))))

/-! ## RETI (R103) -/

/-- `n` bytes of a block at offset `o`, as a number. -/
def blockField (bs : List Byte) (o n : Nat) : Nat := leNat ((bs.drop o).take n)

/-- A tile with its in-use flag and start-row restored (Table 4.8). -/
def Tile.restored (t : Tile) (w : Nat) : Tile :=
  { t with inuse := w.testBit 31, srow := BitVec.ofNat 16 w }

/-- RSP taken from a written word (Table 3.9). -/
def Cpu.withRsp (u : Cpu) (w : Nat) : Cpu :=
  let d := bitsOf w 7 4
  { u with depth := if 8 < d then 8 else BitVec.ofNat 4 d, top := BitVec.ofNat 3 w }

/-- The core with the restored fields of Table 4.8 (R103 step 3); pc apart. -/
def Core.restored (k : Core) (bs : List Byte) : Core :=
  let csr := blockField bs 0x08 4
  let u := k.cpu.withRsp (blockField bs 0x0C 4)
  { k with
    cpu := { u with
      sup := csr.testBit 31, rso := csr.testBit 8, ie := csr.testBit 0,
      rstack := (List.range 8).map (fun i => (i, BitVec.ofNat 14 (blockField bs (0x10 + 2 * i) 2))),
      lc0 := BitVec.ofNat 32 (blockField bs 0x30 4), lc1 := BitVec.ofNat 32 (blockField bs 0x34 4),
      ls0 := BitVec.ofNat 14 (blockField bs 0x38 2), le0 := BitVec.ofNat 14 (blockField bs 0x3A 2),
      ls1 := BitVec.ofNat 14 (blockField bs 0x3C 2), le1 := BitVec.ofNat 14 (blockField bs 0x3E 2),
      regs := (List.range 15).map (fun i => (i + 1, BitVec.ofNat 32 (blockField bs (0x40 + 4 * i) 4))) },
    mat := { k.mat with
      fa0 := k.mat.fa0.restored (blockField bs 0x80 4), fa1 := k.mat.fa1.restored (blockField bs 0x84 4),
      ba0 := k.mat.ba0.restored (blockField bs 0x88 4), ba1 := k.mat.ba1.restored (blockField bs 0x8C 4) } }

/-- Steps 4 and 5 of R103, and the shadow of R79. [DEDUCED, log entry 11: unsafe] -/
def Cpu.returned (u : Cpu) : Cpu :=
  let u := if u.espAct then { u with espAct := false } else { u with tsSaved := false }
  { u with qAct := false, qLeft := 0, shadow := true }

/-- RETI (R103): waits for scope M and the entry's save writes, reads the block, restores it, and returns. [DESIGN CHOICE, log entry 155: unsafe] -/
def execReti (c : CoreId) (s : State) : Out :=
  let ws := enc1 0 2 0
  .next (s.issue c ws [] (fun t => privileged t c ws
    (let k := t.core c
     let addr := (if k.cpu.espAct then k.cpu.espAddr else k.cpu.tsAddr).toNat * 1024
     let fa := mkFAddr t.own addr
     if !k.lsu.mClear || !k.run.saving.isEmpty then .wait .other
     else if memTop ≤ addr then .trip t { vec := 3, sub := 3, faddr := fa }
     else
       let t := t.localSee addr 256
       if t.localBad addr 256 then .trip t { vec := 3, sub := 4, faddr := fa }
       else
       let bs := t.localRead addr 256
       .jump (t.modCore c (fun k => let k := k.restored bs; { k with cpu := k.cpu.returned }))
         (BitVec.ofNat 14 (blockField bs 0x04 4)))))

/-! ## Branches, calls and jumps (Tables 3.3, 3.7) -/

/-- JR (R57): pc ← gs[13:0]. -/
def execJr (c : CoreId) (gs : Reg) (s : State) : Out :=
  .next (s.issue c (enc1 0x20 0 gs.toNat) [gs] (fun t => .jump t ((t.reg c gs).setWidth 14)))

/-- CALLR (R57): pushes pc + 1, pc ← gs[13:0]. -/
def execCallr (c : CoreId) (gs : Reg) (s : State) : Out :=
  .next (s.issue c (enc1 0x21 0 gs.toNat) [gs] (fun t =>
    callTo t c ((t.core c).cpu.pc + 1) ((t.reg c gs).setWidth 14)))

/-- BZ (R65): branches where gs is zero. -/
def execBz (c : CoreId) (gs : Reg) (target : PAddr) (s : State) : Out :=
  .next (s.issue c (enc2 0x34 gs.toNat target.toNat) [gs] (fun t =>
    if t.reg c gs = 0 then .jump t target else .done t))

/-- BNZ (R65): branches where gs is not zero. -/
def execBnz (c : CoreId) (gs : Reg) (target : PAddr) (s : State) : Out :=
  .next (s.issue c (enc2 0x34 (16 + gs.toNat) target.toNat) [gs] (fun t =>
    if t.reg c gs = 0 then .done t else .jump t target))

/-- BR (R65): pc ← target. -/
def execBr (c : CoreId) (target : PAddr) (s : State) : Out :=
  .next (s.issue c (enc2 0x34 0x20 target.toNat) [] (fun t => .jump t target))

/-- CALL (R65): pushes pc + 2, pc ← target. -/
def execCall (c : CoreId) (target : PAddr) (s : State) : Out :=
  .next (s.issue c (enc2 0x34 0x30 target.toNat) [] (fun t => callTo t c ((t.core c).cpu.pc + 2) target))

/-! ## Hardware loops (R69) -/

/-- The words that an instruction at an address takes: opcodes from 0x30 on are two-word forms (R55). -/
def Cpu.lengthAt (u : Cpu) (a : PAddr) : Nat :=
  if 0x30 ≤ (Table.get 0 u.prog a.toNat).toNat / 256 then 2 else 1

/-- Sets loop `n`'s start, end and count (R69). -/
def Cpu.setLoop (u : Cpu) (n : Bool) (start last : PAddr) (cnt : Word) : Cpu :=
  if n then { u with ls1 := start, le1 := last, lc1 := cnt } else { u with ls0 := start, le0 := last, lc0 := cnt }

/-- LOOP (R69): sets up loop N; a count of 0 transfers past the body. With M = 0 the low four bits of `cnt` name gs. [DESIGN CHOICE, log entry 152: unsafe] -/
def execLoop (c : CoreId) (n : Bool) (m : Bool) (cnt : BitVec 6) (last : PAddr) (s : State) : Out :=
  let ws := enc2 0x35 (bnat n * 128 + bnat m * 64 + cnt.toNat) last.toNat
  let gs : Reg := cnt.setWidth 4
  .next (s.issue c ws (if m then [] else [gs]) (fun t =>
    let u := (t.core c).cpu
    if !m && decide (cnt.toNat / 16 ≠ 0) then illegal t ws 1
    else if last.toNat < u.pc.toNat + 2 then illegal t ws 5
    else
      let k : Word := if m then cnt.setWidth 32 else t.reg c gs
      let t' := t.modCpu c (fun u => u.setLoop n (u.pc + 2) last k)
      if k = 0 then .jump t' (last + BitVec.ofNat 14 (u.lengthAt last)) else .done t'))

/-! ## Control registers (R80-R83, Tables 3.8-3.12, 4.2, 4.7, 4.11, 4.12) -/

/-- TSBP as read (Table 4.7). -/
def Cpu.tsbp (u : Cpu) : Word := BitVec.ofNat 32 (u.tsAddr.toNat * 4 + bnat u.tsSaved * 2 + bnat u.tsV)
/-- ESP as read (Table 4.11). -/
def Cpu.esp (u : Cpu) : Word := BitVec.ofNat 32 (u.espAddr.toNat * 4 + bnat u.espAct * 2 + bnat u.espV)
/-- QUIET as read (Table 4.12). -/
def Cpu.quiet (u : Cpu) : Word :=
  BitVec.ofNat 32 (bnat u.qAct * 2 ^ 31 + bnat u.qOvr * 2 ^ 30 + u.qLeft.toNat * 256 + u.qLen.toNat)
/-- CID of a core (Table 3.12). -/
def cidOf (c : CoreId) : Word :=
  BitVec.ofNat 32 (regionOf c.toNat * 2 ^ 16 + clusterOf c.toNat * 2 ^ 10 + c.toNat)

/-- A control register as read (Table 3.8). -/
def Cpu.cr (u : Cpu) (c : CoreId) (k : Nat) : Word :=
  match k with
  | 0 => u.lc0 | 1 => u.ls0.setWidth 32 | 2 => u.le0.setWidth 32
  | 3 => u.lc1 | 4 => u.ls1.setWidth 32 | 5 => u.le1.setWidth 32
  | 6 => u.rsp | 7 => u.csr | 8 => u.tsbp
  | 9 => BitVec.ofNat 32 (u.xvb.toNat * 64)
  | 10 => u.esp | 11 => u.quiet | 12 => cidOf c | 13 => u.cyc | _ => u.beatl

/-- A write of QUIET (R110): `block` says that an interrupt is pending that R94 would otherwise take. [DESIGN CHOICE, log entry 154: unsafe] -/
def Cpu.writeQuiet (u : Cpu) (block : Bool) (v : Word) : Cpu :=
  let u := { u with qLen := v.setWidth 8, qOvr := u.qOvr && !v.getLsbD 30 }
  if v.getLsbD 31 then
    if u.qAct || block then u else { u with qAct := true, qLeft := u.qLen.setWidth 9 + 1 }
  else { u with qAct := false, qLeft := 0 }

/-- A control register with a value written at supervisor level (R80-R82). -/
def Cpu.setCr (u : Cpu) (block : Bool) (k : Nat) (v : Word) : Cpu :=
  match k with
  | 0 => { u with lc0 := v } | 1 => { u with ls0 := v.setWidth 14 } | 2 => { u with le0 := v.setWidth 14 }
  | 3 => { u with lc1 := v } | 4 => { u with ls1 := v.setWidth 14 } | 5 => { u with le1 := v.setWidth 14 }
  | 6 => u.withRsp v.toNat
  | 7 => { u with rso := v.getLsbD 8, ie := v.getLsbD 0, shadow := true }
  | 8 => { u with tsAddr := BitVec.ofNat 30 (v.toNat / 4), tsSaved := v.getLsbD 1, tsV := v.getLsbD 0 }
  | 9 => { u with xvb := BitVec.ofNat 8 (v.toNat / 64) }
  | 10 => { u with espAddr := BitVec.ofNat 30 (v.toNat / 4), espV := v.getLsbD 0 }
  | 11 => u.writeQuiet block v
  | _ => u

/-- Whether R94 would take an interrupt of the core were it not for QUIET (R110). -/
def State.quietBlocked (s : State) (c : CoreId) : Bool := (s.core c).intReady && !s.beat.frz

/-- RDCR (R80, R81): gd ← control register `k`. -/
def execRdcr (c : CoreId) (gd : Reg) (k : BitVec 4) (s : State) : Out :=
  let ws := enc1 0x22 gd.toNat k.toNat
  .next (s.issue c ws [gd] (fun t =>
    if k = 15 then illegal t ws 0
    else if 8 ≤ k.toNat ∧ k.toNat ≤ 11 ∧ (t.core c).cpu.sup = false then illegal t ws 3
    else .done (t.setReg c gd ((t.core c).cpu.cr c k.toNat))))

/-- WRCR (R80, R81): control register `k` ← gs; at task level only lc0 and lc1. -/
def execWrcr (c : CoreId) (k : BitVec 4) (gs : Reg) (s : State) : Out :=
  let ws := enc1 0x23 k.toNat gs.toNat
  .next (s.issue c ws [gs] (fun t =>
    if k = 15 then illegal t ws 0
    else if k ≠ 0 ∧ k ≠ 3 ∧ (t.core c).cpu.sup = false then illegal t ws 3
    else .done (t.modCpu c (fun u => u.setCr (t.quietBlocked c) k.toNat (t.reg c gs)))))

/-! ## Descriptor access (R79) -/

/-- SDSET (R79): sdN ← the four registers from g, word k from g + k; privileged; the shadow follows. -/
def execSdset (c : CoreId) (sd : SdId) (g : Reg) (s : State) : Out :=
  let ws := enc2 0x3D g.toNat sd.toNat
  .next (s.issue c ws [g, g + 1, g + 2, g + 3] (fun t =>
    if g.toNat % 4 ≠ 0 then illegal t ws 2
    else privileged t c ws
      (let d := BitVec.ofNat 128 ((t.reg c g).toNat + (t.reg c (g + 1)).toNat * 2 ^ 32 + (t.reg c (g + 2)).toNat * 2 ^ 64
         + (t.reg c (g + 3)).toNat * 2 ^ 96)
       .done (t.modCpu c (fun u => { u with sds := Table.put u.sds sd.toNat (d &&& sdMask), shadow := true })))))

/-- SDGET (R79): the four registers from g ← sdN; privileged. -/
def execSdget (c : CoreId) (g : Reg) (sd : SdId) (s : State) : Out :=
  let ws := enc2 0x3D (16 + g.toNat) sd.toNat
  .next (s.issue c ws [g, g + 1, g + 2, g + 3] (fun t =>
    if g.toNat % 4 ≠ 0 then illegal t ws 2
    else privileged t c ws
      (let d := (t.core c).cpu.seg sd
       let w (k : Nat) : Word := BitVec.ofNat 32 (d.toNat >>> (32 * k))
       .done (t.modCpu c (fun u =>
         (((u.setReg g (w 0)).setReg (g + 1) (w 1)).setReg (g + 2) (w 2)).setReg (g + 3) (w 3))))))

/-! ## Entries of chapter 4 -/

/-- Whether core `c` runs and is at an instruction boundary (R90, R111). -/
def State.atBoundary (s : State) (c : CoreId) : Bool :=
  s.coreOn c.toNat && decide ((s.core c).run.st = .running) && decide ((s.core c).run.hold = .none) && (s.core c).run.due.isNone && !s.beat.frz

/-- RESPONSE_FAULT_ENTRY (R89, R90): the pending response-time fault is taken at an instruction boundary; the saved pc is the first instruction not issued. -/
def execResponseFaultEntry (c : CoreId) (s : State) : Out :=
  let k := s.core c
  match k.run.pend with
  | none => .next s
  | some f =>
    if s.atBoundary c && k.respDue then
      .next ((s.modCore c (fun k => { k with run := { k.run with pend := none } })).take c
        { kind := 0, vec := f.vec.toNat, sub := f.sub.toNat, pc := k.cpu.pc,
          info := f.info.toNat, faddr := f.faddr, fpc := f.fpc, imp := true })
    else .next s

/-- The lowest interrupt pending and enabled: vectors 8 to 11 (R94). -/
def Cpu.intVec (u : Cpu) : Nat :=
  let p := u.intp &&& u.inte
  if p.getLsbD 0 then 8 else if p.getLsbD 1 then 9 else if p.getLsbD 2 then 10 else 11

/-- INTERRUPT_ENTRY (R94, R96): the lowest qualifying interrupt is taken at an instruction boundary, at a pass boundary of an mm, or at a row boundary of an mld or mst, which then requests no further row and is left once the rows it requested are answered. [DESIGN CHOICE, log entry 150: unsafe] -/
def execInterruptEntry (c : CoreId) (s : State) : Out :=
  let k := s.core c
  if s.coreOn c.toNat && decide (k.run.st = .running) && !s.beat.frz && k.intDue && k.run.due.isNone then
    match k.run.hold with
    | .none =>
      if k.respDue then .next s else
      .next (s.take c { kind := 1, vec := k.cpu.intVec, sub := 0, pc := k.cpu.pc, fpc := k.cpu.pc })
    | .mm tile _ _ _ _ next _ pc =>
      .next ((s.setCore c (k.rowBoundary tile next)).take c
        { kind := 1, vec := k.cpu.intVec, sub := 0, pc := pc, fpc := pc, row := true, tile := tile.toNat })
    | .rows m =>
      if m.mayCut then
        .next ((s.setCore c { k with run := { k.run with hold := .rows { m with cut := .int k.cpu.intVec } } }).settleHold c)
      else .next s
    | _ => .next s
  else .next s

/-- One save write of the entry `e` is acknowledged; the last completes the entry (R102). -/
def Core.savedOne (k : Core) (tid e : BitVec 12) : Core :=
  { k with
    lsu := { k.lsu with outs := k.lsu.outs.filter (fun o => o.1 ≠ tid) },
    run := { k.run with saving := (k.run.saving.map (fun v => if v.tid = e then { v with left := v.left - 1 } else v)).filter (fun v => decide (v.left ≠ 0)) } }

/-- QUIET_OPEN (R110): a supervisor wrcr of QUIET whose value has ACT = 1. -/
def execQuietOpen (c : CoreId) (gs : Reg) (s : State) : Out :=
  let ws := enc1 0x23 11 gs.toNat
  if (s.reg c gs).getLsbD 31 then
    .next (s.issue c ws [gs] (fun t =>
      if (t.core c).cpu.sup then .done (t.modCpu c (fun u => u.writeQuiet (t.quietBlocked c) (t.reg c gs)))
      else illegal t ws 3))
  else .next s

/-- QUIET_CLOSE (R110): a supervisor wrcr of QUIET whose value has ACT = 0. -/
def execQuietClose (c : CoreId) (gs : Reg) (s : State) : Out :=
  let ws := enc1 0x23 11 gs.toNat
  if (s.reg c gs).getLsbD 31 then .next s
  else
    .next (s.issue c ws [gs] (fun t =>
      if (t.core c).cpu.sup then .done (t.modCpu c (fun u => u.writeQuiet (t.quietBlocked c) (t.reg c gs)))
      else illegal t ws 3))

/-- QUIET_EXPIRY (R110): LEFT has reached 0; ACT clears and OVR sets. -/
def execQuietExpiry (c : CoreId) (s : State) : Out :=
  let u := (s.core c).cpu
  if u.qAct ∧ u.qLeft = 0 then .next (s.modCpu c (fun u => { u with qAct := false, qOvr := true }))
  else .next s

end Sys2Proof.Machine
end

