-- ==== Sys2Proof/Machine/Encodings.lean ====
section
/-! DEFINITION. Which instruction words are illegal by their encoding alone (R56), for every opcode and prefix (Tables 3.3 to 3.7, 6.5, 8.2, 8.3, 12.11, 13.3 and 14.4), and the fault such words raise. -/

namespace Sys2Proof.Machine

/-! A check answers the sub-cause of Table 4.4: 0 reserved encoding, 1 non-zero res bit, 2 register group misaligned; none where the words are legal. -/

/-- The first check that fails decides: reserved, then a res bit, then the alignment of a group. -/
def encCheck (reserved resBit misaligned : Bool) : Option Nat :=
  if reserved then some 0 else if resBit then some 1 else if misaligned then some 2 else none

/-- One-word opcodes (Tables 3.3 and 3.4): `gd` and `gs` are the fields. -/
def encOne (op gd gs : Nat) : Option Nat :=
  match op with
  | 0 =>
    match gd with
    | 0 => encCheck false (decide (gs ≠ 0)) false
    | 1 => encCheck false (decide (gs ≠ 0)) false
    | 2 => encCheck false (decide (gs ≠ 0)) false
    | 3 => encCheck false (decide (8 ≤ gs ∨ gs = 0)) false
    | 4 => none
    | 5 => none
    | 6 => encCheck false (decide (gs ≠ 0)) false
    | _ => some 0
  | 0x20 => encCheck false (decide (gd ≠ 0)) false
  | 0x21 => encCheck false (decide (gd ≠ 0)) false
  | 0x22 => encCheck (decide (gs = 15)) false false
  | 0x23 => encCheck (decide (gd = 15)) false false
  | _ => encCheck (decide (0x24 ≤ op)) false false

/-- Prefix 0x30 (Table 3.6). -/
def encImm (sub b : Nat) : Option Nat :=
  encCheck (decide (0xD ≤ sub)) (decide (8 ≤ sub ∧ sub ≤ 11 ∧ b / 32 ≠ 0)) false

/-- Prefix 0x32 (R62, R63). -/
def encBits (hi lo b : Nat) : Option Nat :=
  if bitsOf b 13 12 = 3 then
    encCheck false (decide (bitsOf b 11 4 ≠ 0)) (decide (hi % 4 ≠ 0 ∨ lo % 4 ≠ 0 ∨ b % 2 ≠ 0))
  else encCheck false (decide (bitsOf b 11 10 ≠ 0)) false

/-- Prefix 0x33 (R74): width code 3 is reserved; the sign bit must be 0 in word loads and in stores. -/
def encLdst (b : Nat) : Option Nat :=
  encCheck (decide (bitsOf b 10 9 = 3)) (b.testBit 7 && (b.testBit 8 || decide (bitsOf b 10 9 = 2))) false

/-- Prefix 0x34 (Table 3.7). -/
def encBranch (hi lo : Nat) : Option Nat :=
  encCheck (decide (4 ≤ hi)) (decide (2 ≤ hi ∧ lo ≠ 0)) false

/-- Prefix 0x35 (R69): with M = 0, A[5:4] must be 0. -/
def encLoop (a : Nat) : Option Nat := encCheck false (!a.testBit 6 && decide (bitsOf a 5 4 ≠ 0)) false

/-- Prefix 0x36 (Table 6.5): mm. -/
def encMm (hi b : Nat) : Option Nat := encCheck false (decide (bitsOf b 10 0 ≠ 0)) (decide (hi % 2 ≠ 0))

/-- Prefix 0x37 (Table 6.5): the tile commands. -/
def encTile (hi lo b : Nat) : Option Nat :=
  match bitsOf b 13 11 with
  | 0 => encCheck false (decide (hi ≠ 0 ∨ bitsOf b 4 0 ≠ 0)) false
  | 1 => encCheck false (decide (lo ≠ 0) || b.testBit 5) false
  | 2 => encCheck false (decide (lo ≠ 0)) false
  | 3 => encCheck false (decide (hi ≠ 0 ∨ lo ≠ 0 ∨ bitsOf b 8 0 ≠ 0)) false
  | _ => some 0

/-- Prefix 0x38 (R178, Table 8.2). -/
def encLanes (a b : Nat) : Option Nat :=
  let ty := bitsOf a 2 1
  let op := bitsOf b 3 0
  let vb := bitsOf b 8 4
  encCheck (decide (ty = 3) || (decide (ty = 2) && [2, 3, 9, 10, 11].contains op))
    (a.testBit 0 || (decide (op = 10) && decide (8 ≤ vb)) || (decide (op = 11 ∨ op = 12) && decide (vb ≠ 0))) false

/-- Prefix 0x39 (Table 8.3). -/
def encMoves (a b : Nat) : Option Nat :=
  match bitsOf a 2 0 with
  | 0 => none
  | 1 => none
  | 2 => encCheck false (b.testBit 0) false
  | 3 => encCheck false (b.testBit 0) false
  | 4 => encCheck (decide (bitsOf b 13 12 = 3)) (decide (bitsOf b 11 4 ≠ 0)) false
  | 5 => encCheck (decide (bitsOf b 3 2 = 3)) (decide (bitsOf b 1 0 ≠ 0)) false
  | 6 => encCheck (decide (bitsOf b 3 2 = 3)) (decide (bitsOf b 9 4 ≠ 0 ∨ bitsOf b 1 0 ≠ 0)) false
  | _ => some 0

/-- Prefix 0x3A (Table 12.11). -/
def encQueue (hi lo b : Nat) : Option Nat :=
  match bitsOf b 13 11 with
  | 0 => encCheck false (decide (bitsOf b 1 0 ≠ 0)) false
  | 1 => encCheck (decide (bitsOf b 5 4 = 3)) (decide (bitsOf b 1 0 ≠ 0) || (b.testBit 3 && b.testBit 2)) false
  | 2 => encCheck false (decide (lo ≠ 0 ∨ bitsOf b 10 4 ≠ 0)) false
  | 3 => encCheck false (decide (lo ≠ 0 ∨ bitsOf b 10 4 ≠ 0)) false
  | 4 => encCheck false (decide (lo ≠ 0 ∨ bitsOf b 5 0 ≠ 0)) false
  | 5 => encCheck false (decide (hi ≠ 0 ∨ bitsOf b 10 3 ≠ 0)) false
  | _ => some 0

/-- Prefix 0x3B (Table 13.3). -/
def encSem (b : Nat) : Option Nat :=
  match bitsOf b 13 11 with
  | 0 => none
  | 1 => none
  | 2 => encCheck false (decide (bitsOf b 9 0 ≠ 0)) false
  | 3 => encCheck false (decide (bitsOf b 8 0 ≠ 0)) false
  | _ => some 0

/-- Prefix 0x3C (Table 14.4). -/
def encDma (lo b : Nat) : Option Nat :=
  match bitsOf b 13 11 with
  | 0 => encCheck false (decide (bitsOf b 7 0 ≠ 0)) (decide (lo % 2 ≠ 0))
  | 1 => encCheck false (decide (lo ≠ 0 ∨ bitsOf b 7 0 ≠ 0)) false
  | 2 => encCheck false (decide (lo ≠ 0 ∨ bitsOf b 7 0 ≠ 0)) false
  | _ => some 0

/-- Prefix 0x3D (R79). -/
def encDesc (hi lo b : Nat) : Option Nat :=
  encCheck (decide (2 ≤ hi)) (decide (bitsOf b 13 3 ≠ 0)) (decide (lo % 4 ≠ 0))

/-- Whether the words `w1`, `w2` are illegal by their encoding, and the sub-cause (R56, Tables 3.3, 3.5 and 4.4); a one-word form does not look at `w2`. [DEDUCED, log entry 10: unsafe] -/
def illegalWords (w1 w2 : BitVec 14) : Option Nat :=
  let op := bitsOf w1.toNat 13 8
  let a := bitsOf w1.toNat 7 0
  let hi := bitsOf w1.toNat 7 4
  let lo := bitsOf w1.toNat 3 0
  let b := w2.toNat
  match op with
  | 0x30 => encImm lo b
  | 0x31 => none
  | 0x32 => encBits hi lo b
  | 0x33 => encLdst b
  | 0x34 => encBranch hi lo
  | 0x35 => encLoop a
  | 0x36 => encMm hi b
  | 0x37 => encTile hi lo b
  | 0x38 => encLanes a b
  | 0x39 => encMoves a b
  | 0x3A => encQueue hi lo b
  | 0x3B => encSem b
  | 0x3C => encDma lo b
  | 0x3D => encDesc hi lo b
  | 0x3E => some 0
  | 0x3F => some 0
  | _ => encOne op hi lo

/-- The words of the instruction that begins with `w1`: prefixes take two (R55). -/
def wordsAt (w1 w2 : BitVec 14) : List Nat :=
  if 0x30 ≤ bitsOf w1.toNat 13 8 then [w1.toNat, w2.toNat] else [w1.toNat]

/-- ILLEGAL_OPCODE_FAULT (R56): core `c` meets the words `w1`, `w2` at its pc. Words that are illegal by their encoding raise vector 1 before they have any effect; legal words are no event of this row. -/
def execIllegalOpcodeFault (c : CoreId) (w1 w2 : BitVec 14) (s : State) : Out :=
  match illegalWords w1 w2 with
  | some sub =>
    let ws := wordsAt w1 w2
    .next (s.issue c ws [] (fun t => illegal t ws sub))
  | none => .next s

end Sys2Proof.Machine
end

