-- ==== Sys2Proof/Decode.lean ====
section
/-! DEFINITION. Which command a core's instruction words stand for (R55, R59), and the command that a word of spec/opcode_table.json spells. -/

namespace Sys2Proof

/-- Field [hi:lo] of a word as a bit vector of its width. -/
def field {w : Nat} (v : BitVec w) (hi lo : Nat) : BitVec (hi - lo + 1) := v.extractLsb hi lo

/-- One-word forms (Tables 3.3 and 3.4). -/
def decodeOne (c : CoreId) (op : Nat) (gd gs : Reg) : Option Instr :=
  match op with
  | 0x00 =>
    match gd.toNat with
    | 0 => some (.nop c)
    | 1 => some (.ret c)
    | 2 => some (.reti c)
    | 3 => some (.fence c gs)
    | 4 => some (.trap c gs)
    | 5 => some (.bwait c gs)
    | 6 => some (.halt c)
    | _ => none
  | 0x01 => some (.mov c gd gs)
  | 0x02 => some (.add c gd gs)
  | 0x03 => some (.sub c gd gs)
  | 0x04 => some (.and c gd gs)
  | 0x05 => some (.or c gd gs)
  | 0x06 => some (.xor c gd gs)
  | 0x07 => some (.shl c gd gs)
  | 0x08 => some (.shr c gd gs)
  | 0x09 => some (.sar c gd gs)
  | 0x0A => some (.ror c gd gs)
  | 0x0B => some (.mul c gd gs)
  | 0x0C => some (.mulhu c gd gs)
  | 0x0D => some (.mulhs c gd gs)
  | 0x0E => some (.not c gd gs)
  | 0x0F => some (.neg c gd gs)
  | 0x10 => some (.clz c gd gs)
  | 0x11 => some (.popc c gd gs)
  | 0x12 => some (.seq c gd gs)
  | 0x13 => some (.sne c gd gs)
  | 0x14 => some (.slt c gd gs)
  | 0x15 => some (.sltu c gd gs)
  | 0x16 => some (.sge c gd gs)
  | 0x17 => some (.sgeu c gd gs)
  | 0x18 => some (.min c gd gs)
  | 0x19 => some (.max c gd gs)
  | 0x1A => some (.minu c gd gs)
  | 0x1B => some (.maxu c gd gs)
  | 0x1C => some (.sxb c gd gs)
  | 0x1D => some (.sxh c gd gs)
  | 0x1E => some (.zxb c gd gs)
  | 0x1F => some (.zxh c gd gs)
  | 0x20 => some (.jr c gs)
  | 0x21 => some (.callr c gs)
  | 0x22 => some (.rdcr c gd gs)
  | 0x23 => some (.wrcr c gd gs)
  | _ => none

/-- Prefix 0x30 (Table 3.6). -/
def decodeImm (c : CoreId) (gd sub : Reg) (b : BitVec 14) : Option Instr :=
  match sub.toNat with
  | 0x0 => some (.movi c gd b)
  | 0x1 => some (.addi c gd b)
  | 0x2 => some (.andi c gd b)
  | 0x3 => some (.ori c gd b)
  | 0x4 => some (.xori c gd b)
  | 0x5 => some (.seqi c gd b)
  | 0x6 => some (.slti c gd b)
  | 0x7 => some (.sltui c gd b)
  | 0x8 => some (.shli c gd (field b 4 0))
  | 0x9 => some (.shri c gd (field b 4 0))
  | 0xA => some (.sari c gd (field b 4 0))
  | 0xB => some (.rori c gd (field b 4 0))
  | 0xC => some (.muli c gd b)
  | _ => none

/-- Prefix 0x32 (R62, R63). -/
def decodeBits (c : CoreId) (gd gs : Reg) (b : BitVec 14) : Option Instr :=
  match (field b 13 12).toNat with
  | 0 => some (.bfxu c gd gs (field b 9 5) (field b 4 0))
  | 1 => some (.bfxs c gd gs (field b 9 5) (field b 4 0))
  | 2 => some (.bfi c gd gs (field b 9 5) (field b 4 0))
  | _ => some (.bperm c gd gs (field b 3 0))

/-- Prefix 0x33 (R74); a load of a register's content comes without an SRAM error unless the command says so. -/
def decodeLdst (c : CoreId) (g gi : Reg) (b : BitVec 14) : Option Instr :=
  let sd : SdId := field b 13 11
  let d : BitVec 7 := field b 6 0
  match b.getLsbD 8, (field b 10 9).toNat, b.getLsbD 7 with
  | false, 0, false => some (.ldB c g gi sd d false)
  | false, 0, true => some (.ldBS c g gi sd d false)
  | false, 1, false => some (.ldH c g gi sd d false)
  | false, 1, true => some (.ldHS c g gi sd d false)
  | false, 2, false => some (.ldW c g gi sd d false)
  | true, 0, false => some (.stB c g gi sd d)
  | true, 1, false => some (.stH c g gi sd d)
  | true, 2, false => some (.stW c g gi sd d)
  | _, _, _ => none

/-- Prefix 0x34 (Table 3.7). -/
def decodeBranch (c : CoreId) (cond gs : Reg) (b : BitVec 14) : Option Instr :=
  match cond.toNat with
  | 0 => some (.bz c gs b)
  | 1 => some (.bnz c gs b)
  | 2 => some (.br c b)
  | 3 => some (.call c b)
  | _ => none

/-- Prefix 0x37 (Table 6.5). -/
def decodeTile (c : CoreId) (hi lo : Reg) (b : BitVec 14) : Option Instr :=
  let tile : TileId := field b 10 9
  match (field b 13 11).toNat with
  | 0 => some (.mdrain c tile lo (field b 8 6) (b.getLsbD 5))
  | 1 => some (.mld c tile (field b 8 6) hi (field b 4 0))
  | 2 => some (.mst c tile (field b 8 6) hi (field b 4 0) (b.getLsbD 5))
  | 3 => some (.mrel c tile)
  | _ => none

/-- Prefix 0x38 (R178, Table 8.2). -/
def decodeLanes (c : CoreId) (vd : VReg) (ty : BitVec 2) (b : BitVec 14) : Option Instr :=
  let va : VReg := field b 13 9
  let vb : VReg := field b 8 4
  match (field b 3 0).toNat with
  | 0x0 => some (.vadd c ty vd va vb)
  | 0x1 => some (.vsub c ty vd va vb)
  | 0x2 => some (.vmul c ty vd va vb)
  | 0x3 => some (.vfma c ty vd va vb)
  | 0x4 => some (.vmax c ty vd va vb)
  | 0x5 => some (.vmin c ty vd va vb)
  | 0x6 => some (.vand c ty vd va vb)
  | 0x7 => some (.vor c ty vd va vb)
  | 0x8 => some (.vxor c ty vd va vb)
  | 0x9 => some (.vdiv c ty vd va vb)
  | 0xA => some (.vfn c ty vd va (field b 6 4))
  | 0xB => some (.vredsum c ty vd va)
  | 0xC => some (.vredmax c ty vd va)
  | 0xD => some (.vclt c ty vd va vb)
  | 0xE => some (.vceq c ty vd va vb)
  | _ => some (.vsel c ty vd va vb)

/-- Prefix 0x39 (Table 8.3). -/
def decodeMoves (c : CoreId) (v : VReg) (sub : Nat) (b : BitVec 14) : Option Instr :=
  match sub with
  | 0 => some (.vld c v (field b 13 11) (field b 10 7) (field b 6 4) (field b 3 0) .clean)
  | 1 => some (.vst c v (field b 13 11) (field b 10 7) (field b 6 4) (field b 3 0))
  | 2 => some (.vmvt c v (field b 13 12) (field b 11 6) (field b 5 1))
  | 3 => some (.vmvf c (field b 13 12) (field b 11 6) v (field b 5 1))
  | 4 => some (.vbcast c v (field b 3 0) (field b 13 12))
  | 5 => some (.vext c (field b 13 10) v (field b 9 4) (field b 3 2))
  | 6 => some (.vfirst c (field b 13 10) v (field b 3 2))
  | _ => none

/-- Prefix 0x3A (Table 12.11). -/
def decodeQueue (c : CoreId) (hi lo : Reg) (b : BitVec 14) : Option Instr :=
  match (field b 13 11).toNat with
  | 0 => some (.qsend c (field b 10 6) lo hi (field b 5 3) (b.getLsbD 2))
  | 1 => some (.qcmb c (field b 10 6) lo hi (field b 5 4) (b.getLsbD 3) (b.getLsbD 2))
  | 2 => some (.qstat c hi (field b 3 0))
  | 3 => some (.qpop c hi (field b 3 0))
  | 4 => some (.qcred c hi (field b 10 6))
  | 5 => some (.qarm c (field b 2 0) lo)
  | _ => none

/-- Prefix 0x3B (Table 13.3). -/
def decodeSem (c : CoreId) (gn gv : Reg) (b : BitVec 14) : Option Instr :=
  match (field b 13 11).toNat with
  | 0 => some (.sadd c gn gv (field b 8 0) (b.getLsbD 10) (b.getLsbD 9))
  | 1 => some (.ssub c gn gv (field b 8 0) (b.getLsbD 10) (b.getLsbD 9))
  | 2 => some (.swait c gn gv (b.getLsbD 10))
  | 3 => some (.swatch c gn gv (b.getLsbD 10) (b.getLsbD 9))
  | _ => none

/-- Prefix 0x3C (Table 14.4). -/
def decodeDma (c : CoreId) (gd gp : Reg) (b : BitVec 14) : Option Instr :=
  match (field b 13 11).toNat with
  | 0 => some (.dstart c gd (field b 10 8) gp)
  | 1 => some (.dstat c gd (field b 10 8))
  | 2 => some (.dabort c gd (field b 10 8))
  | _ => none

/-- What the words spell by opcode and prefix alone (Tables 3.3 and 3.5). -/
def decodeForm (c : CoreId) (w1 w2 : BitVec 14) : Option Instr :=
  let hi : Reg := field w1 7 4
  let lo : Reg := field w1 3 0
  match (field w1 13 8).toNat with
  | 0x30 => decodeImm c hi lo w2
  | 0x31 => some (.movhi c hi (lo ++ w2))
  | 0x32 => decodeBits c hi lo w2
  | 0x33 => decodeLdst c hi lo w2
  | 0x34 => decodeBranch c hi lo w2
  | 0x35 => some (.loop c (w1.getLsbD 7) (w1.getLsbD 6) (field w1 5 0) w2)
  | 0x36 => some (.mm c (field w2 13 12) hi lo (w2.getLsbD 11))
  | 0x37 => decodeTile c hi lo w2
  | 0x38 => decodeLanes c (field w1 7 3) (field w1 2 1) w2
  | 0x39 => decodeMoves c (field w1 7 3) (field w1 2 0).toNat w2
  | 0x3A => decodeQueue c hi lo w2
  | 0x3B => decodeSem c hi lo w2
  | 0x3C => decodeDma c hi lo w2
  | 0x3D =>
    match hi.toNat with
    | 0 => some (.sdset c (field w2 2 0) lo)
    | 1 => some (.sdget c lo (field w2 2 0))
    | _ => none
  | op => decodeOne c op hi lo

/-- The instruction that the words `w1`, `w2` are for core `c` (R55, R59); none where they are illegal by their encoding (R56: the core then meets ILLEGAL_OPCODE_FAULT with these words). -/
def decodeCore (c : CoreId) (w1 w2 : BitVec 14) : Option Instr :=
  match Machine.illegalWords w1 w2 with
  | some _ => none
  | none => decodeForm c w1 w2

/-- The instruction at core `c`'s pc in its program memory (R53, R55). -/
def Machine.State.fetched (s : Machine.State) (c : CoreId) : Option Instr :=
  let k := (s.core c).cpu
  decodeCore c (k.prog.get 0 k.pc.toNat) (k.prog.get 0 (k.pc + 1).toNat)

/-- The command that the `nbits` bits of `w` spell by the table: none, since the table gives no row any bits. -/
def decodeTableWord (nbits w : Nat) : Option Instr :=
  match nbits, w with
  | _, _ => none

end Sys2Proof
end

