-- ==== Sys2Proof/Machine/SyncUnit.lean ====
section
/-! DEFINITION. The synchronisation unit of a cluster: semaphore operations, waits, watches and their notifications (R301-R317). -/

namespace Sys2Proof.Machine

/-- Value of semaphore `idx` = core * 48 + semaphore of cluster `cl` (R301). -/
def State.semVal (s : State) (cl idx : Nat) : Word := Table.get 0 (s.clu cl).sync.sems idx

/-- Local address of semaphore `i` of core `k` of a cluster (R236). -/
def semLocal (cl k i : Nat) : Nat := 0x200004000000 + cl * 0x10000 + k * 0xC0 + 4 * i

/-- Node of a cluster's units (R249). -/
def cluNode (cl : Nat) : NodeId := BitVec.ofNat 11 (nwOf cl)

/-! ## Watch entries (Tables 13.6, 13.7) -/

/-- EN of a watch entry. -/
def watchEn (e : BitVec 256) : Bool := e.getLsbD 31
/-- ARM. -/
def watchArm (e : BitVec 256) : Bool := e.getLsbD 30
/-- THR. -/
def watchThr (e : BitVec 256) : Nat := bitsOf e.toNat 94 64
/-- Index of the watched semaphore in its cluster. -/
def watchIdx (e : BitVec 256) : Nat := bitsOf e.toNat 29 26 * 48 + bitsOf e.toNat 25 20

/-- The reserved bits of a watch entry read zero. -/
def watchMask : BitVec 256 := BitVec.ofNat 256 0xFFFFFFFF_7FFFFFFF_03FF03FF_FFFFFFFF

/-- The notification row of a fired entry (R313, Table 13.7). -/
def notifyPkt (s : State) (cl w : Nat) (e : BitVec 256) (val : Nat) : Packet :=
  let core := bitsOf e.toNat 41 32
  let k := bitsOf e.toNat 29 26
  let sem := bitsOf e.toNat 25 20
  let name := coreOfK cl k * 2 ^ 22 + sem * 2 ^ 16 + s.own.toNat * 2 ^ 6 + w
  let bs := leBytes 4 (bitsOf e.toNat 15 0 * 2 ^ 16 + w) ++ leBytes 4 val ++ leBytes 4 (watchThr e)
    ++ leBytes 4 name ++ leBytes 4 s.beat.bcnt.toNat
  { s.mkPkt .msg (cluNode cl) 3 0 (mkFAddr (BitVec.ofNat 10 (bitsOf e.toNat 57 48)) (0x100000000000 + core * 0x100000)) with
    sb := true, op6 := BitVec.ofNat 32 (bitsOf e.toNat 19 16 * 2 ^ 9),
    side := BitVec.ofNat 256 (0xF002 * 2 ^ 240), data := BitVec.ofNat 4096 (leNat bs) }

/-- Tests entry `w` against its semaphore and fires it where the condition holds (R312). -/
def State.testWatch (s : State) (cl w : Nat) : State :=
  let y := (s.clu cl).sync
  let e := Table.get 0 y.watches w
  let v := (Table.get 0 y.sems (watchIdx e)).toNat
  if watchEn e && watchArm e && decide (watchThr e ≤ v) then
    let e' := setBits (setBits e 30 1 0) 96 32 (bitsOf e.toNat 127 96 + 1)
    let s := s.modSync cl (fun y => { y with watches := Table.put y.watches w e' })
    (s.count 0x4050 2).inject (notifyPkt s cl w e v)
  else s

/-- Tests every entry that watches semaphore `idx` (R312). -/
def State.testWatches (s : State) (cl idx : Nat) : State :=
  ((s.clu cl).sync.watches.filter (fun e => watchIdx e.2 = idx)).foldl (fun s e => s.testWatch cl e.1) s

/-! ## Waits (R304, R358) -/

/-- A SACK of status `st` to a semaphore packet. -/
def sackOf (s : State) (p : Packet) (st : Nat) : Packet :=
  { p.reply s.own .sack with status := BitVec.ofNat 4 st }

/-- A due-wait stall request or withdrawal of a core (R358, R360): bits [31:28] 1 raise or 2 withdraw, bit 16 clear, the core. -/
def dueCtl (s : State) (cl core verb : Nat) : Packet :=
  ctlPkt s (cluNode cl) (BitVec.ofNat 32 (verb * 2 ^ 28 + core)) 0

/-- The due-wait request of a wait slot that ends is withdrawn (R358). -/
def State.endDue (s : State) (cl k : Nat) (w : WaitSlot) : State :=
  if w.due then s.inject (dueCtl s cl (coreOfK cl k) 2) else s

/-- Sets a semaphore's value. -/
def State.putSem (s : State) (cl idx : Nat) (v : Word) : State :=
  s.modSync cl (fun y => { y with sems := Table.putc 0 y.sems idx v })

/-- The owner core's wait on `idx` is satisfied where the value allows, with its subtraction (R304). -/
def State.wakeCore (s : State) (cl idx : Nat) : State :=
  let y := (s.clu cl).sync
  let k := idx / 48
  match Table.look y.waits k with
  | none => s
  | some w =>
    let v := s.semVal cl idx
    if w.sem = idx ∧ w.thr ≤ v.toNat then
      let s := s.modSync cl (fun y => { y with waits := Table.erase y.waits k })
      let s := if w.sub then s.putSem cl idx (v - BitVec.ofNat 32 w.thr) else s
      (s.inject (sackOf s w.req 0)).endDue cl k w
    else s

/-- The waits of the cluster's DMA channels on `idx` that the value satisfies (R339). -/
def State.wakeChans (s : State) (cl idx : Nat) : State :=
  let v := (s.semVal cl idx).toNat
  let hit := (s.clu cl).sync.chwaits.filter (fun e => decide (e.2.sem = idx) && decide (e.2.thr ≤ v))
  let s := s.modSync cl (fun y => { y with chwaits := y.chwaits.filter (fun e => !(decide (e.2.sem = idx) && decide (e.2.thr ≤ v))) })
  hit.foldl (fun s e => s.inject (sackOf s e.2.req 0)) s

/-- What follows a change of a semaphore: waits first, then watches on the value that is left (R304, R312, Table 13.17). -/
def State.semChanged (s : State) (cl idx : Nat) : State :=
  ((s.wakeCore cl idx).wakeChans cl idx).testWatches cl idx

/-! ## Operations (R303, R304, R312) -/

/-- OP of a SEM packet. -/
def semOp (p : Packet) : Nat := bitsOf p.op6.toNat 31 28
/-- K. -/
def semK (p : Packet) : Nat := bitsOf p.op6.toNat 27 24
/-- SEM. -/
def semI (p : Packet) : Nat := bitsOf p.op6.toNat 23 18
/-- WATCH. -/
def semW (p : Packet) : Nat := bitsOf p.op6.toNat 17 12
/-- Whether the unit performs the packet: OP not reserved, SEM below 48, K and SEM naming the value word at ADDR (R304). -/
def semFormed (cl : Nat) (p : Packet) : Bool :=
  decide (semOp p < 6) && decide (semI p < 48) && decide (localOf p.addr = semLocal cl (semK p) (semI p))

/-- Channel of a packet of the cluster's DMA engine: its port is 2 and its TID's top bits name the channel. -/
def chanOf (p : Packet) : Nat := p.tid.toNat / 512

/-- Amount of an add or subtract; VAL counts as unsigned (R304). -/
def State.semAdd (s : State) (cl : Nat) (p : Packet) : State :=
  let idx := semK p * 48 + semI p
  let v := (s.semVal cl idx).toNat
  if 2 ^ 31 - 1 < v + p.op7.toNat then (s.count 0x4050 1).inject (sackOf s p 2)
  else
    let s := (s.putSem cl idx (BitVec.ofNat 32 (v + p.op7.toNat))).semChanged cl idx
    s.inject (sackOf s p 0)

/-- Subtract (R304). -/
def State.semSub (s : State) (cl : Nat) (p : Packet) : State :=
  let idx := semK p * 48 + semI p
  let v := (s.semVal cl idx).toNat
  if v < p.op7.toNat then (s.count 0x4050 1).inject (sackOf s p 1)
  else
    let s := (s.putSem cl idx (BitVec.ofNat 32 (v - p.op7.toNat))).semChanged cl idx
    s.inject (sackOf s p 0)

/-- Wait, and wait-and-subtract (R304): answered at once where satisfied, recorded in the wait slot otherwise, with a due-wait request where BT_DUE asks for one (R358). -/
def State.semWait (s : State) (cl : Nat) (p : Packet) (sub : Bool) : State :=
  let idx := semK p * 48 + semI p
  let v := (s.semVal cl idx).toNat
  let thr := p.op7.toNat % 2 ^ 31
  if thr ≤ v then
    let s := if sub then (s.putSem cl idx (BitVec.ofNat 32 (v - thr))).testWatches cl idx else s
    s.inject (sackOf s p 0)
  else if p.sport = 2 then
    s.modSync cl (fun y => { y with chwaits := Table.put y.chwaits (chanOf p) { sem := idx, thr, sub, req := p, due := false } })
  else
    let core := coreOfK cl (semK p)
    let due := (Table.get 0 s.beat.due core).getLsbD (semI p)
    let s := s.modSync cl (fun y => { y with waits := Table.put y.waits (semK p) { sem := idx, thr, sub, req := p, due } })
    if due then s.inject (dueCtl s cl core 1) else s

/-- Arm a watch entry (R312). -/
def State.semArm (s : State) (cl : Nat) (p : Packet) : State :=
  let w := semW p
  let e := Table.get 0 (s.clu cl).sync.watches w
  if watchEn e then
    let e' := setBits (setBits e 64 31 (p.op7.toNat % 2 ^ 31)) 30 1 1
    let s := (s.modSync cl (fun y => { y with watches := Table.put y.watches w e' })).testWatch cl w
    s.inject (sackOf s p 0)
  else s.inject (sackOf s p 4)

/-- Cancel a wait of the sender (R304, R309). -/
def State.semCancel (s : State) (cl : Nat) (p : Packet) : State :=
  let y := (s.clu cl).sync
  let mine (w : WaitSlot) : Bool := decide (w.req.src = p.src) && decide (w.req.sport = p.sport) && decide (w.req.sdev = p.sdev)
  if p.sport = 2 then
    match Table.look y.chwaits (chanOf p) with
    | some w =>
      if mine w then (s.modSync cl (fun y => { y with chwaits := Table.erase y.chwaits (chanOf p) })).inject (sackOf s p 3)
      else s.inject (sackOf s p 0)
    | none => s.inject (sackOf s p 0)
  else
    match Table.look y.waits (semK p) with
    | some w =>
      if mine w then
        ((s.modSync cl (fun y => { y with waits := Table.erase y.waits (semK p) })).inject (sackOf s p 3)).endDue cl (semK p) w
      else s.inject (sackOf s p 0)
    | none => s.inject (sackOf s p 0)

/-! ## Virtual names (R317) -/

/-- Table-entry address of a VID in a context (R317). -/
def vidAddr (y : Sync) (ctx vid : Nat) : Nat := y.vtbase.toNat * 16384 + ctx * 16384 + vid * 4

/-- Context of core `k` of a cluster (Table 13.11). -/
def ctxOf (y : Sync) (k : Nat) : Nat := bitsOf y.vctx.toNat (4 * k + 3) (4 * k)

/-- Key of a translation: context and VID. [DEDUCED, log entry 24: unsafe] -/
def vidKey (y : Sync) (k : Nat) (snw : Word) : Nat := ctxOf y k * 4096 + bitsOf snw.toNat 27 16

/-- Physical name of a translated word: CORE and SEM from the entry, DEV and WATCH kept (R317). -/
def physName (snw entry : Word) : Word :=
  BitVec.ofNat 32 (bitsOf entry.toNat 25 16 * 2 ^ 22 + bitsOf entry.toNat 5 0 * 2 ^ 16 + bitsOf snw.toNat 15 0)

end Sys2Proof.Machine
end

