-- ==== Sys2Proof/Machine/Rows.lean ====
section
/-! DEFINITION. Scratchpad rows (R112-R117): whole-row reads and writes, side bands, and the reports of R126. -/

namespace Sys2Proof.Machine

/-- The rows of one scratchpad. -/
def Pads.get (p : Pads) : Pad → Table Row
  | .w => p.w | .a => p.a | .p => p.p

/-- The scratchpads with one replaced. -/
def Pads.set (p : Pads) (m : Pad) (t : Table Row) : Pads :=
  match m with | .w => { p with w := t } | .a => { p with a := t } | .p => { p with p := t }

/-- A row of a core's scratchpad. -/
def Core.row (k : Core) (m : Pad) (r : Nat) : Row := Table.get Row.zero (k.pad.get m) r
/-- A core with a row written whole (R113). -/
def Core.putRow (k : Core) (m : Pad) (r : Nat) (v : Row) : Core :=
  { k with pad := k.pad.set m (Table.putc Row.zero (k.pad.get m) r v) }

/-- A core's scratchpad row. -/
def State.row (s : State) (c : CoreId) (m : Pad) (r : Nat) : Row := (s.core c).row m r
/-- `s` with a scratchpad row written whole. -/
def State.putRow (s : State) (c : CoreId) (m : Pad) (r : Nat) (v : Row) : State := s.modCore c (fun k => k.putRow m r v)

/-- Number of a scratchpad in a source row word and in log records: 0 W, 1 A, 2 P (R291). -/
def Pad.num : Pad → Nat
  | .w => 0 | .a => 1 | .p => 2

/-- The check bits' finding on a read: a row already found uncorrectable stays so until it is rewritten (R126). -/
def Row.found (r : Row) (e : Ecc) : Ecc := match r.err, e with
  | .uncorrectable, _ => .uncorrectable
  | x, .clean => x
  | _, e => e

/-- The report of a local read (R126): a correction is counted; an uncorrectable error is counted and logged, and moves the device to FAULT. The row keeps its mark. -/
def State.localEcc (s : State) (c : CoreId) (m : Pad) (r : Nat) (e : Ecc) : State :=
  match (s.row c m r).found e with
  | .clean => s
  | .corrected => s.count 0x4020 1
  | .uncorrectable =>
    let s := s.putRow c m r { s.row c m r with err := .uncorrectable }
    ((s.count 0x4020 2).logEv 0x0501 true (lf c.toNat ++ lf m.num ++ lf r)).deviceFault 2

/-- The report of a read by a fabric requester (R126): a correction is counted; an uncorrectable row keeps its mark. -/
def State.remoteEcc (s : State) (c : CoreId) (m : Pad) (r : Nat) (e : Ecc) : State :=
  match (s.row c m r).found e with
  | .clean => s
  | .corrected => s.count 0x4020 1
  | .uncorrectable => s.putRow c m r { s.row c m r with err := .uncorrectable }

/-- Reads of rows by a fabric requester (R126); `ecc` is what the check bits newly show of the first. -/
def State.remoteReads (s : State) (c : CoreId) (m : Pad) : List Nat → Ecc → State
  | [], _ => s
  | r :: rs, ecc => (s.remoteEcc c m r ecc).remoteReads c m rs .clean

/-- A row or burst is upset (R126, R225): the next reads of it find the error. What the check bits cannot correct stays so. -/
def State.upset (s : State) : Config.Upset → State
  | .row c p r hard =>
    let m : Pad := match p with | 0 => .w | 1 => .a | _ => .p
    let id : CoreId := BitVec.ofNat 10 c
    if s.coreOn id.toNat && decide (r < m.rows) then
      s.putRow id m r { s.row id m r with err := (s.row id m r).found (if hard then .uncorrectable else .corrected) }
    else s
  | .burst b hard =>
    let add (l : List Nat) : List Nat := if l.contains b then l else l.filter (· < b) ++ b :: l.filter (b < ·)
    if hard then { s with badMem := add s.badMem } else { s with softMem := add s.softMem }

/-- Reads of rows by a local reader: what the check bits show is reported (R126, R158); `ecc` is what they newly show of the first. -/
def State.portReads (s : State) (c : CoreId) (m : Pad) : List Nat → Ecc → State
  | [], _ => s
  | r :: rs, ecc => (s.localEcc c m r ecc).portReads c m rs .clean

/-- The 512 data bytes of a row written, its side band kept (R115). -/
def Row.withData (r : Row) (d : BitVec 4096) : Row := { r with data := d, err := .clean }
/-- The side band of a row written, its data kept (R115). [DEDUCED, log entry 157: unsafe] -/
def Row.withSide (r : Row) (b : BitVec 256) : Row := { r with side := b }

/-- The row tag, side-band bytes 30-31 (R34). -/
def Row.tag (r : Row) : Nat := bitsOf r.side.toNat 255 240
/-- A side band that holds a tag and zero in bytes 0-29. -/
def tagBand (t : Nat) : BitVec 256 := BitVec.ofNat 256 (t % 65536 * 2 ^ 240)

/-- The side bands of 16 consecutive rows, lowest row first (R115). -/
def Core.bands (k : Core) (m : Pad) (r : Nat) : BitVec 4096 :=
  BitVec.ofNat 4096 (packLE 256 ((List.range 16).map (fun i => (k.row m (r + i)).side.toNat)))

/-- Writes the side bands of `n` consecutive rows (R115). -/
def Core.putBands (k : Core) (m : Pad) (r : Nat) (v : Nat) : Nat → Core
  | 0 => k
  | n + 1 => ((k.putRow m r ((k.row m r).withSide (BitVec.ofNat 256 v))).putBands m (r + 1) (v >>> 256) n)

end Sys2Proof.Machine
end

