-- ==== Sys2Proof/Machine/QueueUnit.lean ====
section
/-! DEFINITION. The queue unit of a core (R270-R300): rings, message records, credits and combining queues, on the receiving side. -/

namespace Sys2Proof.Machine

/-! ## Configuration and status registers (Tables 12.4, 12.5, 12.8, 12.9) -/

/-- RCFG fields. -/
def rcEn (v : Word) : Bool := v.getLsbD 31
/-- Credit mode of a ring. -/
def rcCm (v : Word) : Bool := v.getLsbD 30
/-- Memory of a ring. -/
def rcPad (v : Word) : Pad := if v.getLsbD 26 then .p else .a
/-- First row of a ring. -/
def rcBase (v : Word) : Nat := bitsOf v.toNat 25 16
/-- Rows of a ring. -/
def rcSize (v : Word) : Nat := bitsOf v.toNat 8 0
/-- CQCFG of a queue; its SEM resets to 0x3F (Table 12.8). -/
def Queue.cqCfg (q : Queue) (i : Nat) : Word := Table.get 0x3F q.cqcfg i
/-- Memory of a combining queue. -/
def cqPad (v : Word) : Pad := if v.getLsbD 27 then .p else .a
/-- First row of a combining queue. -/
def cqBase (v : Word) : Nat := bitsOf v.toNat 26 17
/-- Rows of a combining queue. -/
def cqSize (v : Word) : Nat := bitsOf v.toNat 16 8
/-- Semaphore of a combining queue. -/
def cqSem (v : Word) : Nat := bitsOf v.toNat 5 0

/-- A ring's run-time state. -/
def Queue.ring (q : Queue) (r : Nat) : Ring := Table.get {} q.rings r
/-- The queue unit with a ring's run-time state replaced. -/
def Queue.setRing (q : Queue) (r : Nat) (v : Ring) : Queue := { q with rings := Table.putc {} q.rings r v }

/-- All rows of a message are written. -/
def MsgRec.complete (m : MsgRec) : Bool := decide (m.landed.toNat = 2 ^ m.len - 1)

/-- Published messages: the complete ones before the first incomplete one (R278). -/
def Ring.npub (g : Ring) : Nat := (g.recs.takeWhile (·.complete)).length

/-- RSTAT as read (Table 12.5). -/
def Ring.stat (g : Ring) : Word :=
  let n := g.npub
  match g.recs with
  | m :: _ =>
    if n = 0 then BitVec.ofNat 32 (bnat g.cv * 2 ^ 31)
    else BitVec.ofNat 32 (bnat g.cv * 2 ^ 31 + m.start * 2 ^ 21 + n * 2 ^ 12 + m.len)
  | [] => BitVec.ofNat 32 (bnat g.cv * 2 ^ 31)

/-- CQSTAT as read (Table 12.9). -/
def CqStat.word (t : CqStat) : Word := BitVec.ofNat 32 (bnat t.done * 2 ^ 31 + bnat t.ovf * 2 ^ 30 + t.cnt.toNat)

/-- Records of the queue unit: allocated messages, and incomplete ones (R279). -/
def Queue.records (q : Queue) : Nat × Nat :=
  let all := q.rings.flatMap (fun e => e.2.recs)
  (all.length + q.direct.length, (all.filter (fun m => !m.complete)).length + q.direct.length)

/-! ## Operation words (Table 12.6) -/

/-- Key of a MSG packet's message. -/
def msgKey (p : Packet) : MsgKey :=
  { dev := p.sdev, node := p.src, port := p.sport, entry := BitVec.ofNat 5 (bitsOf p.op6.toNat 17 13), msgid := BitVec.ofNat 7 (bitsOf p.op6.toNat 31 25) }
/-- ROWIDX. -/
def msgIdx (p : Packet) : Nat := bitsOf p.op6.toNat 24 22
/-- Rows of the message, LM1 + 1. -/
def msgLen (p : Packet) : Nat := bitsOf p.op6.toNat 21 19 + 1
/-- CM. -/
def msgCm (p : Packet) : Bool := p.op6.getLsbD 18
/-- RING. -/
def msgRing (p : Packet) : Nat := bitsOf p.op6.toNat 12 9
/-- KIND. -/
def msgKind (p : Packet) : Nat := bitsOf p.op6.toNat 8 6
/-- LSEM. -/
def msgLsem (p : Packet) : Nat := bitsOf p.op6.toNat 5 0

/-! ## Credits and semaphore adds of the queue unit -/

/-- A credit return to the sender of a message: entry in word 6, count in word 7 (R280). -/
def crdPkt (s : State) (c : CoreId) (m : MsgKey) (n : Nat) : Packet :=
  { kind := .crd, src := BitVec.ofNat 11 c.toNat, sport := 1, sdev := s.own, dst := m.node, dport := 1, ddev := m.dev,
    op6 := m.entry.setWidth 32, op7 := BitVec.ofNat 32 n }

/-- Returns `n` credits where the message is credited and `n` is above zero (R280). -/
def State.credit (s : State) (c : CoreId) (m : MsgKey) (cm : Bool) (n : Nat) : State :=
  if cm && decide (0 < n) then s.inject (crdPkt s c m n) else s

/-- A SEM packet for semaphore `i` of core `core` on device `d` (R303, Table 13.2). -/
def semPkt (s : State) (src : NodeId) (sport : BitVec 3) (tid : BitVec 12) (d : DevId) (core i op watch : Nat) (val : Word) (ord : Bool) : Packet :=
  { s.mkPkt .sem src sport tid (mkFAddr d (semAddr core i)) with
    ord, op6 := BitVec.ofNat 32 (op * 2 ^ 28 + kOf core * 2 ^ 24 + i * 2 ^ 18 + watch * 2 ^ 12), op7 := val }

/-- The queue unit adds 1 to a semaphore of its own core, unless it is 0x3F (R285, R288). -/
def State.queueAdd (s : State) (c : CoreId) (sem : Nat) : State :=
  if sem = 0x3F then s else s.inject (semPkt s (BitVec.ofNat 11 c.toNat) 1 0 s.own c.toNat sem 0 0 1 false)

/-! ## Message rows (R276-R285) -/

/-- A discarded row or contribution: counted, logged, Croak (R284, R289). -/
def State.discardRow (s : State) (c : CoreId) (p : Packet) : State :=
  (s.count 0x4040 1).logEv 0x0701 true (lf c.toNat ++ lf p.src.toNat ++ lf (msgRing p))

/-- Answers a packet with WACK. -/
def State.wack (s : State) (p : Packet) : State := s.inject (p.reply s.own .wack)

/-- Answers a packet with an ERR of status `st`. -/
def State.err (s : State) (p : Packet) (st : Nat) : State := s.inject (p.errReply s.own st)

/-- The marker row of a wrap (R277). -/
def markerRow : Row := { data := 0, side := tagBand 0xF001 }

/-- The row that a row packet writes: with SB the side band is written with the data, without it the side band stays (R116). -/
def landRow (old : Row) (p : Packet) : Row :=
  { data := p.data, side := if p.sb then p.side else old.side, err := .clean }

/-- Marks row `i` of the message `key` as landed in a list of records. -/
def landIn (key : MsgKey) (i : Nat) : List MsgRec → Option (MsgRec × List MsgRec)
  | [] => none
  | m :: ms =>
    if m.key = key ∧ m.complete = false ∧ i < m.len ∧ m.landed.getLsbD i = false then
      let m' := { m with landed := m.landed ||| BitVec.ofNat 8 (1 <<< i) }
      some (m', m' :: ms)
    else match landIn key i ms with
      | some (x, xs) => some (x, m :: xs)
      | none => none

/-- What a row 0 meets at the queue unit. -/
inductive Row0 where
  /-- judged discarded (R284) -/
  | discard
  /-- waits for room or a record (R279, R282); `viol` on a credited ring that is full (R283) -/
  | hold (viol : Bool)
  /-- accepted -/
  | take
deriving DecidableEq, Repr

/-- Tail rows that a message of `l` rows wastes in a ring (R276). -/
def Ring.waste (g : Ring) (size l : Nat) : Nat := if l ≤ size - g.w then 0 else size - g.w

/-- The judgement of row 0 (R276, R279, R283, R284). -/
def Queue.judge (q : Queue) (p : Packet) : Row0 :=
  let l := msgLen p
  let (all, inc) := q.records
  match msgKind p with
  | 0 =>
    let cfg := Table.get 0 q.rcfg (msgRing p)
    let g := q.ring (msgRing p)
    if rcEn cfg = false then .discard
    else if rcSize cfg < g.occ + l + g.waste (rcSize cfg) l then .hold (rcCm cfg)
    else if 256 ≤ all ∨ 16 ≤ inc then .hold false
    else .take
  | 1 =>
    match targetOf (localOf p.addr) with
    | .data _ pad r _ =>
      if pad = .w ∨ pad.rows < r + l then .discard
      else if 256 ≤ all ∨ 16 ≤ inc then .hold false
      else .take
    | _ => .discard
  | _ => .discard

/-- Writes row `i` of a landed RING message and publishes (R276, R278). -/
def State.ringLand (s : State) (c : CoreId) (p : Packet) (r : Nat) : Option State :=
  let k := s.core c
  let cfg := Table.get 0 k.que.rcfg r
  match landIn (msgKey p) (msgIdx p) (k.que.ring r).recs with
  | none => none
  | some (m, ms) =>
    let row := rcBase cfg + m.start + msgIdx p
    let k := k.putRow (rcPad cfg) row (landRow (k.row (rcPad cfg) row) p)
    some ((s.setCore c { k with que := k.que.setRing r { k.que.ring r with recs := ms } }).wack p)

/-- Writes a row of a DIRECT message; the last one frees the record and adds to LSEM (R285). -/
def State.directLand (s : State) (c : CoreId) (p : Packet) : Option State :=
  let k := s.core c
  match landIn (msgKey p) (msgIdx p) k.que.direct with
  | none => none
  | some (m, ms) =>
    let k := match targetOf (localOf p.addr) with
      | .data _ pad r _ => k.putRow pad r (landRow (k.row pad r) p)
      | _ => k
    let ms := if m.complete then ms.filter (fun x => x ≠ m) else ms
    let s := (s.setCore c { k with que := { k.que with direct := ms } }).wack p
    some (if m.complete then s.queueAdd c m.lsem.toNat else s)

/-- A later row, or the row 0 of an accepted message: it lands where its record stands, and is discarded otherwise (R284). -/
def State.landRowAt (s : State) (c : CoreId) (p : Packet) : State :=
  let out := match msgKind p with
    | 0 => s.ringLand c p (msgRing p)
    | 1 => s.directLand c p
    | _ => none
  match out with
  | some s => s
  | none => (s.discardRow c p).err p 1

/-- Allocates a message at row 0 (R276, R280): marker row, place, charge, and the credits that come back at once. -/
def State.allocate (s : State) (c : CoreId) (p : Packet) : State :=
  let k := s.core c
  let l := msgLen p
  if msgKind p = 0 then
    let r := msgRing p
    let cfg := Table.get 0 k.que.rcfg r
    let g := k.que.ring r
    let size := rcSize cfg
    let wst := g.waste size l
    let start := if wst = 0 then g.w else 0
    let k := if wst = 0 then k else k.putRow (rcPad cfg) (rcBase cfg + g.w) markerRow
    let m : MsgRec := { key := msgKey p, start, len := l, waste := wst, landed := 0, cm := msgCm p, lsem := 0x3F }
    let g' := { g with w := (start + l) % size, occ := g.occ + l + wst, recs := g.recs ++ [m] }
    (s.setCore c { k with que := k.que.setRing r g' }).credit c (msgKey p) (msgCm p) (l - 1 - wst)
  else
    let m : MsgRec := { key := msgKey p, start := 0, len := l, waste := 0, landed := 0, cm := false, lsem := BitVec.ofNat 6 (msgLsem p) }
    s.setCore c { k with que := { k.que with direct := k.que.direct ++ [m] } }

/-- A credit violation: RSTAT.CV sets; the first of a setting is logged and counted, with Croak (R283). -/
def State.violation (s : State) (c : CoreId) (r : Nat) : State :=
  let g := (s.core c).que.ring r
  if g.cv then s
  else
    let s := s.modCore c (fun k => { k with que := k.que.setRing r { g with cv := true } })
    (s.count 0x4040 2).logEv 0x0702 true (lf c.toNat ++ lf r)

/-! ## Combining queues (R286-R289) -/

/-- Whether a CMB packet's queue is enabled and its row lies in the queue's range (R287, R289). -/
def Queue.cmbRow (q : Queue) (p : Packet) : Option (Pad × Nat) :=
  let cfg := q.cqCfg (bitsOf p.op6.toNat 2 0)
  match targetOf (localOf p.addr) with
  | .data _ pad r _ =>
    if cfg.getLsbD 31 ∧ pad = cqPad cfg ∧ cqBase cfg ≤ r ∧ r < cqBase cfg + cqSize cfg then some (pad, r) else none
  | _ => none

/-- The target row after a contribution: the sum, or NaN in every element for a poisoned one (R262, R267, R287). -/
def combineRow (old : Row) (p : Packet) : Row :=
  { data := if p.psn then poisonRow p.rfmt.toNat else addRows p.rfmt.toNat old.data p.data,
    side := if p.sb then p.side else old.side, err := .clean }

/-- The count after a contribution of `n`: DONE at EXP, OVF after DONE (R288). -/
def CqStat.add (t : CqStat) (exp n : Nat) : CqStat :=
  let c := min (t.cnt.toNat + n) 0xFFFFFF
  { done := t.done || (decide (exp ≠ 0) && decide (exp ≤ c)), ovf := t.ovf || t.done, cnt := BitVec.ofNat 24 c }

/-- A contribution reaches its core: added and counted, or discarded (R287-R289). -/
def State.combine (s : State) (c : CoreId) (p : Packet) (e : Ecc) : State :=
  let i := bitsOf p.op6.toNat 2 0
  match (s.core c).que.cmbRow p with
  | none =>
    let s := s.discardRow c p
    if p.red then s else s.err p 1
  | some (pad, r) =>
    let s := if p.psn then s else s.localEcc c pad r e
    let k := s.core c
    let t := Table.get {} k.que.cqstat i
    let t' := t.add (Table.get 0 k.que.cqexp i).toNat p.cnt.toNat
    let k := k.putRow pad r (combineRow (k.row pad r) p)
    let s := s.setCore c { k with que := { k.que with cqstat := Table.putc {} k.que.cqstat i t' } }
    let s := if t'.done && !t.done then s.queueAdd c (cqSem (k.que.cqCfg i)) else s
    let s := if t'.ovf && !t.ovf then (s.count 0x4040 4).logEv 0x0703 true (lf c.toNat ++ lf i) else s
    if p.red then s else s.wack p

end Sys2Proof.Machine
end

