-- ==== Sys2Proof/Machine/Cache.lean ====
section
/-! DEFINITION. The data cache, its side buffer, its store buffer and the way memory of a core (R127-R136). -/

namespace Sys2Proof.Machine

/-! ## Lookup and replacement (R127) -/

/-- Set index of a line: address bits [12:6]. -/
def setOf (line : BitVec 50) : Nat := line.toNat % 128

/-- Ways that serve as cache: ways 0 to `n - 1` (R136). -/
def Lsu.ways (l : Lsu) : Nat := 4 - l.waymem.toNat

/-- The line in a way of a set. -/
def Lsu.wayAt (l : Lsu) (set way : Nat) : Option (BitVec 50 × BitVec 512) := Table.look l.lines (set * 4 + way)

/-- The lowest way below `n` of a set that satisfies `f`. -/
def Lsu.findWay (l : Lsu) (set : Nat) (f : Option (BitVec 50 × BitVec 512) → Bool) (n : Nat) : Option Nat :=
  (List.range n).find? (fun w => f (l.wayAt set w))

/-- The way that holds a line. -/
def Lsu.hit (l : Lsu) (line : BitVec 50) : Option Nat :=
  l.findWay (setOf line) (fun e => match e with | some x => decide (x.1 = line) | none => false) l.ways

/-- The side-buffer copy of a line. -/
def Lsu.sideHit (l : Lsu) (line : BitVec 50) : Option (BitVec 512) :=
  match l.side.find? (fun e => decide (e.1 = line)) with | some e => some e.2 | none => none

/-- Pseudo-LRU bits after a use of a way: bits 0, 1 and 2 are T0, T1 and T2, and 1 points to the higher side (R127). -/
def lruTouch (t : BitVec 3) (way : Nat) : BitVec 3 :=
  if way < 2 then setBits (setBits t 0 1 1) 1 1 (1 - way) else setBits (setBits t 0 1 0) 2 1 (3 - way)

/-- The way that the tree names among `n` cache ways (R127). -/
def lruVictim (t : BitVec 3) (n : Nat) : Nat :=
  if n = 1 then 0
  else if n = 2 ∨ t.getLsbD 0 = false then (if t.getLsbD 1 then 1 else 0)
  else if n = 3 then 2
  else if t.getLsbD 2 then 3 else 2

/-- A hit or fill of a way updates the tree. -/
def Lsu.touch (l : Lsu) (set way : Nat) : Lsu :=
  { l with lru := Table.put l.lru set (lruTouch (Table.get 0 l.lru set) way) }

/-- A line is filled into the way that R127 selects. -/
def Lsu.install (l : Lsu) (line : BitVec 50) (d : BitVec 512) : Lsu :=
  let set := setOf line
  let way := match l.findWay set (·.isNone) l.ways with
    | some w => w
    | none => lruVictim (Table.get 0 l.lru set) l.ways
  { l with lines := Table.put l.lines (set * 4 + way) (line, d) }.touch set way

/-- A line arrives in the side buffer; a ninth drops the oldest (R135). -/
def Lsu.sidePut (l : Lsu) (line : BitVec 50) (d : BitVec 512) : Lsu :=
  let s := l.side.filter (fun e => decide (e.1 ≠ line)) ++ [(line, d)]
  { l with side := if 8 < s.length then s.drop 1 else s }

/-! ## Bytes within a line -/

/-- `n` bytes of a line from offset `o`, as a number. -/
def lineNat (d : BitVec 512) (o n : Nat) : Nat := (d.toNat >>> (8 * o)) % 2 ^ (8 * n)
/-- A line with `n` bytes at offset `o` replaced. -/
def lineSet (d : BitVec 512) (o n v : Nat) : BitVec 512 := setBits d (8 * o) (8 * n) v
/-- The mask of `n` bytes at offset `o`. -/
def maskSet (m : BitVec 64) (o n : Nat) : BitVec 64 := setBits m o n (2 ^ n - 1)
/-- A line with the bytes that a mask names taken from `v`. -/
def lineMerge (d : BitVec 512) (m : BitVec 64) (v : BitVec 512) : BitVec 512 :=
  BitVec.ofNat 512 (packLE 8 ((List.range 64).map (fun i => (if m.getLsbD i then byteAt v i else byteAt d i).toNat)))

/-- A loaded value: extension of R74. -/
def extend (w : LoadWait) (v : Nat) : Word := if w.sext then sext (8 * w.width) v else BitVec.ofNat 32 v

/-- Offset of a load within its line. -/
def LoadWait.off (w : LoadWait) : Nat := w.addr.toNat % 64

/-! ## Store buffer (R130) -/

/-- The write that an entry is sent as: a CTRL store by its own width, merged bytes as one 64-byte write with byte enables in words 6 and 7, where 0 in both means all 64. [DESIGN CHOICE, log entry 17: unsafe] -/
def sbPkt (s : State) (c : CoreId) (tid : BitVec 12) (e : SbEntry) : Packet :=
  if e.ctrl then
    let p := s.mkPkt .wr (BitVec.ofNat 11 c.toNat) 0 tid e.addr
    p.withPayload (leBytes e.width (lineNat e.bytes (e.addr.toNat % 64) e.width))
  else
    let p := s.mkPkt .wr (BitVec.ofNat 11 c.toNat) 0 tid (BitVec.ofNat 56 (e.line.toNat * 64))
    { p with size := 5, data := e.bytes.setWidth 4096,
             op6 := if e.mask = BitVec.allOnes 64 then 0 else BitVec.ofNat 32 e.mask.toNat,
             op7 := if e.mask = BitVec.allOnes 64 then 0 else BitVec.ofNat 32 (e.mask.toNat >>> 32) }

/-- The oldest entry leaves (R130). -/
def State.sendOldest (s : State) (c : CoreId) : State :=
  let k := s.core c
  match k.lsu.sbuf with
  | [] => s
  | e :: es =>
    let tid := k.lsu.nextTid
    let s := s.setCore c { k with lsu := { k.lsu with sbuf := es, nextTid := tid + 1, outs := k.lsu.outs ++ [(tid, OutOp.store e.pc e.sd e.addr)] } }
    s.inject (sbPkt s c tid e)

/-- Sends the oldest `n` entries. -/
def State.sendN (s : State) (c : CoreId) : Nat → State
  | 0 => s
  | n + 1 => (s.sendOldest c).sendN c n

/-- Entries up to and including the last one of a line. -/
def sbDepth (line : BitVec 50) : List SbEntry → Nat
  | [] => 0
  | e :: es => let n := sbDepth line es; if n ≠ 0 then n + 1 else if e.line = line then 1 else 0

/-- Every buffered store to a line is sent, and with it every earlier one (R130). [DEDUCED, log entry 15: unsafe] -/
def State.sendLine (s : State) (c : CoreId) (line : BitVec 50) : State :=
  s.sendN c (sbDepth line (s.core c).lsu.sbuf)

/-- Whether a store of `line` merges into the youngest entry (R130). -/
def mergesInto (es : List SbEntry) (line : BitVec 50) : Bool :=
  match es.getLast? with | some e => decide (e.line = line) && !e.ctrl | none => false

/-- A MEM or MEMU store enters the store buffer (R130); the caller has seen to room. -/
def Lsu.buffer (l : Lsu) (line : BitVec 50) (o n v : Nat) (ctrl : Bool) (pc : PAddr) (sd : SdId) (addr : FAddr) : Lsu :=
  if !ctrl && mergesInto l.sbuf line then
    { l with sbuf := l.sbuf.dropLast ++ (l.sbuf.getLast?.toList.map (fun e =>
        { e with mask := maskSet e.mask o n, bytes := lineSet e.bytes o n v })) }
  else
    { l with sbuf := l.sbuf ++ [{ line, mask := maskSet 0 o n, bytes := lineSet 0 o n v, ctrl, pc, sd, addr, width := n }] }

/-- A MEM store meets the cache: hit, side-buffer hit, fill in flight (R130). -/
def Lsu.storeThrough (l : Lsu) (line : BitVec 50) (o n v : Nat) : Lsu :=
  match l.hit line with
  | some w =>
    match l.wayAt (setOf line) w with
    | some (t, d) => { l with lines := Table.put l.lines (setOf line * 4 + w) (t, lineSet d o n v) }.touch (setOf line) w
    | none => l
  | none =>
    if (l.sideHit line).isSome then
      { l with side := l.side.map (fun e => if e.1 = line then (e.1, lineSet e.2 o n v) else e) }
    else
      { l with fills := l.fills.map (fun f =>
          if f.line = line ∧ f.dropped = false then { f with mask := maskSet f.mask o n, merged := lineSet f.merged o n v } else f) }

/-! ## Fills (R129, R134) -/

/-- Demand misses in flight. -/
def Lsu.misses (l : Lsu) : Nat := (l.fills.filter (fun f => !f.pref)).length
/-- Prefetch fills in flight. -/
def Lsu.prefs (l : Lsu) : Nat := (l.fills.filter (·.pref)).length
/-- A fill in flight that a load may join (R129, R132). -/
def Lsu.filling (l : Lsu) (line : BitVec 50) : Bool := l.fills.any (fun f => decide (f.line = line) && !f.dropped)

/-- Starts a fill: buffered stores to the line first, then a 64-byte read with the order flag (R130). -/
def State.startFill (s : State) (c : CoreId) (line : BitVec 50) (pref : Bool) (soft : Option LoadWait) (ws : List LoadWait) : State :=
  let s := s.sendLine c line
  let k := s.core c
  let tid := k.lsu.nextTid
  let f : Fill := { tid, line, pref, soft, waiters := ws, mask := 0, merged := 0, dropped := false }
  let s := s.setCore c { k with lsu := { k.lsu with nextTid := tid + 1, fills := k.lsu.fills ++ [f] } }
  s.inject { s.mkPkt .rd (BitVec.ofNat 11 c.toNat) 0 tid (BitVec.ofNat 56 (line.toNat * 64)) with ord := true, size := 5 }

/-- Next-line prefetches of `n` lines from `line` on, below the segment's end (R134). -/
def State.nextLines (s : State) (c : CoreId) (line : BitVec 50) (top : Nat) : Nat → State
  | 0 => s
  | n + 1 =>
    let l := (s.core c).lsu
    let skip := (l.hit line).isSome || (l.sideHit line).isSome || l.filling line || decide (top ≤ line.toNat * 64) || decide (8 ≤ l.prefs)
    let s := if skip then s else s.startFill c line true none []
    s.nextLines c (line + 1) top n

/-- A demand or software load joins a fill in flight for its line (R129). -/
def Lsu.join (l : Lsu) (line : BitVec 50) (w : LoadWait) : Lsu :=
  { l with fills := l.fills.map (fun f =>
      if f.line = line ∧ f.dropped = false then { f with waiters := f.waiters ++ [{ w with mask := f.mask, seen := f.merged }] } else f) }

/-- A filled line arrives: loads complete, and the line is installed, put in the side buffer, or neither (R129, R130, R132, R134, R135). -/
def State.fillDone (s : State) (c : CoreId) (f : Fill) (d : BitVec 512) : State :=
  let k := s.core c
  let cpu := f.waiters.foldl (fun (u : Cpu) w => u.setReg w.reg (extend w (lineNat (lineMerge d w.mask w.seen) w.off w.width))) k.cpu
  let l := { k.lsu with fills := k.lsu.fills.filter (fun g => g.tid ≠ f.tid) }
  let d' := lineMerge d f.mask f.merged
  let l := if f.dropped then l
    else if f.pref && f.waiters.isEmpty then l.sidePut f.line d'
    else l.install f.line d'
  s.setCore c { k with cpu, lsu := l }

/-! ## Way memory (R136) -/

/-- Way of an offset in the way-memory window: way 3 first. -/
def wayOf (o : Nat) : Nat := 3 - o / 0x2000

/-- A byte of way memory: as written, or undefined since the way's conversion (R136). -/
def Lsu.wayByte (l : Lsu) (o : Nat) : Byte :=
  match Table.look l.wmem o with
  | some b => b
  | none => Config.wayByte (Table.get 0 l.wfree (wayOf o)) (o % 0x2000)

/-- `n` bytes of way memory as a number. -/
def Lsu.wayRead (l : Lsu) (o n : Nat) : Nat := leNat ((List.range n).map (fun i => l.wayByte (o + i)))

/-- Bytes written to way memory. -/
def Lsu.wayWrite (l : Lsu) (o : Nat) : List Byte → Lsu
  | [] => l
  | b :: bs => { l with wmem := Table.put l.wmem o b }.wayWrite (o + 1) bs

/-- Way `w` changes its role (R136): invalidated; its memory content is lost, and undefined where it becomes memory. -/
def State.flipWay (s : State) (c : CoreId) (w : Nat) (toMem : Bool) : State :=
  let (s, i) := if toMem then s.draw else (s, 0)
  s.modCore c (fun k => { k with lsu := { k.lsu with
    lines := k.lsu.lines.filter (fun e => decide (e.1 % 4 ≠ w)),
    wmem := k.lsu.wmem.filter (fun e => decide (wayOf e.1 ≠ w)),
    wfree := if toMem then Table.put k.lsu.wfree w i else Table.erase k.lsu.wfree w } })

/-- A write of DC_CTL (Table 5.8, R136). -/
def State.writeDcCtl (s : State) (c : CoreId) (v : Word) : State :=
  let old := (s.core c).lsu.waymem.toNat
  let new := v.toNat % 4
  let s := s.modCore c (fun k => { k with lsu := { k.lsu with dis := v.getLsbD 8, pfd := BitVec.ofNat 2 (bitsOf v.toNat 5 4), waymem := BitVec.ofNat 2 new } })
  [3, 2, 1].foldl (fun s w =>
    let was := decide (4 - w ≤ old)
    let is := decide (4 - w ≤ new)
    if was == is then s else s.flipWay c w is) s

/-- DC_CTL as read; no operation of it is ever in progress between two commands, so BUSY reads 0. -/
def Lsu.dcCtl (l : Lsu) : Word := BitVec.ofNat 32 (bnat l.dis * 256 + l.pfd.toNat * 16 + l.waymem.toNat)

/-- A write of DC_INV (Table 5.9, R132). -/
def State.writeDcInv (s : State) (c : CoreId) (v : DWord) : State :=
  let drop (l : Lsu) : Lsu :=
    if v.getLsbD 0 then l.dropAll else l.dropLines (lineOf (s.resolve (bitsOf v.toNat 55 6 * 64))) (bitsOf v.toNat 63 58 + 1)
  s.modCore c (fun k => { k with lsu := drop k.lsu })

end Sys2Proof.Machine
end

