-- ==== Sys2Proof/Machine/CoreCtl.lean ====
section
/-! DEFINITION. The control region of a core (Table 10.4): its registers, their widths, who reaches them, and what reads and writes do. -/

namespace Sys2Proof.Machine

/-- Who makes an access to a control region (R233, R234). -/
inductive Who where
  | own | cores | dma | mgmt | peer
deriving DecidableEq, Repr

/-- What a register write comes to. -/
inductive Acc where
  | ok (s : State)
  /-- refused with an error reply of the region's status -/
  | refuse
  /-- the machine stops -/
  | fault (f : Fault)

/-- Registers of a core's control region. -/
inductive CReg where
  | cd (i : Nat) | intp | inte | dcCtl | dcInv | mts (i : Nat) | ssd | ftc (t : Nat) | ftx (t : Nat) | ftinv (t : Nat)
  | sdLo (i : Nat) | sdHi (i : Nat) | rcfg (r : Nat) | rstat (r : Nat) | cqcfg (q : Nat) | cqstat (q : Nat) | cqexp (q : Nat)
  | qswc | sct (e : Nat) | rcCtl | rcStat | rcPc | rcId | res | ftab (w : Nat) | prog (k : Nat)
deriving DecidableEq, Repr

/-- The register at an offset, with its base offset and its width in bytes (Tables 10.4, 12.1, 16.6-16.8). [DEDUCED, log entry 26: unsafe] -/
def cregAt (o : Nat) : Option (CReg × Nat × Nat) :=
  if o < 0x20 then some (.cd (o / 4), o / 4 * 4, 4)
  else if o < 0x24 then some (.intp, 0x20, 4)
  else if o < 0x28 then some (.inte, 0x24, 4)
  else if o < 0x2C then some (.dcCtl, 0x28, 4)
  else if o < 0x30 then none
  else if o < 0x38 then some (.dcInv, 0x30, 8)
  else if o < 0x40 then none
  else if o < 0x50 then some (.mts ((o - 0x40) / 4), o / 4 * 4, 4)
  else if o < 0x54 then some (.ssd, 0x50, 4)
  else if o < 0x60 then none
  else if o < 0x80 then some (.ftc ((o - 0x60) / 4), o / 4 * 4, 4)
  else if o < 0xA0 then some (.ftx ((o - 0x80) / 4), o / 4 * 4, 4)
  else if o < 0xC0 then some (.ftinv ((o - 0xA0) / 4), o / 4 * 4, 4)
  else if o < 0x100 then none
  else if o < 0x180 then some ((if o % 16 < 8 then .sdLo ((o - 0x100) / 16) else .sdHi ((o - 0x100) / 16)), o / 8 * 8, 8)
  else if o < 0x200 then none
  else if o < 0x280 then some ((if o % 8 < 4 then .rcfg ((o - 0x200) / 8) else .rstat ((o - 0x200) / 8)), o / 4 * 4, 4)
  else if o < 0x2A0 then some (.cqcfg ((o - 0x280) / 4), o / 4 * 4, 4)
  else if o < 0x2C0 then some (.cqstat ((o - 0x2A0) / 4), o / 4 * 4, 4)
  else if o < 0x2E0 then some (.cqexp ((o - 0x2C0) / 4), o / 4 * 4, 4)
  else if o < 0x2E4 then some (.qswc, 0x2E0, 4)
  else if o < 0x300 then some (.res, o / 4 * 4, 4)
  else if o < 0x400 then some (.sct ((o - 0x300) / 8), o / 8 * 8, 8)
  else if o < 0x404 then some (.rcCtl, 0x400, 4)
  else if o < 0x408 then some (.rcStat, 0x404, 4)
  else if o < 0x40C then some (.rcPc, 0x408, 4)
  else if o < 0x410 then some (.rcId, 0x40C, 4)
  else if o < 0x500 then some (.res, o / 4 * 4, 4)
  else if o < 0x2000 then none
  else if o < 0x4000 then some (.ftab ((o - 0x2000) / 4), o / 4 * 4, 4)
  else if o < 0x8000 then none
  else some (.prog ((o - 0x8000) / 2), o / 2 * 2, 2)

/-- Whether a requester may read or write a register at an offset (the "Reached by" columns of Tables 10.4 and 12.1). -/
def cregReach (r : CReg) (o : Nat) (w : Who) (write : Bool) : Bool :=
  match w with
  | .mgmt => true
  | .peer => false
  | .own =>
    match r with
    | .sdLo _ => false | .sdHi _ => false
    | .rcCtl => false | .rcStat => false | .rcPc => false | .rcId => false
    | .res => decide (o < 0x300) && !write
    | .rcfg _ => !write | .rstat _ => !write | .cqcfg _ => !write | .cqstat _ => !write | .cqexp _ => !write
    | .qswc => !write | .sct _ => !write
    | _ => true
  | .cores =>
    match r with
    | .mts _ => !write
    | .ftc _ => true | .ftx _ => true | .ftinv _ => true | .ftab _ => true
    | _ => false
  | .dma =>
    match r with
    | .ftc _ => true | .ftx _ => true | .ftinv _ => true | .ftab _ => true | .prog _ => true
    | _ => false

/-- Tile status as read (Table 6.7). -/
def Tile.mts (t : Tile) : Word :=
  BitVec.ofNat 32 (bnat t.inuse * 2 ^ 31 + bnat t.busy * 2 ^ 30 + t.ms.toNat * 2 ^ 21 + t.ns.toNat * 2 ^ 16 + t.srow.toNat)

/-- RC_STAT.STATE (Table 16.7). -/
def RunSt.code : RunSt → Nat
  | .stopped => 0 | .running => 1 | .halted => 2 | .failed => 3

/-- SSD_CTL as read (Table 0.3). -/
def Queue.ssdCtl (q : Queue) : Word := BitVec.ofNat 32 (bnat q.ssdEvt * 2 ^ 31 + q.ssdLog.toNat * 2 + bnat q.ssdEn)

/-- A conversion descriptor; SCALE resets to 0x7F (Table 2.7). -/
def Cpu.cd (u : Cpu) (i : Nat) : Word := Table.get 0x7F000000 u.cds i

/-- A register as read. -/
def Core.readReg (k : Core) : CReg → Nat
  | .cd i => (k.cpu.cd i).toNat
  | .intp => k.cpu.intp.toNat
  | .inte => k.cpu.inte.toNat
  | .dcCtl => k.lsu.dcCtl.toNat
  | .dcInv => 0
  | .mts 0 => k.mat.fa0.mts.toNat
  | .mts 1 => k.mat.fa1.mts.toNat
  | .mts 2 => k.mat.ba0.mts.toNat
  | .mts _ => k.mat.ba1.mts.toNat
  | .ssd => k.que.ssdCtl.toNat
  | .ftc t => (Table.get 0 k.vec.ftc t).toNat
  | .ftx t => (Table.get 0 k.vec.ftx0 t).toNat
  | .ftinv t => (Table.get 0x3F800000 k.vec.ftinv t).toNat
  | .sdLo i => (Table.get 0 k.cpu.sds i).toNat % 2 ^ 64
  | .sdHi i => (Table.get 0 k.cpu.sds i).toNat / 2 ^ 64
  | .rcfg r => (Table.get 0 k.que.rcfg r).toNat
  | .rstat r => (k.que.ring r).stat.toNat
  | .cqcfg q => (k.que.cqCfg q).toNat
  | .cqstat q => (Table.get {} k.que.cqstat q).word.toNat
  | .cqexp q => (Table.get 0 k.que.cqexp q).toNat
  | .qswc => k.que.qswc.toNat
  | .sct e => (Table.get 0 k.que.sct e).toNat
  | .rcCtl => 0
  | .rcStat => k.run.st.code * 2 ^ 30 + k.run.spc.toNat
  | .rcPc => k.run.rcpc.toNat
  | .rcId => k.run.role.toNat * 2 ^ 16 + k.run.lcore.toNat
  | .res => 0
  | .ftab w => (Table.get 0 k.vec.ftab w).toNat
  | .prog a => (Table.get 0 k.cpu.prog a).toNat

/-- RUN (R379): a core that is not running starts at RC_PC at the level of SUPST, with CSR otherwise at its reset value. [DEDUCED, log entry 79: unsafe] -/
def Core.start (k : Core) (supst : Bool) : Core :=
  if k.run.st = .running then k
  else { k with cpu := { k.cpu with pc := k.run.rcpc, sup := supst, rso := true, ie := false, shadow := false },
                run := { k.run with st := .running, hold := .none, wait := .none, held := 0, stopRq := false, due := none },
                que := { k.que with qswc := 0, stalled := false } }

/-- A write of RCFG (R273, R274). -/
def Core.writeRcfg (k : Core) (r : Nat) (v : Word) : Option Core :=
  let old := Table.get 0 k.que.rcfg r
  let v := v &&& 0xC7FF01FF
  let en := rcEn v
  if rcEn old ∧ (old ^^^ v) &&& 0x7FFFFFFF ≠ 0 then none
  else if en ∧ (rcSize v < 2 ∨ (rcPad v).rows < rcBase v + rcSize v) then none
  else
    let q := { k.que with rcfg := Table.put k.que.rcfg r v }
    some { k with que := if en then q else q.setRing r {} }

/-- A write of CQCFG, under the same change rules (R286). -/
def Core.writeCqcfg (k : Core) (i : Nat) (v : Word) : Option Core :=
  let old := k.que.cqCfg i
  let v := v &&& 0x8FFFFF3F
  if old.getLsbD 31 ∧ (old ^^^ v) &&& 0x7FFFFFFF ≠ 0 then none
  else if v.getLsbD 31 ∧ (cqSize v < 1 ∨ (cqPad v).rows < cqBase v + cqSize v) then none
  else some { k with que := { k.que with cqcfg := Table.put k.que.cqcfg i v } }

/-- MSGID of a send-credit entry is read-only (Table 12.2). -/
def sctWrite (old : DWord) (v : Nat) : DWord := setBits (BitVec.ofNat 64 v) 12 7 (bitsOf old.toNat 18 12)

/-- A register write, its value cut to the register's width. -/
def State.writeCreg (s : State) (c : CoreId) (r : CReg) (v : Nat) : Acc :=
  let k := s.core c
  let w : Word := BitVec.ofNat 32 v
  let put (k : Core) : Acc := .ok (s.setCore c k)
  match r with
  | .cd i => put { k with cpu := { k.cpu with cds := Table.put k.cpu.cds i (w &&& 0xFFFF037F) } }
  | .intp => put { k with cpu := { k.cpu with intp := k.cpu.intp &&& ~~~(w.setWidth 4) } }
  | .inte => put { k with cpu := { k.cpu with inte := (w.setWidth 4) ||| 1 } }
  | .dcCtl => .ok (s.writeDcCtl c w)
  | .dcInv => .ok (s.writeDcInv c (BitVec.ofNat 64 v))
  | .mts _ => .ok s
  | .ssd => put { k with que := { k.que with ssdEvt := k.que.ssdEvt && !w.getLsbD 31, ssdLog := BitVec.ofNat 5 (bitsOf v 5 1), ssdEn := w.getLsbD 0 } }
  | .ftc t => put { k with vec := { k.vec with ftc := Table.put k.vec.ftc t (w &&& 0xF) } }
  | .ftx t => put { k with vec := { k.vec with ftx0 := Table.put k.vec.ftx0 t w } }
  | .ftinv t => put { k with vec := { k.vec with ftinv := Table.put k.vec.ftinv t w } }
  | .sdLo i => put { k with cpu := { k.cpu with sds := Table.put k.cpu.sds i (setBits (Table.get 0 k.cpu.sds i) 0 64 v &&& sdMask) } }
  | .sdHi i => put { k with cpu := { k.cpu with sds := Table.put k.cpu.sds i (setBits (Table.get 0 k.cpu.sds i) 64 64 v &&& sdMask) } }
  | .rcfg i => match k.writeRcfg i w with | some k => put k | none => .refuse
  | .rstat i => put { k with que := k.que.setRing i { k.que.ring i with cv := (k.que.ring i).cv && !w.getLsbD 31 } }
  | .cqcfg i => match k.writeCqcfg i w with | some k => put k | none => .refuse
  | .cqstat _ => .ok s
  | .cqexp i => put { k with que := { k.que with cqexp := Table.put k.que.cqexp i (w.setWidth 24) } }
  | .qswc => .ok s
  | .sct e => put { k with que := { k.que with sct := Table.put k.que.sct e (sctWrite (Table.get 0 k.que.sct e) v) } }
  | .rcCtl =>
    let s := if w.getLsbD 30 then s.stopReq c else s
    .ok (if w.getLsbD 31 then s.modCore c (fun k => k.start (w.getLsbD 29)) else s)
  | .rcStat => .ok s
  | .rcPc => put { k with run := { k.run with rcpc := w.setWidth 14 } }
  | .rcId => put { k with run := { k.run with role := BitVec.ofNat 16 (v / 65536), lcore := w.setWidth 10 } }
  | .res => .ok s
  | .ftab i => put { k with vec := { k.vec with ftab := Table.put k.vec.ftab i w } }
  | .prog a => put { k with cpu := { k.cpu with prog := Table.put k.cpu.prog a (w.setWidth 14) } }

/-- Whether an access of `n` bytes at `o` is one of the bulk accesses of R235: an aligned block of 64 or 512 bytes of program memory or of the function tables, by a DMA engine or the management subsystem. -/
def bulkOk (o n : Nat) (w : Who) : Bool :=
  (decide (w = .dma) || decide (w = .mgmt)) && (decide (n = 64) || decide (n = 512)) && decide (o % n = 0)
    && ((decide (0x2000 ≤ o) && decide (o + n ≤ 0x4000)) || (decide (0x8000 ≤ o) && decide (o + n ≤ 0x10000)))

/-- What the check of an access to a core's control region finds. -/
inductive CChk where
  | reg (r : CReg)
  | bulk
  | width
  | undef
deriving DecidableEq, Repr

/-- The checks of R15 and R232 on an access of `n` bytes at offset `o`. -/
def cregCheck (o n : Nat) (w : Who) (write : Bool) : CChk :=
  if bulkOk o n w then .bulk
  else match cregAt o with
    | none => .undef
    | some (r, base, wd) =>
      if base ≠ o ∨ wd ≠ n then .width
      else if cregReach r o w write then .reg r else .undef

/-- `n` bytes of program memory or function tables from offset `o` (R235). -/
def Core.bulkRead (k : Core) (o n : Nat) : Nat :=
  if o < 0x4000 then packLE 32 ((List.range (n / 4)).map (fun i => (Table.get 0 k.vec.ftab ((o - 0x2000) / 4 + i)).toNat))
  else packLE 16 ((List.range (n / 2)).map (fun i => (Table.get 0 k.cpu.prog ((o - 0x8000) / 2 + i)).toNat))

/-- `n` words or halfwords written from offset `o` on (R235). -/
def Core.bulkWrite (k : Core) (o : Nat) (v : Nat) : Nat → Core
  | 0 => k
  | n + 1 =>
    if o < 0x4000 then
      ({ k with vec := { k.vec with ftab := Table.put k.vec.ftab ((o - 0x2000) / 4) (BitVec.ofNat 32 v) } } : Core).bulkWrite (o + 4) (v >>> 32) n
    else
      ({ k with cpu := { k.cpu with prog := Table.put k.cpu.prog ((o - 0x8000) / 2) (BitVec.ofNat 14 v) } } : Core).bulkWrite (o + 2) (v >>> 16) n

/-- A read of `n` bytes of a core's control region by a requester other than the owning core: the value, or a refusal of status 0x5. -/
def State.coreCtlRead (s : State) (c : CoreId) (o n : Nat) (w : Who) : Option Nat :=
  match cregCheck o n w false with
  | .reg r => some ((s.core c).readReg r)
  | .bulk => some ((s.core c).bulkRead o n)
  | _ => none

/-- A write of `n` bytes of a core's control region by a requester other than the owning core. -/
def State.coreCtlWrite (s : State) (c : CoreId) (o n : Nat) (w : Who) (v : Nat) : Acc :=
  match cregCheck o n w true with
  | .reg r => s.writeCreg c r v
  | .bulk => .ok (s.modCore c (fun k => k.bulkWrite o v (if o < 0x4000 then n / 4 else n / 2)))
  | _ => .refuse

end Sys2Proof.Machine
end

