-- ==== Sys2Proof/Machine/CluCtl.lean ====
section
/-! DEFINITION. The control region of a cluster (Table 10.5): semaphore values, watch entries, DMA channel blocks and the synchronisation unit's registers. -/

namespace Sys2Proof.Machine

/-- Registers of a cluster's control region. -/
inductive KReg where
  | sem (i : Nat) | watch (w j : Nat)
  | dchCtl (c : Nat) | dchStat (c : Nat) | dchProg (c : Nat) | dchCrc (c : Nat) | dchBytes (c : Nat) | dchFaddr (c : Nat)
  | dchIt0 (c : Nat) | dchIt1 (c : Nat) | dchRes
  | suctl | sustat | vtbase | vctx
deriving DecidableEq, Repr

/-- The register at an offset, with its base offset and its width in bytes (Tables 10.5, 14.1, 13.8-13.11). -/
def kregAt (o : Nat) : Option (KReg × Nat × Nat) :=
  if o < 0xC00 then some (.sem (o / 4), o / 4 * 4, 4)
  else if o < 0x1000 then none
  else if o < 0x1800 then some (.watch ((o - 0x1000) / 32) (o % 32 / 8), o / 8 * 8, 8)
  else if o < 0x2000 then none
  else if o < 0x2200 then
    let c := (o - 0x2000) / 64
    let b := o / 64 * 64
    let x := o % 64
    if x < 4 then some (.dchCtl c, b, 4)
    else if x < 8 then some (.dchStat c, b + 4, 4)
    else if x < 0x10 then some (.dchProg c, b + 8, 8)
    else if x < 0x14 then some (.dchCrc c, b + 0x10, 4)
    else if x < 0x18 then some (.dchRes, b + 0x14, 4)
    else if x < 0x20 then some (.dchBytes c, b + 0x18, 8)
    else if x < 0x28 then some (.dchFaddr c, b + 0x20, 8)
    else if x < 0x2C then some (.dchIt0 c, b + 0x28, 4)
    else if x < 0x30 then some (.dchIt1 c, b + 0x2C, 4)
    else some (.dchRes, o / 4 * 4, 4)
  else if o < 0x3000 then none
  else if o < 0x3004 then some (.suctl, 0x3000, 4)
  else if o < 0x3008 then some (.sustat, 0x3004, 4)
  else if o < 0x3010 then some (.vtbase, 0x3008, 8)
  else if o < 0x3018 then some (.vctx, 0x3010, 8)
  else none

/-- Whether a requester reaches a register (Table 10.5); `near` says that a core belongs to the cluster. -/
def kregReach (r : KReg) (w : Who) (near write : Bool) : Bool :=
  match w with
  | .mgmt => true
  | .peer => false
  | .dma => match r with | .sem _ => !write | _ => false
  | _ =>
    match r with
    | .sem _ => !write
    | .watch _ _ => false
    | .suctl => false | .sustat => false | .vtbase => false | .vctx => false
    | _ => near && !write

/-- DCH_STAT.STATE (Table 14.3). -/
def ChSt.code : ChSt → Nat
  | .idle => 0 | .queued => 1 | .run => 2 | .wait => 3 | .done => 4 | .error => 5 | .aborted => 6

/-- DCH_STAT as read (Table 14.3). -/
def Chan.stat (h : Chan) : Word :=
  BitVec.ofNat 32 (h.st.code * 2 ^ 29 + (if h.st = .error then h.err.toNat * 2 ^ 25 + h.estat.toNat * 2 ^ 21 else 0) + bnat h.mgs * 2 ^ 20
    + h.owner.toNat * 2 ^ 16 + h.ipc.toNat)

/-- Channel `c` of a cluster. -/
def Cluster.chan (u : Cluster) (c : Nat) : Chan := Table.get {} u.chans c

/-- Armed watch entries (Table 13.9). -/
def Sync.narm (y : Sync) : Nat := (y.watches.filter (fun e => watchArm e.2)).length

/-- A register as read. -/
def Cluster.readReg (u : Cluster) : KReg → Nat
  | .sem i => (Table.get 0 u.sync.sems i).toNat
  | .watch w j => ((Table.get 0 u.sync.watches w).toNat >>> (64 * j)) % 2 ^ 64
  | .dchCtl c => bnat (u.chan c).dis * 2 ^ 30 + bnat (u.chan c).task * 2 ^ 29
  | .dchStat c => (u.chan c).stat.toNat
  | .dchProg c => (u.chan c).prog.toNat
  | .dchCrc c => (u.chan c).crc.toNat
  | .dchBytes c => (u.chan c).bytes.toNat
  | .dchFaddr c => (u.chan c).faddr.toNat
  | .dchIt0 c => (u.chan c).it0.toNat
  | .dchIt1 c => (u.chan c).it1.toNat
  | .dchRes => 0
  | .suctl => bnat u.sync.vm * 2 ^ 31
  | .sustat => u.sync.narm * 2 ^ 16 + u.sync.waits.length
  | .vtbase => u.sync.vtbase.toNat * 2 ^ 14
  | .vctx => u.sync.vctx.toNat

/-- Whether a change of VM meets the condition of R316: every core of the cluster stopped, and no SEM packet of one of them unanswered. -/
def State.vmQuiet (s : State) (cl : Nat) : Bool :=
  (List.range 16).all (fun k =>
    let r := s.core (BitVec.ofNat 10 (coreOfK cl k))
    decide (r.run.st ≠ .running) && r.lsu.sems.isEmpty && decide (r.run.hold = .none))

/-- A management write of word `j` of watch entry `w`: WCNT stays; a write that sets ARM is tested (R311, R312). -/
def State.writeWatch (s : State) (cl w j v : Nat) : State :=
  let e := Table.get 0 (s.clu cl).sync.watches w
  let e' := setBits (setBits e (64 * j) 64 v &&& watchMask) 96 32 (bitsOf e.toNat 127 96)
  let s := s.modSync cl (fun y => { y with watches := Table.put y.watches w e' })
  if j = 0 ∧ watchArm e' then s.testWatch cl w else s

/-- A cluster right after a warm start: WCNT counts on since the cold start (R13, Table 13.6). -/
def Cluster.warm (u : Cluster) : Cluster :=
  { Cluster.reset with sync := { Cluster.reset.sync with
      watches := u.sync.watches.map (fun e => (e.1, e.2 &&& setBits 0 96 32 0xFFFFFFFF)) } }

/-- Drops the translation buffer (Table 13.8). -/
def State.tbInv (s : State) (cl : Nat) : State := s.modSync cl (fun y => { y with tlb := [] })

/-- A register write by the management subsystem; cores and DMA engines write none of these. -/
def State.writeKreg (s : State) (cl : Nat) (r : KReg) (v : Nat) : Acc :=
  match r with
  | .sem i =>
    if 2 ^ 31 ≤ v then .refuse else .ok ((s.putSem cl i (BitVec.ofNat 32 v)).semChanged cl i)
  | .watch w j => .ok (s.writeWatch cl w j v)
  | .dchCtl c =>
    let s := s.setChan cl c { s.chan cl c with dis := v.testBit 30, task := v.testBit 29 }
    .ok (if v.testBit 31 ∨ v.testBit 30 then s.abortChan cl c else s)
  | .dchProg c =>
    if (s.chan cl c).st = .idle then .ok (s.setChan cl c { s.chan cl c with prog := BitVec.ofNat 56 v }) else .refuse
  | .suctl =>
    let vm := v.testBit 31
    if vm ≠ (s.clu cl).sync.vm ∧ s.vmQuiet cl = false then .fault .vmChangedLive
    else
      let s := s.modSync cl (fun y => { y with vm })
      .ok (if v.testBit 0 then s.tbInv cl else s)
  | .vtbase => .ok (s.modSync cl (fun y => { y with vtbase := BitVec.ofNat 26 (v / 2 ^ 14) }))
  | .vctx => .ok (s.modSync cl (fun y => { y with vctx := BitVec.ofNat 64 v }))
  | _ => .ok s

/-- The register an access of `n` bytes at `o` reaches, where R15 and R232 let it. -/
def kregCheck (o n : Nat) (w : Who) (near write : Bool) : Option KReg :=
  match kregAt o with
  | none => none
  | some (r, base, wd) => if base = o ∧ wd = n ∧ kregReach r w near write then some r else none

/-- A read of a cluster's control region; `none` is a refusal of status 0x5. -/
def State.cluCtlRead (s : State) (cl o n : Nat) (w : Who) (near : Bool) : Option Nat :=
  match kregCheck o n w near false with
  | some r => some ((s.clu cl).readReg r)
  | none => none

/-- A write of a cluster's control region. -/
def State.cluCtlWrite (s : State) (cl o n : Nat) (w : Who) (near : Bool) (v : Nat) : Acc :=
  match kregCheck o n w near true with
  | some r => s.writeKreg cl r v
  | none => .refuse

end Sys2Proof.Machine
end

