-- ==== Sys2Proof/Machine/Loads.lean ====
section
/-! DEFINITION. Scalar loads and stores (R74-R78), the store buffer and cache control commands (R130-R136). -/

namespace Sys2Proof.Machine

/-- A load leaves for its target uncached, after every buffered store to its line (R128, R130). -/
def State.loadOut (s : State) (c : CoreId) (w : LoadWait) (a : FAddr) (ord : Bool) : State :=
  let s := s.sendLine c (lineOf a)
  let k := s.core c
  let tid := k.lsu.nextTid
  let s := s.setCore c { k with lsu := { k.lsu with nextTid := tid + 1, outs := k.lsu.outs ++ [(tid, OutOp.load w)] } }
  s.inject { s.mkPkt .rd (BitVec.ofNat 11 c.toNat) 0 tid a with ord, size := sizeCode w.width }

/-- The load's value is written. -/
def State.loaded (s : State) (c : CoreId) (w : LoadWait) (v : Nat) : Exec := .done (s.setReg c w.reg (extend w v))

/-- A software prefetch, or a demand load that misses and finds no fill to join (R129, R134). -/
def State.missLoad (s : State) (c : CoreId) (w : LoadWait) (line : BitVec 50) (top : Nat) : Exec :=
  let l := (s.core c).lsu
  if w.reg = 0 then
    if 8 ≤ l.prefs then .done s else .done (s.startFill c line true (some w) [])
  else if 4 ≤ l.misses then .wait .other
  else .done ((s.startFill c line false none [w]).nextLines c (line + 1) top l.pfd.toNat)

/-- A load joins a fill in flight; a software prefetch that meets a prefetch only leaves its name for an error (R129, R134). -/
def Lsu.joinLoad (l : Lsu) (line : BitVec 50) (w : LoadWait) : Lsu :=
  if w.reg = 0 ∧ l.fills.any (fun f => decide (f.line = line) && !f.dropped && f.pref) then
    { l with fills := l.fills.map (fun f => if f.line = line ∧ f.dropped = false ∧ f.soft = none then { f with soft := some w } else f) }
  else l.join line w

/-- A load through the cache (R127-R135); `par` is a parity error on a hit (R133). [DEDUCED, log entry 14: unsafe] [DESIGN CHOICE, log entry 179: unsafe] -/
def State.cachedLoad (s : State) (c : CoreId) (w : LoadWait) (a : FAddr) (top : Nat) (par : Bool) : Exec :=
  let line := lineOf a
  let l := (s.core c).lsu
  let present := (l.hit line).isSome || (l.sideHit line).isSome
  if par && present then
    let l' := { l with lines := l.lines.filter (fun e => decide (e.2.1 ≠ line)), side := l.side.filter (fun e => decide (e.1 ≠ line)) }
    ((s.modCore c (fun k => { k with lsu := l' })).count 0x4020 3).missLoad c w line top
  else match l.hit line with
    | some way =>
      match l.wayAt (setOf line) way with
      | some (_, d) => (s.modCore c (fun k => { k with lsu := l.touch (setOf line) way })).loaded c w (lineNat d w.off w.width)
      | none => .done s
    | none =>
      match l.sideHit line with
      | some d =>
        let l' := { l with side := l.side.filter (fun e => decide (e.1 ≠ line)) }
        (s.modCore c (fun k => { k with lsu := l'.install line d })).loaded c w (lineNat d w.off w.width)
      | none =>
        if l.filling line then .done (s.modCore c (fun k => { k with lsu := l.joinLoad line w }))
        else s.missLoad c w line top

/-- Encoding of a load or store: field A from g and gi, field B from sd, width code, store bit, sign bit and d (R74). -/
def ldstWords (g gi : Reg) (sd : SdId) (wc st sx : Nat) (d : BitVec 7) : List Nat :=
  enc2 0x33 (g.toNat * 16 + gi.toNat) (sd.toNat * 2 ^ 11 + wc * 2 ^ 9 + st * 2 ^ 8 + sx * 2 ^ 7 + d.toNat)

/-- A scalar load of `2 ^ wc` bytes (R74, R76, R128-R136). -/
def loadForm (s : State) (c : CoreId) (g gi : Reg) (sd : SdId) (d : BitVec 7) (wc : Nat) (sx par : Bool) : Out :=
  let n := 2 ^ wc
  .next (s.issue c (ldstWords g gi sd wc 0 (bnat sx) d) [g, gi] (fun t =>
    let k := t.core c
    let desc := k.cpu.seg sd
    let off := (t.reg c gi).toNat + d.toNat * n
    let addr := sdBase desc + off
    let fa : FAddr := BitVec.ofNat 56 addr
    match segCheck t c sd desc false off n with
    | .error f => .trip t f
    | .ok tgt =>
      let w : LoadWait := { reg := g, width := n, sext := sx, addr := fa, pc := k.cpu.pc, sd }
      match tgt with
      | .way _ o =>
        if k.lsu.waymem.toNat * 0x2000 ≤ o then .trip t { vec := 3, sub := 3, info := sd.toNat, faddr := fa }
        else if par then .done (t.modCore c (fun k => k.respFault { vec := 3, sub := 4, info := sd.setWidth 32, faddr := fa, fpc := k.cpu.pc }))
        else t.loaded c w (k.lsu.wayRead o n)
      | _ =>
        match ownCtl t c addr tgt with
        | some o =>
          match cregCheck o n .own false with
          | .reg r => t.loaded c w (k.readReg r)
          | .width => .trip t { vec := 2, sub := 1, info := sd.toNat, faddr := fa }
          | _ => .trip t { vec := 3, sub := 5, info := sd.toNat, faddr := fa }
        | none =>
          if sdKind desc = 0 ∧ k.lsu.dis = false then t.cachedLoad c w (t.resolve addr) ((t.resolve (sdBase desc)).toNat + sdLimit desc) par
          else .done (t.loadOut c w (t.resolve addr) (decide (sdKind desc ≤ 1)))))

/-- A scalar store of `2 ^ wc` bytes (R74, R76, R130, R132, R136). [DESIGN CHOICE, log entry 178: unsafe] -/
def storeForm (s : State) (c : CoreId) (g gi : Reg) (sd : SdId) (d : BitVec 7) (wc : Nat) : Out :=
  let n := 2 ^ wc
  .next (s.issue c (ldstWords g gi sd wc 1 0 d) [g, gi] (fun t =>
    let k := t.core c
    let desc := k.cpu.seg sd
    let off := (t.reg c gi).toNat + d.toNat * n
    let addr := sdBase desc + off
    let fa : FAddr := BitVec.ofNat 56 addr
    let v := (t.reg c g).toNat % 2 ^ (8 * n)
    match segCheck t c sd desc true off n with
    | .error f => .trip t f
    | .ok tgt =>
      match tgt with
      | .way _ o =>
        if k.lsu.waymem.toNat * 0x2000 ≤ o then .trip t { vec := 3, sub := 3, info := sd.toNat, faddr := fa }
        else .done (t.modCore c (fun k => { k with lsu := k.lsu.wayWrite o (leBytes n v) }))
      | _ =>
        match ownCtl t c addr tgt with
        | some o =>
          match cregCheck o n .own true with
          | .reg r =>
            match t.writeCreg c r v with
            | .ok t' => .done t'
            | _ => .trip t { vec := 3, sub := 5, info := sd.toNat, faddr := fa }
          | .width => .trip t { vec := 2, sub := 1, info := sd.toNat, faddr := fa }
          | _ => .trip t { vec := 3, sub := 5, info := sd.toNat, faddr := fa }
        | none =>
          let a := t.resolve addr
          let ctrl := decide (sdKind desc = 3)
          if 8 ≤ k.lsu.sbuf.length ∧ (ctrl || !mergesInto k.lsu.sbuf (lineOf a)) then .wait .other
          else
            let l := if sdKind desc = 0 ∧ k.lsu.dis = false then k.lsu.storeThrough (lineOf a) (addr % 64) n v else k.lsu
            .done (t.modCore c (fun k => { k with lsu := l.buffer (lineOf a) (addr % 64) n v ctrl k.cpu.pc sd fa }))))

/-- LD_B (R74): byte load, zero-extended. -/
def execLdB (c : CoreId) (g gi : Reg) (sd : SdId) (d : BitVec 7) (par : Bool) (s : State) : Out := loadForm s c g gi sd d 0 false par
/-- LD_BS (R74): byte load, sign-extended. -/
def execLdBS (c : CoreId) (g gi : Reg) (sd : SdId) (d : BitVec 7) (par : Bool) (s : State) : Out := loadForm s c g gi sd d 0 true par
/-- LD_H (R74): half-word load, zero-extended. -/
def execLdH (c : CoreId) (g gi : Reg) (sd : SdId) (d : BitVec 7) (par : Bool) (s : State) : Out := loadForm s c g gi sd d 1 false par
/-- LD_HS (R74): half-word load, sign-extended. -/
def execLdHS (c : CoreId) (g gi : Reg) (sd : SdId) (d : BitVec 7) (par : Bool) (s : State) : Out := loadForm s c g gi sd d 1 true par
/-- LD_W (R74): word load. -/
def execLdW (c : CoreId) (g gi : Reg) (sd : SdId) (d : BitVec 7) (par : Bool) (s : State) : Out := loadForm s c g gi sd d 2 false par
/-- ST_B (R74): byte store. -/
def execStB (c : CoreId) (g gi : Reg) (sd : SdId) (d : BitVec 7) (s : State) : Out := storeForm s c g gi sd d 0
/-- ST_H (R74): half-word store. -/
def execStH (c : CoreId) (g gi : Reg) (sd : SdId) (d : BitVec 7) (s : State) : Out := storeForm s c g gi sd d 1
/-- ST_W (R74): word store. -/
def execStW (c : CoreId) (g gi : Reg) (sd : SdId) (d : BitVec 7) (s : State) : Out := storeForm s c g gi sd d 2

/-- STORE_BUFFER_SEND (R130): the oldest store-buffer entry leaves as one write. -/
def execStoreBufferSend (c : CoreId) (s : State) : Out :=
  if s.coreOn c.toNat then .next (s.sendOldest c) else .next s

/-- DC_INV_LINES (R132): a write of DC_INV with ALL = 0 invalidates CNT + 1 lines. -/
def execDcInvLines (c : CoreId) (v : DWord) (s : State) : Out :=
  if s.coreOn c.toNat ∧ v.getLsbD 0 = false then .next (s.writeDcInv c v) else .next s

/-- DC_INV_ALL (R132): a write of DC_INV with ALL = 1 invalidates every line and side-buffer entry. -/
def execDcInvAll (c : CoreId) (s : State) : Out :=
  if s.coreOn c.toNat then .next (s.writeDcInv c 1) else .next s

/-- DC_CTL_WRITE (Table 5.8, R136): DIS, PFD and WAYMEM take the written value. -/
def execDcCtlWrite (c : CoreId) (v : Word) (s : State) : Out :=
  if s.coreOn c.toNat then .next (s.writeDcCtl c v) else .next s

end Sys2Proof.Machine
end

