-- ==== Sys2Proof/Machine/Matrix.lean ====
section
/-! DEFINITION. The matrix engines of a core (chapter 6): commands, passes, drains and tile transfers. -/

namespace Sys2Proof.Machine

/-! ## Descriptors and shapes (Tables 6.1-6.4) -/

/-- Engine of a tile: tiles 0 and 1 are the F-engine's (R138). -/
def engOf (t : TileId) : Engine := if t.toNat < 2 then .f else .b
/-- Largest M of a tile (Table 6.1). -/
def maxM (t : TileId) : Nat := if t.toNat < 2 then 16 else 32
/-- MOD fields. -/
def modT (v : Word) : Bool := v.getLsbD 31
/-- Memory of an operand. -/
def modPad (v : Word) : Pad := if v.getLsbD 30 then .a else .w
/-- FMT. -/
def modFmt (v : Word) : Nat := bitsOf v.toNat 29 26
/-- ROW. -/
def modRow (v : Word) : Nat := bitsOf v.toNat 25 16
/-- ISTR. -/
def modIstr (v : Word) : Nat := bitsOf v.toNat 15 8
/-- PSTR, or EOFF where T = 1. -/
def modPstr (v : Word) : Nat := bitsOf v.toNat 7 0
/-- M of a shape word. -/
def mshM (v : Word) : Nat := bitsOf v.toNat 4 0 + 1
/-- N. -/
def mshN (v : Word) : Nat := bitsOf v.toNat 9 5 + 1
/-- Groups G = KG + 1. -/
def mshG (v : Word) : Nat := bitsOf v.toNat 25 10 + 1

/-- Operand family of a format, and whether it permits a transposed operand (Table 6.2). -/
def family (f : Nat) : Option (Nat × Bool) :=
  match f with
  | 4 => some (0, false) | 5 => some (0, false) | 9 => some (1, false)
  | 6 => some (2, false) | 7 => some (2, false) | 8 => some (3, false)
  | 1 => some (4, true) | 2 => some (5, true)
  | _ => none

/-- Groups per row of a format (Table 6.2). -/
def gpr (f : Nat) : Nat :=
  match f with
  | 6 => 20 | 7 => 20 | 8 => 30 | 1 => 8 | 2 => 8 | _ => 16

/-- Whether the instruction's passes are narrow (R144). -/
def narrow (l r : Word) : Bool := modT l || modT r

/-- Passes of an instruction (R144). -/
def passCount (l r msh : Word) : Nat :=
  if narrow l r then mshG msh else (mshG msh + gpr (modFmt l) - 1) / gpr (modFmt l)

/-- Last row of an operand of `d` rows (R154). -/
def lastRow (v : Word) (nar : Bool) (d kp : Nat) : Nat :=
  if modT v then modRow v + (32 * kp - 1) * modIstr v
  else if nar then modRow v + (d - 1) * modIstr v + (kp - 1) / 8 * modPstr v
  else modRow v + (d - 1) * modIstr v + (kp - 1) * modPstr v

/-- Whether an operand of `d` rows leaves its memory or its stored rows (Table 6.9, SUB 3 and 4). -/
def operandBeyond (v : Word) (nar : Bool) (d kp : Nat) : Bool :=
  decide ((modPad v).rows ≤ lastRow v nar d kp) || (modT v && decide (epr (modFmt v) < 16 * modPstr v + d))

/-! ## Tiles -/

/-- The engine state of a core. -/
def Matrix.eng (m : Matrix) : Engine → EngineSt
  | .f => m.f | .b => m.b
/-- The matrix state with an engine replaced. -/
def Matrix.setEng (m : Matrix) (e : Engine) (v : EngineSt) : Matrix :=
  match e with | .f => { m with f := v } | .b => { m with b := v }

/-- Stage buffers in use: passes requested whose last step has not ended (Table 6.1, R155). -/
def EngineSt.used (e : EngineSt) : Nat :=
  e.queue.length + (match e.array with | some r => if r.left = 0 then 0 else 1 | none => 0)

/-- Whether a pass of the engine is for the tile. -/
def EngineSt.holds (e : EngineSt) (t : TileId) : Bool :=
  e.queue.any (fun p => decide (p.tile = t))
    || (match e.array with | some r => decide (r.pass.tile = t) | none => false)
    || (match e.tail with | some r => decide (r.pass.tile = t) | none => false)

/-- An element of a tile, index 32m + n (R139). -/
def Tile.elem (t : Tile) (e : Nat) : Word := Table.get 0 t.elems e

/-- Stored rows that an operand's pass reads, in operand-row order, or in K order for a transposed operand (R144). -/
def passRows (v : Word) (nar : Bool) (d p : Nat) : List Nat :=
  if modT v then (List.range 32).map (fun k => modRow v + (32 * p + k) * modIstr v)
  else if nar then (List.range d).map (fun i => modRow v + i * modIstr v + p / 8 * modPstr v)
  else (List.range d).map (fun i => modRow v + i * modIstr v + p * modPstr v)

/-- The stored rows of one port of a pass, with their memory: the left operand's or the right one's. -/
def Pass.rows (q : Pass) (right : Bool) : Pad × List Nat :=
  if right then (modPad q.right, passRows q.right (narrow q.left q.right) (mshN q.msh) q.idx)
  else (modPad q.left, passRows q.left (narrow q.left q.right) (mshM q.msh) q.idx)

/-- Rows of one port delivered to the pass's stage buffer. -/
def Pass.got (q : Pass) (right : Bool) : List Row := if right then q.rrows else q.lrows

/-- The next row that a port requests for the pass, if one is left (R155). -/
def Pass.want (q : Pass) (right : Bool) : Option (Pad × Nat) :=
  ((q.rows right).2[(q.got right).length]?).map (fun r => ((q.rows right).1, r))

/-- The pass with one more row of a port delivered. -/
def Pass.give (q : Pass) (right : Bool) (x : Row) : Pass :=
  if right then { q with rrows := q.rrows ++ [x] } else { q with lrows := q.lrows ++ [x] }

/-- A row delivered to the first pass that wants one. -/
def giveFirst (right : Bool) (x : Row) : List Pass → List Pass
  | [] => []
  | q :: qs => if (q.want right).isSome then q.give right x :: qs else q :: giveFirst right x qs

/-- Whether a requested pass whose rows are not all delivered has an operand in a memory (R158). -/
def Core.passReads (k : Core) (m : Pad) : Bool :=
  (k.mat.f.queue ++ k.mat.b.queue).any (fun q => ((q.want false).isSome || (q.want true).isSome)
    && (decide (modPad q.left = m) || decide (modPad q.right = m)))

/-! ## mm (R145, R146, R154) -/

/-- The tile shape check of an mm (Table 6.9): SUB and INFO of the first condition that holds. -/
def mmShape (t : Tile) (tile : TileId) (l r msh : Word) (clr : Bool) : Option (Nat × Word) :=
  let m := mshM msh
  let n := mshN msh
  let nar := narrow l r
  let kp := passCount l r msh
  let acc := !clr || decide (t.srow ≠ 0)
  if bitsOf msh.toNat 31 26 ≠ 0 ∨ maxM tile < m then some (0, msh)
  else match family (modFmt l), family (modFmt r) with
    | none, _ => some (1, l)
    | some _, none => some (1, r)
    | some (fl, tl), some (fr, tr) =>
      if fl ≠ fr then some (1, r)
      else if modT l && !tl then some (2, l)
      else if modT r && !tr then some (2, r)
      else if operandBeyond l nar m kp then some (3, l)
      else if operandBeyond r nar n kp then some (4, r)
      else if acc && !t.inuse then some (5, msh)
      else if acc && (decide (t.ms.toNat + 1 ≠ m) || decide (t.ns.toNat + 1 ≠ n)) then some (6, msh)
      else if kp ≤ t.srow.toNat then some (7, msh)
      else none

/-- Requests pass `i` of an mm (R146): into a stage buffer, SROW naming it, or 0 once it is the last. -/
def Core.requestPass (k : Core) (tile : TileId) (l r msh : Word) (clr : Bool) (i kp : Nat) : Core :=
  let e := k.mat.eng (engOf tile)
  let p : Pass := { tile, left := l, right := r, msh, clr := clr && decide (i = 0), idx := i }
  let k := { k with mat := k.mat.setEng (engOf tile) { e with queue := e.queue ++ [p] } }
  k.modTile tile (fun t => { t with busy := true, srow := if i + 1 = kp then 0 else BitVec.ofNat 16 i })

/-- MM (R145, R146, R154). -/
def execMm (c : CoreId) (tile : TileId) (gl gs : Reg) (clr : Bool) (s : State) : Out :=
  let ws := enc2 0x36 (gl.toNat * 16 + gs.toNat) (tile.toNat * 2 ^ 12 + bnat clr * 2 ^ 11)
  .next (s.issue c ws [gl, gl + 1, gs] (fun t =>
    let k := t.core c
    let l := t.reg c gl
    let r := t.reg c (gl + 1)
    let msh := t.reg c gs
    let tl := k.mat.tile tile
    if gl.toNat % 2 ≠ 0 then illegal t ws 2
    else if 2 ≤ (k.mat.eng (engOf tile)).used then .wait .other
    else match mmShape tl tile l r msh clr with
      | some (sub, info) => .trip t { vec := 5, sub, info := info.toNat, tile := tile.toNat }
      | none =>
        let kp := passCount l r msh
        let i := tl.srow.toNat
        let k := if clr ∧ i = 0 then
            k.modTile tile (fun t => { t with inuse := true, ms := BitVec.ofNat 5 (mshM msh - 1), ns := BitVec.ofNat 5 (mshN msh - 1) })
          else k
        let k := k.requestPass tile l r msh clr i kp
        if i + 1 = kp then .done (t.setCore c k)
        else .stay (t.setCore c { k with run := { k.run with hold := .mm tile l r msh clr (i + 1) kp k.cpu.pc } })))

/-- MM_PASS_REQUEST (R146): the mm that holds issue requests its next pass as soon as a stage buffer of the engine is free. -/
def execMmPassRequest (c : CoreId) (eng : Engine) (s : State) : Out :=
  let k := s.core c
  match k.run.hold with
  | .mm tile l r msh clr next kp pc =>
    if s.coreOn c.toNat && decide (engOf tile = eng) && decide ((k.mat.eng eng).used < 2) && !s.beat.frz && decide (k.run.st = .running) then
      let k := k.requestPass tile l r msh clr next kp
      if next + 1 = kp then .next ((s.setCore c k).complete c pc 2)
      else .next (s.setCore c { k with run := { k.run with hold := .mm tile l r msh clr (next + 1) kp pc } })
    else .next s
  | _ => .next s

/-! ## Passes in the array (R141, R144, R155) -/

/-- Groups of 32 K elements in a pass (R144). -/
def passGroups (q : Pass) : Nat :=
  if narrow q.left q.right then 1
  else min (gpr (modFmt q.left)) (mshG q.msh - q.idx * gpr (modFmt q.left))

/-- The 32 elements of group `g` of operand row `i` (R144). -/
def groupElems (v : Word) (nar : Bool) (p : Nat) (rows : List Row) (i g : Nat) : List FVal :=
  if modT v then rows.map (fun r => rowElem (modFmt v) r (16 * modPstr v + i))
  else
    let r := rows.getD i Row.zero
    let base := if nar then 32 * (p % 8) else 32 * g
    (List.range 32).map (fun k => rowElem (modFmt v) r (base + k))

/-- The steps of a pass on one element, in increasing K (R141). -/
def passElem (q : Running) (m n : Nat) (a : Word) : Word :=
  let nar := narrow q.pass.left q.pass.right
  (List.range (passGroups q.pass)).foldl (fun a g =>
    accStep a (List.zipWith FVal.mul (groupElems q.pass.left nar q.pass.idx q.lrows m g)
      (groupElems q.pass.right nar q.pass.idx q.rrows n g))) a

/-- Tile elements after a pass: a clearing pass starts from +0, the others from the tile (R141, R146). -/
def passTile (q : Running) (t : Tile) : Tile :=
  let n := mshN q.pass.msh
  let cells := (List.range (mshM q.pass.msh)).flatMap (fun m => (List.range n).map (fun j => (m, j)))
  let old := if q.pass.clr then [] else t.elems
  { t with elems := cells.foldl (fun es (m, j) =>
      Table.putc 0 es (32 * m + j) (passElem q m j (Table.get 0 old (32 * m + j)))) old }

/-- Cycles of one step (Table 6.2). -/
def stepCycles (f : Nat) : Nat :=
  match f with | 1 => 64 | 2 => 64 | 6 => 16 | 7 => 16 | 8 => 16 | _ => 32

/-- PASS_BEGIN (R155): the pass at the head of the engine's stage buffers enters the array, whose earlier pass has ended its last step; rows that the cycles since its request have not delivered are delivered now, and `ecc` is what the check bits newly show of the first of the left port (R126). [DESIGN CHOICE, log entry 51: safe] [DESIGN CHOICE, log entry 52: safe] -/
def execPassBegin (c : CoreId) (eng : Engine) (ecc : Ecc) (s : State) : Out :=
  let k := s.core c
  let e := k.mat.eng eng
  match e.queue with
  | [] => .next s
  | p :: ps =>
    if s.coreOn c.toNat && e.tail.isNone && !s.beat.frz then
      let lrs := (p.rows false).2.drop p.lrows.length
      let rrs := (p.rows true).2.drop p.rrows.length
      let q : Running := { pass := { p with lrows := [], rrows := [] }, lrows := p.lrows ++ lrs.map (k.row (modPad p.left)),
                           rrows := p.rrows ++ rrs.map (k.row (modPad p.right)), left := passGroups p * stepCycles (modFmt p.left) }
      let keep := match e.array with | some r => decide (r.pass.tile = p.tile) | none => false
      let k := { k with mat := k.mat.setEng eng { queue := ps, array := some q, tail := e.array } }
      let k := if p.clr && !keep then k.modTile p.tile (fun t => { t with elems := [] }) else k
      .next (((s.setCore c k).portReads c (modPad p.left) lrs ecc).portReads c (modPad p.right) rrs .clean)
    else .next s

/-- One cycle of a port of an engine (R155): the first pass that wants a row gets its next one. -/
def State.operandCycle (s : State) (c : CoreId) (eng : Engine) (right : Bool) : State :=
  match (s.core c).mat.eng eng |>.queue.findSome? (fun q => q.want right) with
  | none => s
  | some (m, r) =>
    (s.modCore c (fun k =>
      let e := k.mat.eng eng
      { k with mat := k.mat.setEng eng { e with queue := giveFirst right (k.row m r) e.queue } })).portReads c m [r] .clean

/-- Whether the array throttle at duty `d` lets an array advance in a cycle of its clock (R461): d of every 8, evenly spaced. [DESIGN CHOICE, log entry 176: unsafe] -/
def dutyEdge (d cyc : Nat) : Bool := decide (cyc % 8 * d / 8 < (cyc % 8 + 1) * d / 8)

/-- One cycle of the steps of the pass in an engine's array. -/
def EngineSt.stepCycle (e : EngineSt) : EngineSt :=
  { e with array := e.array.map (fun r => { r with left := r.left - 1 }) }

/-- PASS_SUMS_WRITTEN (R155): the sums of the pass whose steps have ended are written into its tile; BUSY clears where no further pass for the tile is requested. -/
def execPassSumsWritten (c : CoreId) (eng : Engine) (s : State) : Out :=
  let k := s.core c
  let e := k.mat.eng eng
  let pick := match e.tail, e.array with
    | some q, _ => some (q, { e with tail := none })
    | none, some q => some (q, { e with array := none })
    | none, none => none
  match pick with
  | none => .next s
  | some (q, e') =>
    if s.coreOn c.toNat && !s.beat.frz then
      let k := k.modTile q.pass.tile (passTile q)
      let k := { k with mat := k.mat.setEng eng e' }
      .next (s.setCore c (k.modTile q.pass.tile (fun t => { t with busy := e'.holds q.pass.tile })))
    else .next s

/-! ## mdrain and mrel (R147, R149) -/

/-- The drain destination word (Table 6.6). -/
def drainPad (v : Word) : Pad := if v.getLsbD 9 then .p else .a

/-- Pieces of a list of `n` elements each; `fuel` bounds their number. -/
def pieces {α : Type} (n : Nat) : Nat → List α → List (List α)
  | 0, _ => []
  | fuel + 1, xs => if xs.isEmpty then [] else xs.take n :: pieces n fuel (xs.drop n)

/-- Elements of the configured shape in drain order (R147). -/
def Tile.shaped (t : Tile) : List FVal :=
  (List.range (t.ms.toNat + 1)).flatMap (fun m => (List.range (t.ns.toNat + 1)).map (fun n => fp32.decode (t.elem (32 * m + n)).toNat))

/-- Writes converted rows one after the other. -/
def Core.putRows (k : Core) (m : Pad) (r : Nat) : List Row → Core
  | [] => k
  | x :: xs => (k.putRow m r x).putRows m (r + 1) xs

/-- MDRAIN (R147, R154): the tile's elements pass through the store converter into rows of A or P. [DESIGN CHOICE, log entry 180: unsafe] -/
def execMdrain (c : CoreId) (tile : TileId) (gs : Reg) (cd : CdId) (rel : Bool) (s : State) : Out :=
  let ws := enc2 0x37 gs.toNat (tile.toNat * 2 ^ 9 + cd.toNat * 2 ^ 6 + bnat rel * 2 ^ 5)
  .next (s.issue c ws [gs] (fun t =>
    let k := t.core c
    let dw := t.reg c gs
    let desc := k.cpu.cd cd.toNat
    let f := cdFmt desc
    let tl := k.mat.tile tile
    let row := bitsOf dw.toNat 8 0
    let nr := ((tl.ms.toNat + 1) * (tl.ns.toNat + 1) + epr f - 1) / epr f
    let bad (sub info : Nat) : Exec := .trip t { vec := 5, sub, info, tile := tile.toNat }
    if fmtReserved f then illegal t ws 6
    else if tl.busy || k.passReads (drainPad dw) then .wait .other
    else if tl.inuse = false then bad 8 0
    else if bitsOf dw.toNat 31 10 ≠ 0 ∨ (drainPad dw).rows < row + nr then bad 9 dw.toNat
    else if f = 0xF then bad 10 cd.toNat
    else
      let k := k.putRows (drainPad dw) row ((pieces (epr f) 1024 tl.shaped).map (convertRow desc))
      .done (t.setCore c (if rel then k.modTile tile (fun t => { t with inuse := false }) else k))))

/-- MREL (R149): INUSE ← 0, SROW ← 0. -/
def execMrel (c : CoreId) (tile : TileId) (s : State) : Out :=
  .next (s.issue c (enc2 0x37 0 (3 * 2 ^ 11 + tile.toNat * 2 ^ 9)) [] (fun t =>
    if ((t.core c).mat.tile tile).busy then .wait .other
    else .done (t.modCore c (fun k => k.modTile tile (fun t => { t with inuse := false, srow := 0 })))))

/-! ## mld and mst (R148, R95-R97) -/

/-- Shape that a tag of transfer row 0 gives a tile, or the largest shape (R148). -/
def tagShape (tile : TileId) (tag : Option Nat) : BitVec 5 × BitVec 5 :=
  match tag with
  | some t =>
    if bitsOf t 15 12 = 0 ∧ bitsOf t 11 10 = 2 ∧ bitsOf t 4 0 < maxM tile then
      (BitVec.ofNat 5 (bitsOf t 4 0), BitVec.ofNat 5 (bitsOf t 9 5))
    else (BitVec.ofNat 5 (maxM tile - 1), 31)
  | none => (BitVec.ofNat 5 (maxM tile - 1), 31)

/-- Transfer row `r` arrives in a tile, subnormals flushed; row 0 of a transfer that starts at 0 gives the shape (R148). -/
def Tile.loadRow (t : Tile) (tile : TileId) (start r : Nat) (d : BitVec 4096) (tag : Option Nat) : Tile :=
  let t := if r = 0 ∧ start = 0 then { t with ms := (tagShape tile tag).1, ns := (tagShape tile tag).2 } else t
  { t with elems := (List.range 128).foldl (fun es i =>
      Table.putc 0 es (128 * r + i) (flush32 (BitVec.ofNat 32 (d.toNat >>> (32 * i))))) t.elems }

/-- Transfer row `r` of a tile as mst writes it (R148). -/
def Tile.storeRow (t : Tile) (r : Nat) : Row :=
  { data := BitVec.ofNat 4096 (packLE 32 ((List.range 128).map (fun i => (t.elem (128 * r + i)).toNat))),
    side := tagBand (2 * 2 ^ 10 + t.ns.toNat * 2 ^ 5 + t.ms.toNat) }

/-- Whether a row target lies in the core's own window (R117). -/
def State.ownRow (s : State) (c : CoreId) (a : Nat) (t : Target) : Bool :=
  decide (s.resolveDev (BitVec.ofNat 10 (a >>> 46)) = s.own) &&
    (match t with | .data n _ _ _ => decide (n = c.toNat) | .side n _ _ _ => decide (n = c.toNat) | _ => false)

/-- One row of an mld from the own window: the 512 bytes, and the tag where it is a data row (R115, R116). -/
def Core.rowAt (k : Core) (t : Target) : BitVec 4096 × Option Nat :=
  match t with
  | .data _ m r _ => ((k.row m r).data, some (k.row m r).tag)
  | .side _ m r _ => (k.bands m r, none)
  | _ => (0, none)

/-- One row of an mst into the own window (R115, R116). -/
def Core.putRowAt (k : Core) (t : Target) (v : Row) : Core :=
  match t with
  | .data _ m r _ => k.putRow m r v
  | .side _ m r _ => k.putBands m r v.data.toNat 16
  | _ => k

/-- What the check bits show of the rows that one row of an mld reads (R126). -/
def State.ownRead (s : State) (c : CoreId) (t : Target) : State :=
  match t with
  | .data _ m r _ => s.portReads c m [r] .clean
  | .side _ m r _ => s.portReads c m ((List.range 16).map (r + ·)) .clean
  | _ => s

/-- A tile transfer requests its next row (R77, R95-R97): the segment check, then the row itself where it lies in the own window, or a packet. SROW names the row. Third, the own row that was read. -/
def State.requestRow (s : State) (c : CoreId) (m : TileMove) : State × TileMove × Target :=
  let r := m.next
  let a := sdBase m.desc + m.off + 512 * r
  match segCheck s c m.sd m.desc m.store (m.off + 512 * r) 512 with
  | .error f => (s, { m with fail := some (r, f.vec, f.sub, f.faddr) }, .nothing)
  | .ok t =>
    let m' := { m with next := r + 1 }
    let k := (s.core c).modTile m.tile (fun t => { t with srow := BitVec.ofNat 16 r })
    let v := (k.mat.tile m.tile).storeRow r
    if s.ownRow c a t then
      if m.store then (s.setCore c (k.putRowAt t v), m', .nothing)
      else (s.setCore c (k.modTile m.tile (fun tl => tl.loadRow m.tile m.start r (k.rowAt t).1 (k.rowAt t).2)), m', t)
    else
      let tid := k.lsu.nextTid
      let s := s.setCore c { k with lsu := { k.lsu with nextTid := tid + 1, outs := k.lsu.outs ++ [(tid, OutOp.row r (BitVec.ofNat 56 a))] } }
      let p := s.mkPkt (if m.store then .wr else .rd) (BitVec.ofNat 11 c.toNat) 0 tid (s.resolve a)
      let p : Packet := if m.store then { p with size := 6, sb := true, side := v.side, data := v.data } else { p with size := 6 }
      (s.inject p, { m' with left := m.left + 1 }, .nothing)

/-- Memories of the own window that a transfer writes (R158). -/
def State.writesPad (s : State) (c : CoreId) (a n : Nat) (m : Pad) : Bool :=
  (List.range n).any (fun r =>
    let x := a + 512 * r
    let t := targetOf (x % 2 ^ 46)
    s.ownRow c x t && (match t with | .data _ q _ _ => decide (q = m) | .side _ q _ _ => decide (q = m) | _ => false))

/-- mld and mst from the check of the descriptor's KIND on (R148, R154). [DESIGN CHOICE, log entry 181: unsafe] -/
def tileMove (s : State) (c : CoreId) (ws : List Nat) (store : Bool) (tile : TileId) (sd : SdId) (gi : Reg) (d : BitVec 5) (rel : Bool) : Out :=
  .next (s.issue c ws [gi] (fun t =>
    let k := t.core c
    let desc := k.cpu.seg sd
    let tl := k.mat.tile tile
    let start := tl.srow.toNat
    let total := tileRows tile
    let off := (t.reg c gi).toNat + d.toNat * 512
    let blocked (m : Pad) : Bool := store && k.passReads m && t.writesPad c (sdBase desc + off) total m
    if tl.busy || blocked .w || blocked .a then .wait .other
    else if sdKind desc ≠ 2 then .trip t { vec := 5, sub := 11, info := sd.toNat, tile := tile.toNat }
    else
      let t := if store then t else t.modCore c (fun k => k.modTile tile (fun t => { t with inuse := true }))
      if total ≤ start then .done (t.modCore c (fun k => k.moved store tile rel none))
      else
        let (t, m, own) := t.requestRow c { store, tile, sd, desc, off, rel, start, next := start, pc := k.cpu.pc }
        match m.fail with
        | some f => .trip (t.modCore c (fun k => k.moved store tile rel (some f))) (rowTrip sd tile f)
        | none =>
          if m.over then .done (t.modCore c (fun k => k.moved store tile rel none)) (fun t => t.ownRead c own)
          else .stay (t.modCore c (fun k => { k with run := { k.run with hold := .rows m } })) (fun t => t.ownRead c own)))

/-- MLD (R148): a tile's rows are loaded through a ROW segment. -/
def execMld (c : CoreId) (tile : TileId) (sd : SdId) (gi : Reg) (d : BitVec 5) (s : State) : Out :=
  tileMove s c (enc2 0x37 (gi.toNat * 16) (2 ^ 11 + tile.toNat * 2 ^ 9 + sd.toNat * 2 ^ 6 + d.toNat)) false tile sd gi d false

/-- MST (R148): a tile's rows are stored through a ROW segment. -/
def execMst (c : CoreId) (tile : TileId) (sd : SdId) (gi : Reg) (d : BitVec 5) (rel : Bool) (s : State) : Out :=
  tileMove s c (enc2 0x37 (gi.toNat * 16) (2 * 2 ^ 11 + tile.toNat * 2 ^ 9 + sd.toNat * 2 ^ 6 + bnat rel * 2 ^ 5 + d.toNat)) true tile sd gi d rel

/-- A row response of an mld or mst is taken (R95): `got` is the arrived data with its tag, or the sub-cause of an error. The last response that the transfer awaits ends a response hold (R358). -/
def State.rowAnswer (s : State) (c : CoreId) (idx : Nat) (addr : FAddr) (got : (BitVec 4096 × Option Nat) ⊕ Nat) : State :=
  let k := s.core c
  match k.run.hold with
  | .rows m =>
    let m := { m with left := m.left - 1, fail := match got, m.fail with
      | .inr sub, none => some (idx, 3, sub, addr)
      | .inr sub, some f => if idx < f.1 then some (idx, 3, sub, addr) else some f
      | .inl _, f => f }
    let k := match got with
      | .inl (d, tag) => if m.store then k else k.modTile m.tile (fun t => t.loadRow m.tile m.start idx d tag)
      | .inr _ => k
    let s := s.setCore c { k with run := { k.run with hold := .rows m } }
    if m.over then s.endHold c else s
  | _ => s

/-- One cycle of the engines and of a tile transfer of a core (R155, R157): each port delivers a row, the passes in the arrays run as the throttle lets them (R461), and an mld or mst requests its next row. -/
def State.matrixCycle (s : State) (c : CoreId) : State :=
  let s := [Engine.f, Engine.b].foldl (fun s e => (s.operandCycle c e false).operandCycle c e true) s
  let s := if dutyEdge s.power.duty (s.core c).cpu.cyc.toNat then
      s.modCore c (fun k => { k with mat := { k.mat with f := k.mat.f.stepCycle, b := k.mat.b.stepCycle } })
    else s
  match (s.core c).run.hold with
  | .rows m =>
    if m.mayCut && decide ((s.core c).run.st = .running) then
      let (s, m, own) := s.requestRow c m
      let s := (s.modCore c (fun k => { k with run := { k.run with hold := .rows m } })).ownRead c own
      if m.over then (s.endHold c).settle c else s
    else s
  | _ => s

end Sys2Proof.Machine
end

