-- ==== Sys2Proof/Machine/Vector.lean ====
section
/-! DEFINITION. The vector unit of a core (chapter 8). -/

namespace Sys2Proof.Machine

/-! ## Lanes (Table 8.1) -/

/-- Lanes of a type. -/
def lanes (ty : Nat) : Nat := match ty with | 1 => 32 | 2 => 64 | _ => 16
/-- Bits of a lane. -/
def laneBits (ty : Nat) : Nat := match ty with | 1 => 16 | 2 => 8 | _ => 32
/-- A vector register. -/
def Core.vreg (k : Core) (v : Nat) : BitVec 512 := Table.get 0 k.vec.regs v
/-- A core with a vector register written. -/
def Core.setVreg (k : Core) (v : Nat) (d : BitVec 512) : Core := { k with vec := { k.vec with regs := Table.put k.vec.regs v d } }
/-- Lane `l` of a register's bits. -/
def laneOf (ty : Nat) (d : BitVec 512) (l : Nat) : Nat := (d.toNat >>> (laneBits ty * l)) % 2 ^ laneBits ty
/-- The lanes of a register. -/
def lanesOf (ty : Nat) (d : BitVec 512) : List Nat := (List.range (lanes ty)).map (laneOf ty d)
/-- A register from its lanes. -/
def ofLanes (ty : Nat) (xs : List Nat) : BitVec 512 := BitVec.ofNat 512 (packLE (laneBits ty) xs)

/-! ## Lane operations (R177-R179, Table 8.2) -/

/-- Saturation of an INT8 result (R177). -/
def sat8 (z : Int) : Nat := (BitVec.ofInt 8 (max (-128) (min 127 z))).toNat
/-- An INT8 lane's value. -/
def int8 (x : Nat) : Int := (BitVec.ofNat 8 x).toInt
/-- A lane of all ones or of zero. -/
def laneMask (ty : Nat) (b : Bool) : Nat := if b then 2 ^ laneBits ty - 1 else 0

/-- Sum of two lanes. -/
def laneAdd (ty a b : Nat) : Nat :=
  if ty = 2 then sat8 (int8 a + int8 b) else toLane ty (FVal.add false (ofLane ty a) (ofLane ty b))
/-- Difference of two lanes. -/
def laneSub (ty a b : Nat) : Nat :=
  if ty = 2 then sat8 (int8 a - int8 b) else toLane ty (FVal.add false (ofLane ty a) (FVal.neg (ofLane ty b)))
/-- Product of two lanes. -/
def laneMul (ty a b : Nat) : Nat := toLane ty (FVal.mul (ofLane ty a) (ofLane ty b))
/-- Product and sum with one rounding. -/
def laneFma (ty a b d : Nat) : Nat := toLane ty (FVal.add false (FVal.mul (ofLane ty a) (ofLane ty b)) (ofLane ty d))
/-- Quotient, rounded to nearest, ties to even. -/
def laneDiv (ty a b : Nat) : Nat := toLane ty (FVal.div (ofLane ty a) (ofLane ty b))

/-- The larger lane where `big`, the smaller otherwise; a NaN operand gives the canonical NaN, and two zeros give one that the spec leaves open. -/
def lanePick (ty : Nat) (big : Bool) (a b : Nat) : Nat :=
  let x := ofLane ty a
  let y := ofLane ty b
  if x.isNan || y.isNan then toLane ty .nan
  else if ty ≠ 2 ∧ x.isZero ∧ y.isZero then toLane ty (if Config.zeroTie a b then x else y)
  else if FVal.lt x y == big then toLane ty y else toLane ty x

/-- Less than; false with a NaN operand. -/
def laneLt (ty a b : Nat) : Bool := FVal.lt (ofLane ty a) (ofLane ty b)
/-- Equality; false with a NaN operand. -/
def laneEq (ty a b : Nat) : Bool := FVal.eq (ofLane ty a) (ofLane ty b)

/-- One level of the pairwise tree (R179). [DEDUCED, log entry 54: unsafe] -/
def pairUp (f : Nat → Nat → Nat) : List Nat → List Nat
  | a :: b :: xs => f a b :: pairUp f xs
  | xs => xs

/-- The tree reduction of a register's lanes: at most six levels (R179). -/
def treeReduce (f : Nat → Nat → Nat) (xs : List Nat) : Nat :=
  ((List.range 6).foldl (fun xs _ => if xs.length ≤ 1 then xs else pairUp f xs) xs).headD 0

/-! ## Function tables (R187, R188) -/

/-- Value V[i] of table `t`. -/
def Vec.fnV (v : Vec) (t i : Nat) : Word := Table.get 0 v.ftab (t * 256 + 2 * i)
/-- Slope S[i] of table `t`. -/
def Vec.fnS (v : Vec) (t i : Nat) : Word := Table.get 0 v.ftab (t * 256 + 2 * i + 1)
/-- FP32 of an integer of at most 24 bits. -/
def intFp32 (z : Int) : Word := toFp32 (ofSigned z 0)
/-- a − b in FP32. -/
def sub32 (a b : Word) : Word := add32 a (neg32 b)
/-- floor of a finite FP32 value. -/
def floor32 (a : Word) : Int := match ofFp32 a with | .fin n m e => floorInt n m e | _ => 0

/-- ldexp(v, n): infinity beyond FP32, +0 below 2^-126 (R188). [DESIGN CHOICE, log entry 182: unsafe] -/
def ldexp32 (v : Word) (n : Int) : Word :=
  match ofFp32 v with
  | .fin neg m e =>
    if m = 0 then 0
    else
      let lead := e + n + (Nat.log2 m : Int)
      if lead < -126 then 0
      else if 127 < lead then BitVec.ofNat 32 (fp32.infinity neg)
      else toFp32 (.fin neg m (e + n))
  | .inf neg => BitVec.ofNat 32 (fp32.infinity neg)
  | .nan => 0x7FC00000

/-- Interpolation fma(S[i], f, V[i]). -/
def Vec.fnAt (v : Vec) (t i : Nat) (f : Word) : Word := fma32 (v.fnS t i) f (v.fnV t i)

/-- Mode 0 (R188): uniform segments. -/
def Vec.fnUniform (v : Vec) (t : Nat) (ext : Bool) (x : Word) : Word :=
  let q := mul32 (sub32 x (Table.get 0 v.ftx0 t)) (Table.get 0x3F800000 v.ftinv t)
  match ofFp32 q with
  | .nan => 0x7FC00000
  | y =>
    if !ext && FVal.lt y (.fin false 0 0) then toFp32 (ofFp32 (v.fnV t 0))
    else if !ext && !(FVal.lt y (.fin false 128 0)) then add32 (v.fnV t 127) (v.fnS t 127)
    else
      let i : Nat := match y with
        | .fin n m e => (max 0 (min 127 (floorInt n m e))).toNat
        | .inf neg => if neg then 0 else 127
        | .nan => 0
      v.fnAt t i (sub32 q (intFp32 i))

/-- Mode 1 (R188): power of two. -/
def Vec.fnPow2 (v : Vec) (t : Nat) (x : Word) : Word :=
  let q := mul32 x (Table.get 0x3F800000 v.ftinv t)
  match ofFp32 q with
  | .nan => 0x7FC00000
  | .inf neg => if neg then 0 else 0x7F800000
  | .fin sg m e =>
    let n := floorInt sg m e
    if 2 ^ 24 ≤ n.natAbs then ldexp32 (v.fnAt t 0 0) n
    else
      let r := mul32 (sub32 q (intFp32 n)) 0x43000000
      let i := (floor32 r).toNat
      if 128 ≤ i then Config.fnEdge x else ldexp32 (v.fnAt t i (sub32 r (intFp32 i))) n

/-- Mode 2 (R188): x = u * 4^k with u in [1, 4). -/
def Vec.fnPow4 (v : Vec) (t : Nat) (ps : Bool) (x : Word) : Word :=
  match ofFp32 x with
  | .nan => 0x7FC00000
  | .inf neg => if neg then 0x7FC00000 else if ps then 0x7F800000 else 0
  | .fin neg m e =>
    if m = 0 then (if ps then 0 else 0x7F800000)
    else if neg then 0x7FC00000
    else
      let k : Int := (e + (Nat.log2 m : Int)).fdiv 2
      let u := toFp32 (.fin false m (e - 2 * k))
      let r := div32 (mul32 (sub32 u 0x3F800000) 0x43000000) 0x40400000
      let i := (floor32 r).toNat
      ldexp32 (v.fnAt t i (sub32 r (intFp32 i))) (if ps then k else -k)

/-- f_t of an FP32 value (R188); MODE 3 acts as 0 (Table 8.5). -/
def Vec.fn (v : Vec) (t : Nat) (x : Word) : Word :=
  if (ofFp32 x).isNan then 0x7FC00000
  else
    let c := Table.get 0 v.ftc t
    match bitsOf c.toNat 1 0 with
    | 1 => v.fnPow2 t x
    | 2 => v.fnPow4 t (c.getLsbD 3) x
    | _ => v.fnUniform t (c.getLsbD 2) x

/-- f_t of a lane: a BF16 lane through FP32 (R188). -/
def Vec.fnLane (v : Vec) (t ty a : Nat) : Nat :=
  if ty = 1 then (toBf16 (ofFp32 (v.fn t (toFp32 (ofLane 1 a))))).toNat else (v.fn t (BitVec.ofNat 32 a)).toNat

/-! ## Prefix 0x38 (R178) -/

/-- Words of a lane operation. -/
def vecWords (op : Nat) (ty : BitVec 2) (vd va : VReg) (vb : Nat) : List Nat :=
  enc2 0x38 (vd.toNat * 8 + ty.toNat * 2) (va.toNat * 2 ^ 9 + vb * 2 ^ 4 + op)

/-- A lane operation: TY 0b11, and TY INT8 where `noInt`, are illegal with SUB 0; otherwise vd takes what `f` gives (R178). -/
def vecOp (s : State) (c : CoreId) (op : Nat) (ty : BitVec 2) (vd va : VReg) (vb : Nat) (noInt : Bool) (f : Core → BitVec 512) : Out :=
  let ws := vecWords op ty vd va vb
  .next (s.issue c ws [] (fun t =>
    if ty = 3 ∨ (ty = 2 ∧ noInt) then illegal t ws 0
    else .done (t.modCore c (fun k => k.setVreg vd.toNat (f k)))))

/-- A lanewise operation on va and vb. -/
def lane2 (ty : Nat) (f : Nat → Nat → Nat) (a b : BitVec 512) : BitVec 512 :=
  ofLanes ty (List.zipWith f (lanesOf ty a) (lanesOf ty b))

/-- VADD (R178). -/
def execVadd (c : CoreId) (ty : BitVec 2) (vd va vb : VReg) (s : State) : Out :=
  vecOp s c 0x0 ty vd va vb.toNat false (fun k => lane2 ty.toNat (laneAdd ty.toNat) (k.vreg va.toNat) (k.vreg vb.toNat))
/-- VSUB (R178). -/
def execVsub (c : CoreId) (ty : BitVec 2) (vd va vb : VReg) (s : State) : Out :=
  vecOp s c 0x1 ty vd va vb.toNat false (fun k => lane2 ty.toNat (laneSub ty.toNat) (k.vreg va.toNat) (k.vreg vb.toNat))
/-- VMUL (R178). -/
def execVmul (c : CoreId) (ty : BitVec 2) (vd va vb : VReg) (s : State) : Out :=
  vecOp s c 0x2 ty vd va vb.toNat true (fun k => lane2 ty.toNat (laneMul ty.toNat) (k.vreg va.toNat) (k.vreg vb.toNat))
/-- VFMA (R178): va × vb + vd with one rounding. -/
def execVfma (c : CoreId) (ty : BitVec 2) (vd va vb : VReg) (s : State) : Out :=
  vecOp s c 0x3 ty vd va vb.toNat true (fun k =>
    ofLanes ty.toNat (List.zipWith (fun (x : Nat × Nat) d => laneFma ty.toNat x.1 x.2 d)
      (List.zip (lanesOf ty.toNat (k.vreg va.toNat)) (lanesOf ty.toNat (k.vreg vb.toNat))) (lanesOf ty.toNat (k.vreg vd.toNat))))
/-- VMAX (R178). -/
def execVmax (c : CoreId) (ty : BitVec 2) (vd va vb : VReg) (s : State) : Out :=
  vecOp s c 0x4 ty vd va vb.toNat false (fun k => lane2 ty.toNat (lanePick ty.toNat true) (k.vreg va.toNat) (k.vreg vb.toNat))
/-- VMIN (R178). -/
def execVmin (c : CoreId) (ty : BitVec 2) (vd va vb : VReg) (s : State) : Out :=
  vecOp s c 0x5 ty vd va vb.toNat false (fun k => lane2 ty.toNat (lanePick ty.toNat false) (k.vreg va.toNat) (k.vreg vb.toNat))
/-- VAND (R178). -/
def execVand (c : CoreId) (ty : BitVec 2) (vd va vb : VReg) (s : State) : Out :=
  vecOp s c 0x6 ty vd va vb.toNat false (fun k => k.vreg va.toNat &&& k.vreg vb.toNat)
/-- VOR (R178). -/
def execVor (c : CoreId) (ty : BitVec 2) (vd va vb : VReg) (s : State) : Out :=
  vecOp s c 0x7 ty vd va vb.toNat false (fun k => k.vreg va.toNat ||| k.vreg vb.toNat)
/-- VXOR (R178). -/
def execVxor (c : CoreId) (ty : BitVec 2) (vd va vb : VReg) (s : State) : Out :=
  vecOp s c 0x8 ty vd va vb.toNat false (fun k => k.vreg va.toNat ^^^ k.vreg vb.toNat)
/-- VDIV (R178). -/
def execVdiv (c : CoreId) (ty : BitVec 2) (vd va vb : VReg) (s : State) : Out :=
  vecOp s c 0x9 ty vd va vb.toNat true (fun k => lane2 ty.toNat (laneDiv ty.toNat) (k.vreg va.toNat) (k.vreg vb.toNat))
/-- VFN (R178, R188): function table `t` on every lane. -/
def execVfn (c : CoreId) (ty : BitVec 2) (vd va : VReg) (t : BitVec 3) (s : State) : Out :=
  vecOp s c 0xA ty vd va t.toNat true (fun k =>
    ofLanes ty.toNat ((lanesOf ty.toNat (k.vreg va.toNat)).map (k.vec.fnLane t.toNat ty.toNat)))
/-- VREDSUM (R179): every lane takes the tree sum. -/
def execVredsum (c : CoreId) (ty : BitVec 2) (vd va : VReg) (s : State) : Out :=
  vecOp s c 0xB ty vd va 0 true (fun k =>
    ofLanes ty.toNat (List.replicate (lanes ty.toNat) (treeReduce (laneAdd ty.toNat) (lanesOf ty.toNat (k.vreg va.toNat)))))
/-- VREDMAX (R179): every lane takes the largest lane; any NaN gives the canonical NaN. -/
def execVredmax (c : CoreId) (ty : BitVec 2) (vd va : VReg) (s : State) : Out :=
  vecOp s c 0xC ty vd va 0 false (fun k =>
    ofLanes ty.toNat (List.replicate (lanes ty.toNat) (treeReduce (lanePick ty.toNat true) (lanesOf ty.toNat (k.vreg va.toNat)))))
/-- VCLT (R178). -/
def execVclt (c : CoreId) (ty : BitVec 2) (vd va vb : VReg) (s : State) : Out :=
  vecOp s c 0xD ty vd va vb.toNat false (fun k =>
    lane2 ty.toNat (fun a b => laneMask ty.toNat (laneLt ty.toNat a b)) (k.vreg va.toNat) (k.vreg vb.toNat))
/-- VCEQ (R178). -/
def execVceq (c : CoreId) (ty : BitVec 2) (vd va vb : VReg) (s : State) : Out :=
  vecOp s c 0xE ty vd va vb.toNat false (fun k =>
    lane2 ty.toNat (fun a b => laneMask ty.toNat (laneEq ty.toNat a b)) (k.vreg va.toNat) (k.vreg vb.toNat))
/-- VSEL (R178): a bitwise test of the vd lane chooses va or vb. -/
def execVsel (c : CoreId) (ty : BitVec 2) (vd va vb : VReg) (s : State) : Out :=
  vecOp s c 0xF ty vd va vb.toNat false (fun k =>
    ofLanes ty.toNat (List.zipWith (fun (x : Nat × Nat) d => if d ≠ 0 then x.1 else x.2)
      (List.zip (lanesOf ty.toNat (k.vreg va.toNat)) (lanesOf ty.toNat (k.vreg vb.toNat))) (lanesOf ty.toNat (k.vreg vd.toNat))))

/-! ## Row moves (R181-R183) -/

/-- VRW fields: registers, lane type with 0b11 taken as 0, first segment (Table 8.4). -/
def vrwN (v : Word) : Nat := bitsOf v.toNat 15 11 + 1
/-- TY. -/
def vrwTy (v : Word) : Nat := if bitsOf v.toNat 10 9 = 3 then 0 else bitsOf v.toNat 10 9
/-- ESEG. -/
def vrwSeg (v : Word) : Nat := bitsOf v.toNat 5 0

/-- Register `k` of a group loaded from a row (R183). -/
def vldReg (f ty seg : Nat) (r : Row) (k : Nat) : BitVec 512 :=
  if f = 0xF then BitVec.ofNat 512 (r.data.toNat >>> (512 * (seg + k)))
  else ofLanes ty ((List.range (lanes ty)).map (fun l =>
    let e := 16 * seg + k * lanes ty + l
    if epr f ≤ e then 0 else toLane ty (rowElem f r e)))

/-- A group's registers written in order, register numbers modulo 32 (R180). [DEDUCED, log entry 53: unsafe] -/
def Core.putGroup (k : Core) (v : Nat) : List (BitVec 512) → Core
  | [] => k
  | d :: ds => (k.setVreg (v % 32) d).putGroup (v + 1) ds

/-- The row that a vst writes (R183). -/
def vstRow (cd : Word) (ty seg : Nat) (ds : List (BitVec 512)) : Row :=
  if cdFmt cd = 0xF then
    { data := BitVec.ofNat 4096 (packLE 512 (ds.map (·.toNat)) <<< (512 * seg)), side := tagBand 0xF000 }
  else
    convertRow cd (List.replicate (16 * seg) (FVal.fin false 0 0) ++ ds.flatMap (fun d => (lanesOf ty d).map (ofLane ty)))

/-- The row that a vld or vst names, after the checks of R76 and R182: a target in another core's window gives sub-cause 1 wherever that core is, and the core's own control region is reached in another width than a register's (R15). [DESIGN CHOICE, log entry 183: unsafe] -/
def vecRow (t : State) (c : CoreId) (sd : SdId) (gi : Reg) (write : Bool) : Except Trip (Pad × Nat) :=
  let desc := (t.core c).cpu.seg sd
  let off := (t.reg c gi).toNat
  let a := sdBase desc + off
  match segCheck t c sd desc write off 512 with
  | .error f => .error (if f.vec = 3 ∧ f.sub = 2 ∧ sdKind desc = 2 then { f with sub := 1 } else f)
  | .ok tgt =>
    match tgt with
    | .data _ m r _ => if t.ownRow c a tgt then .ok (m, r) else .error { vec := 3, sub := 1, info := sd.toNat, faddr := BitVec.ofNat 56 a }
    | .coreCtl _ _ =>
      if (ownCtl t c a tgt).isSome then .error { vec := 2, sub := 1, info := sd.toNat, faddr := BitVec.ofNat 56 a }
      else .error { vec := 3, sub := 1, info := sd.toNat, faddr := BitVec.ofNat 56 a }
    | _ => .error { vec := 3, sub := 1, info := sd.toNat, faddr := BitVec.ofNat 56 a }

/-- Words of a vector move. -/
def vmvWords (sub : Nat) (v : VReg) (b : Nat) : List Nat := enc2 0x39 (v.toNat * 8 + sub) b

/-- VLD (R182, R183): one row of the own window through the load converter into a group of registers; `ecc` is what its check bits showed. -/
def execVld (c : CoreId) (v : VReg) (sd : SdId) (gi : Reg) (cd : CdId) (gw : Reg) (ecc : Ecc) (s : State) : Out :=
  let ws := vmvWords 0 v (sd.toNat * 2 ^ 11 + gi.toNat * 2 ^ 7 + cd.toNat * 2 ^ 4 + gw.toNat)
  .next (s.issue c ws [gi, gw] (fun t =>
    let k := t.core c
    let f := cdFmt (k.cpu.cd cd.toNat)
    let w := t.reg c gw
    if fmtReserved f then illegal t ws 6
    else match vecRow t c sd gi false with
      | .error x => .trip t x
      | .ok (m, r) =>
        let ds := (List.range (vrwN w)).map (vldReg f (vrwTy w) (vrwSeg w) (k.row m r))
        .done (t.setCore c (k.putGroup v.toNat ds)) (fun t => t.localEcc c m r ecc)))

/-- VST (R182, R183): a group of registers through the store converter into one row of the own window. -/
def execVst (c : CoreId) (v : VReg) (sd : SdId) (gi : Reg) (cd : CdId) (gw : Reg) (s : State) : Out :=
  let ws := vmvWords 1 v (sd.toNat * 2 ^ 11 + gi.toNat * 2 ^ 7 + cd.toNat * 2 ^ 4 + gw.toNat)
  .next (s.issue c ws [gi, gw] (fun t =>
    let k := t.core c
    let desc := k.cpu.cd cd.toNat
    let w := t.reg c gw
    if fmtReserved (cdFmt desc) then illegal t ws 6
    else match vecRow t c sd gi true with
      | .error x => .trip t x
      | .ok (m, r) =>
        if k.passReads m then .wait .other
        else
          let ds := (List.range (vrwN w)).map (fun i => k.vreg ((v.toNat + i) % 32))
          .done (t.setCore c (k.putRow m r (vstRow desc (vrwTy w) (vrwSeg w) ds)))))

/-! ## Tile and scalar moves (R185, R186) -/

/-- Segments of a tile (R185). -/
def tileSegs (t : TileId) : Nat := if t.toNat < 2 then 32 else 64

/-- VMVT (R185): tile segments into registers. -/
def execVmvt (c : CoreId) (v : VReg) (tile : TileId) (seg : BitVec 6) (nm1 : BitVec 5) (s : State) : Out :=
  .next (s.issue c (vmvWords 2 v (tile.toNat * 2 ^ 12 + seg.toNat * 2 ^ 6 + nm1.toNat * 2)) [] (fun t =>
    let k := t.core c
    let tl := k.mat.tile tile
    if tl.busy then .wait .other
    else
      let ds := (List.range (nm1.toNat + 1)).map (fun i =>
        ofLanes 0 ((List.range 16).map (fun l => (tl.elem (16 * ((seg.toNat + i) % tileSegs tile) + l)).toNat)))
      .done (t.setCore c (k.putGroup v.toNat ds))))

/-- A 16-element segment of a tile written, subnormals flushed (R185). -/
def Tile.putSeg (t : Tile) (sg : Nat) (d : BitVec 512) : Tile :=
  { t with elems := (List.range 16).foldl (fun es l =>
      Table.putc 0 es (16 * sg + l) (flush32 (BitVec.ofNat 32 (laneOf 0 d l)))) t.elems }

/-- VMVF (R185): registers into tile segments; INUSE sets. -/
def execVmvf (c : CoreId) (tile : TileId) (seg : BitVec 6) (v : VReg) (nm1 : BitVec 5) (s : State) : Out :=
  .next (s.issue c (vmvWords 3 v (tile.toNat * 2 ^ 12 + seg.toNat * 2 ^ 6 + nm1.toNat * 2)) [] (fun t =>
    let k := t.core c
    if (k.mat.tile tile).busy then .wait .other
    else
      .done (t.setCore c (k.modTile tile (fun tl =>
        (List.range (nm1.toNat + 1)).foldl (fun tl i =>
          tl.putSeg ((seg.toNat + i) % tileSegs tile) (k.vreg ((v.toNat + i) % 32))) { tl with inuse := true })))))

/-- VBCAST (R186): gs into every lane. -/
def execVbcast (c : CoreId) (v : VReg) (gs : Reg) (ty : BitVec 2) (s : State) : Out :=
  let ws := vmvWords 4 v (ty.toNat * 2 ^ 12 + gs.toNat)
  .next (s.issue c ws [gs] (fun t =>
    if ty = 3 then illegal t ws 0
    else .done (t.modCore c (fun k => k.setVreg v.toNat
      (ofLanes ty.toNat (List.replicate (lanes ty.toNat) (t.reg c gs).toNat))))))

/-- VEXT (R186): one lane into gd; BF16 zero-extended, INT8 sign-extended. -/
def execVext (c : CoreId) (gd : Reg) (v : VReg) (l : BitVec 6) (ty : BitVec 2) (s : State) : Out :=
  let ws := vmvWords 5 v (gd.toNat * 2 ^ 10 + l.toNat * 2 ^ 4 + ty.toNat * 2 ^ 2)
  .next (s.issue c ws [gd] (fun t =>
    if ty = 3 then illegal t ws 0
    else
      let x := laneOf ty.toNat ((t.core c).vreg v.toNat) (l.toNat % lanes ty.toNat)
      .done (t.setReg c gd (if ty = 2 then sext 8 x else BitVec.ofNat 32 x))))

/-- VFIRST (R186): the lowest lane whose bits are not zero, or the number of lanes. -/
def execVfirst (c : CoreId) (gd : Reg) (v : VReg) (ty : BitVec 2) (s : State) : Out :=
  let ws := vmvWords 6 v (gd.toNat * 2 ^ 10 + ty.toNat * 2 ^ 2)
  .next (s.issue c ws [gd] (fun t =>
    if ty = 3 then illegal t ws 0
    else .done (t.setReg c gd (BitVec.ofNat 32
      ((lanesOf ty.toNat ((t.core c).vreg v.toNat)).takeWhile (fun x => decide (x = 0))).length))))

end Sys2Proof.Machine
end

