-- ==== Sys2Proof/Machine/Queues.lean ====
section
/-! DEFINITION. The queue commands of prefix 0x3A (R290-R297). -/

namespace Sys2Proof.Machine

/-! ## Send-credit table entries (Table 12.2) -/

/-- KIND: 0 RING, 1 DIRECT, 2 NEWT, 3 CMB. -/
def sctKind (e : DWord) : Nat := bitsOf e.toNat 63 62
/-- CM. -/
def sctCm (e : DWord) : Bool := e.getLsbD 61
/-- DEV. -/
def sctDev (e : DWord) : DevId := BitVec.ofNat 10 (bitsOf e.toNat 60 51)
/-- TGT. -/
def sctTgt (e : DWord) : Nat := bitsOf e.toNat 50 41
/-- RQ. -/
def sctRq (e : DWord) : Nat := bitsOf e.toNat 40 37
/-- LMEM. -/
def sctPad (e : DWord) : Pad := if e.getLsbD 36 then .p else .a
/-- LROW. -/
def sctRow (e : DWord) : Nat := bitsOf e.toNat 35 26
/-- LSEM. -/
def sctSem (e : DWord) : Nat := bitsOf e.toNat 25 20
/-- V. -/
def sctV (e : DWord) : Bool := e.getLsbD 19
/-- MSGID. -/
def sctMsgid (e : DWord) : Nat := bitsOf e.toNat 18 12
/-- CRED. -/
def sctCred (e : DWord) : Nat := bitsOf e.toNat 11 0

/-- An entry of a core's send-credit table; reset 0 (R271). -/
def Queue.entry (q : Queue) (e : Nat) : DWord := Table.get 0 q.sct e
/-- The queue unit with an entry replaced. -/
def Queue.setEntry (q : Queue) (e : Nat) (v : DWord) : Queue := { q with sct := Table.put q.sct e v }

/-! ## Sends -/

/-- Scratchpad of a source row word (R291). -/
def srcPad (v : Word) : Option Pad :=
  match bitsOf v.toNat 11 10 with | 0 => some .w | 1 => some .a | 2 => some .p | _ => none
/-- First source row. -/
def srcRow (v : Word) : Nat := bitsOf v.toNat 9 0

/-- The checks of R291 in order, for `l` rows; `land` is the offset that gl or gi adds, `cmb` a qcmb: the source memory, or the bus error's sub-cause. -/
def sendCheck (s : State) (e : DWord) (src : Word) (l land : Nat) (glZero cmb : Bool) : Except Nat Pad :=
  match srcPad src with
  | none => .error 3
  | some m =>
    let k := sctKind e
    let rows := sctRow e + land % 1024
    if m.rows < srcRow src + l then .error 3
    else if sctV e = false then .error 3
    else if cmb ≠ decide (k = 3) then .error 1
    else if !cmb && decide (k ≠ 1) && !glZero then .error 1
    else if decide (k = 1 ∨ k = 3) && decide ((sctPad e).rows < rows + l) then .error 3
    else if decide (k ≠ 2) && decide (s.resolveDev (sctDev e) = s.own) && !s.coreOn (sctTgt e) then .error 2
    else .ok m

/-- Credits that a send of `l` rows checks and takes (R280). -/
def sendCost (e : DWord) (l : Nat) : Nat :=
  if sctCm e = false then 0
  else match sctKind e with | 0 => 2 * l - 1 | 2 => l | _ => 0

/-- Fabric address of row `k` of a send (Table 12.3). -/
def sendAddr (e : DWord) (land k : Nat) : FAddr :=
  mkFAddr (sctDev e) (match sctKind e with
    | 0 => 0x100000000000 + sctTgt e * 0x100000
    | 2 => 0x200008000000 + sctTgt e * 0x200000 + 0x10000
    | _ => rowAddr (sctTgt e) (sctPad e) (sctRow e + land % 1024 + k))

/-- Operation word 6 of row `k` of a message of `l` rows (Table 12.6). -/
def sendWord (e : DWord) (entry l k : Nat) : Word :=
  BitVec.ofNat 32 (sctMsgid e * 2 ^ 25 + k * 2 ^ 22 + (l - 1) * 2 ^ 19 + bnat (sctCm e) * 2 ^ 18 + entry * 2 ^ 13
    + (if sctKind e = 0 then sctRq e * 2 ^ 9 else 0) + sctKind e * 2 ^ 6 + (if sctKind e = 1 then sctSem e else 0))

/-- A row in a core's send buffer: a message row or contribution of the core that has not left its injection queue. -/
def State.inSendBuffer (s : State) (c : CoreId) (p : Packet) : Bool :=
  (decide (p.kind = .msg) || decide (p.kind = .cmb)) && decide (p.src = BitVec.ofNat 11 c.toNat) && decide (p.sport = 1)
    && decide (p.sdev = s.own) && decide (p.hop = 0)

/-- The 8-row send buffer of a core has room for `l` rows (R292). [DESIGN CHOICE, log entry 55: unsafe] -/
def State.sendRoom (s : State) (c : CoreId) (l : Nat) : Bool := decide (s.net.countP (s.inSendBuffer c) + l ≤ 8)

/-- Row `k` of a message leaves (R275, R292): its packet, and the acknowledgement that scope Q awaits. [DEDUCED, log entry 156: unsafe] -/
def State.sendRow (s : State) (c : CoreId) (e : DWord) (entry : BitVec 5) (m : Pad) (row land l k : Nat) (ord : Bool) : State :=
  let kc := s.core c
  let tid := kc.lsu.nextTid
  let r := kc.row m (row + k)
  let s := s.setCore c { kc with lsu := { kc.lsu with nextTid := tid + 1, outs := kc.lsu.outs ++ [(tid, OutOp.msg entry)] } }
  s.inject { s.mkPkt .msg (BitVec.ofNat 11 c.toNat) 1 tid (sendAddr e land k) with
             ord := ord || decide (k ≠ 0), sb := true, op6 := sendWord e entry.toNat l k, side := r.side, data := r.data }

/-- QSEND (R291, R292): checks, waits for credits and for room in the send buffer, then takes its credits and MSGID and sends its rows. -/
def execQsend (c : CoreId) (e : BitVec 5) (gs gl : Reg) (lm1 : BitVec 3) (ord : Bool) (s : State) : Out :=
  let ws := enc2 0x3A (gl.toNat * 16 + gs.toNat) (e.toNat * 2 ^ 6 + lm1.toNat * 2 ^ 3 + bnat ord * 2 ^ 2)
  let l := lm1.toNat + 1
  .next (s.issue c ws [gs, gl] (fun t =>
    let ent := (t.core c).que.entry e.toNat
    let src := t.reg c gs
    let land := (t.reg c gl).toNat
    match sendCheck t ent src l land (decide (gl = 0)) false with
    | .error sub => .trip t { vec := 3, sub, info := e.toNat }
    | .ok m =>
      if sctCred ent < sendCost ent l ∨ t.sendRoom c l = false then .wait (.send e)
      else
        let ent' := setBits (setBits ent 0 12 (sctCred ent - sendCost ent l)) 12 7 (sctMsgid ent + 1)
        let t := t.modCore c (fun k => { k with que := k.que.setEntry e.toNat ent' })
        .done ((List.range l).foldl (fun t k => t.sendRow c ent e m (srcRow src) land l k ord) t)
          (fun t => t.portReads c m ((List.range l).map (srcRow src + ·)) .clean)))

/-- QCMB (R293): one row as a contribution with CNT = 1, once the send buffer has room. -/
def execQcmb (c : CoreId) (e : BitVec 5) (gs gi : Reg) (rf : BitVec 2) (red ord : Bool) (s : State) : Out :=
  let ws := enc2 0x3A (gi.toNat * 16 + gs.toNat) (2 ^ 11 + e.toNat * 2 ^ 6 + rf.toNat * 2 ^ 4 + bnat red * 2 ^ 3 + bnat ord * 2 ^ 2)
  .next (s.issue c ws [gs, gi] (fun t =>
    if rf = 3 then illegal t ws 0
    else if red && ord then illegal t ws 1
    else
      let ent := (t.core c).que.entry e.toNat
      let src := t.reg c gs
      let land := (t.reg c gi).toNat
      match sendCheck t ent src 1 land true true with
      | .error sub => .trip t { vec := 3, sub, info := e.toNat }
      | .ok m =>
        if t.sendRoom c 1 = false then .wait (.send e)
        else
        let k := t.core c
        let tid := k.lsu.nextTid
        let r := k.row m (srcRow src)
        let t := t.setCore c { k with lsu := { k.lsu with nextTid := tid + 1, outs := if red then k.lsu.outs else k.lsu.outs ++ [(tid, OutOp.msg e)] } }
        .done (t.inject { t.mkPkt .cmb (BitVec.ofNat 11 c.toNat) 1 tid (sendAddr ent land 0) with
                          ord, red, sb := true, rfmt := rf, cnt := 1, op6 := BitVec.ofNat 32 (sctRq ent % 8), side := r.side, data := r.data })
          (fun t => t.portReads c m [srcRow src] .clean)))

/-! ## FENCE (R320) -/

/-- Scope S of a fence is clear: every operand row that the matrix engines requested is delivered, and no row of another core's window is unanswered; a write to the core's own rows is in its bank when it issues (Table 13.12). -/
def Core.sClear (k : Core) : Bool :=
  (k.mat.f.queue ++ k.mat.b.queue).all (fun q => (q.want false).isNone && (q.want true).isNone)
    && k.lsu.outs.all (fun o => match o.2 with | .row _ _ => false | _ => true)

/-- Scope Q is clear: no message row, contribution with RED = 0 or semaphore operation with H = 0 is unanswered, and the last flit of every contribution with RED = 1 has been injected (Table 13.12). -/
def State.qClear (s : State) (c : CoreId) : Bool :=
  let l := (s.core c).lsu
  l.outs.all (fun o => match o.2 with | .msg _ => false | _ => true) && l.sems.all (fun e => e.2.1)
    && !s.net.any (fun p => decide (p.kind = .cmb) && p.red && s.inSendBuffer c p)

/-- Every earlier operation in the scopes of `m` has reached its point (Table 13.12). -/
def State.fenceClear (s : State) (c : CoreId) (m : BitVec 4) : Bool :=
  (!m.getLsbD 0 || (s.core c).lsu.mClear) && (!m.getLsbD 1 || (s.core c).sClear) && (!m.getLsbD 2 || s.qClear c)

/-- FENCE (R58, R320): holds until the scopes of `m` are clear. [DESIGN CHOICE, log entry 147: unsafe] -/
def execFence (c : CoreId) (m : BitVec 4) (s : State) : Out :=
  let ws := enc1 0 3 m.toNat
  .next (s.issue c ws [] (fun t =>
    if m.getLsbD 3 ∨ m = 0 then illegal t ws 1
    else if t.fenceClear c m then .done t else .wait (.fence m)))

/-- What a response hold waits for has come (R358). -/
def State.holdOver (s : State) (c : CoreId) : Bool :=
  let k := s.core c
  match k.run.wait with
  | .load gs => if gs.isEmpty then k.lsu.busy.isEmpty else !k.regBusy gs
  | .fence m => s.fenceClear c m
  | _ => false

/-- A response hold that is over withdraws its stall request, even while the core's region is frozen (R358). -/
def State.endOver (s : State) (c : CoreId) : State := if (s.core c).run.stall && s.holdOver c then s.endHold c else s

/-! ## The other queue commands (R294) -/

/-- QSTAT (R294): RSTATr, or 0 for a ring that is not enabled. -/
def execQstat (c : CoreId) (gd : Reg) (r : BitVec 4) (s : State) : Out :=
  .next (s.issue c (enc2 0x3A (gd.toNat * 16) (2 * 2 ^ 11 + r.toNat)) [gd] (fun t =>
    let q := (t.core c).que
    .done (t.setReg c gd (if rcEn (Table.get 0 q.rcfg r.toNat) then (q.ring r.toNat).stat else 0))))

/-- Releases the head message of a ring (R294): the ring without it, and what was released. -/
def Ring.pop (g : Ring) : Option (Ring × MsgRec) :=
  match g.recs with
  | m :: ms => if m.complete then some ({ g with recs := ms, occ := g.occ - (m.len + m.waste) }, m) else none
  | [] => none

/-- QPOP (R294): releases the head message, returns its credits and writes the rows released. -/
def execQpop (c : CoreId) (gd : Reg) (r : BitVec 4) (s : State) : Out :=
  .next (s.issue c (enc2 0x3A (gd.toNat * 16) (3 * 2 ^ 11 + r.toNat)) [gd] (fun t =>
    let q := (t.core c).que
    if rcEn (Table.get 0 q.rcfg r.toNat) then
      match (q.ring r.toNat).pop with
      | some (g, m) =>
        let n := m.len + m.waste
        let t := t.modCore c (fun k => { k with que := k.que.setRing r.toNat g })
        .done ((t.credit c m.key m.cm n).setReg c gd (BitVec.ofNat 32 n))
      | none => .done (t.setReg c gd 0)
    else .done (t.setReg c gd 0)))

/-- QCRED (R294): CRED of an entry. -/
def execQcred (c : CoreId) (gd : Reg) (e : BitVec 5) (s : State) : Out :=
  .next (s.issue c (enc2 0x3A (gd.toNat * 16) (4 * 2 ^ 11 + e.toNat * 2 ^ 6)) [gd] (fun t =>
    .done (t.setReg c gd (BitVec.ofNat 32 (sctCred ((t.core c).que.entry e.toNat))))))

/-- QARM (R294): EXP ← gs[23:0], CNT ← 0, DONE and OVF cleared. -/
def execQarm (c : CoreId) (q : BitVec 3) (gs : Reg) (s : State) : Out :=
  .next (s.issue c (enc2 0x3A gs.toNat (5 * 2 ^ 11 + q.toNat)) [gs] (fun t =>
    let v := t.reg c gs
    .done (t.modCore c (fun k => { k with que := { k.que with
      cqexp := Table.put k.que.cqexp q.toNat (v.setWidth 24), cqstat := Table.erase k.que.cqstat q.toNat } }))))

/-- SEND_STALL_EVENT (R297): the oldest waiting send has waited 2^LOG2N cycles; once per waiting episode. -/
def execSendStallEvent (c : CoreId) (s : State) : Out :=
  let k := s.core c
  match k.run.wait with
  | .send e =>
    if s.coreOn c.toNat && k.que.ssdEn && !k.que.stalled && decide (2 ^ k.que.ssdLog.toNat ≤ k.que.qswc.toNat) then
      let k := { k with que := { k.que with ssdEvt := true, stalled := true }, cpu := { k.cpu with intp := k.cpu.intp ||| 4 } }
      .next (((s.setCore c k).count 0x4040 3).logEv 0x0704 false (lf c.toNat ++ lf e.toNat ++ lf s.beat.bcnt.toNat))
    else .next s
  | _ => .next s

end Sys2Proof.Machine
end

