-- ==== Sys2Proof/Machine/Semaphores.lean ====
section
/-! DEFINITION. The semaphore and watch commands of prefix 0x3B (R305-R309, R317) and the DMA commands of prefix 0x3C (R330, R331). -/

namespace Sys2Proof.Machine

/-! ## Name words (R302, R317) -/

/-- What a name word comes to at issue: a physical name, a table entry that is awaited, or no valid translation. -/
inductive Named where
  | phys (snw : Word)
  | miss (key : Nat)
  | invalid
deriving DecidableEq, Repr

/-- The issuing core's unit translates a name word in virtual mode (R317). -/
def State.named (s : State) (c : CoreId) (snw : Word) : Named :=
  let y := (s.clu (clusterOf c.toNat)).sync
  if y.vm then
    if bitsOf snw.toNat 31 28 ≠ 0 then .invalid
    else
      let key := vidKey y (kOf c.toNat) snw
      match y.tlb.find? (fun e => decide (e.1 = key)) with
      | some (_, e) => if e.getLsbD 31 then .phys (physName snw e) else .invalid
      | none => .miss key
  else .phys snw

/-- A command's translation miss (R317): the entry is awaited at the unit, and the miss counts once for the command, which waits for it since `first`. -/
def State.missAt (s : State) (c : CoreId) (key : Nat) (first : Bool) : State :=
  let cl := clusterOf c.toNat
  let s := if (s.clu cl).sync.misses.contains key then s else s.modSync cl (fun y => { y with misses := y.misses ++ [key] })
  if first then s.count 0x4050 3 else s

/-- CORE, SEM and DEV of a physical name word (Table 13.1). -/
def snwCore (v : Word) : Nat := bitsOf v.toNat 31 22
/-- SEM. -/
def snwSem (v : Word) : Nat := bitsOf v.toNat 21 16
/-- DEV. -/
def snwDev (v : Word) : DevId := BitVec.ofNat 10 (bitsOf v.toNat 15 6)

/-- The value word's fabric address (R306). -/
def snwAddr (s : State) (v : Word) : FAddr := mkFAddr (s.resolveDev (snwDev v)) (semAddr (snwCore v) (snwSem v))

/-- The name-word checks of R306 in order: the bus error's sub-cause, if one fails. -/
def nameCheck (s : State) (c : CoreId) (v : Word) (wait : Bool) : Option Nat :=
  let here := decide (s.resolveDev (snwDev v) = s.own)
  if 48 ≤ snwSem v then some 3
  else if here && !s.coreOn (snwCore v) then some 2
  else if wait && !(here && decide (snwCore v = c.toNat)) then some 1
  else none

/-- Issue of a semaphore command after its encoding (R305-R308): `op` and `val` of the packet; `hold` holds issue for the SACK. -/
def semIssue (s : State) (c : CoreId) (ws : List Nat) (gn gv : Reg) (op : Nat) (val : Word → Word) (hold wait ord : Bool) : Out :=
  .next (s.issue c ws [gn, gv] (fun t =>
    let k := t.core c
    if 8 ≤ k.lsu.sems.length then .wait .other
    else match t.named c (t.reg c gn) with
      | .miss key => .wait (.miss key) (fun s => s.missAt c key (decide (k.run.wait ≠ .miss key)))
      | .invalid => .trip t { vec := 3, sub := 3 }
      | .phys v =>
        match nameCheck t c v wait with
        | some sub => .trip t { vec := 3, sub, faddr := snwAddr t v }
        | none =>
          let tid := k.lsu.nextTid
          let p := semPkt t (BitVec.ofNat 11 c.toNat) 0 tid (snwDev v) (snwCore v) (snwSem v) op
            (if op = 4 then bitsOf v.toNat 5 0 else 0) (val (t.reg c gv)) ord
          let k := { k with lsu := { k.lsu with nextTid := tid + 1, sems := k.lsu.sems ++ [(tid, hold, v, snwAddr t v, k.cpu.pc)] } }
          if hold then
            .stay ((t.setCore c { k with run := { k.run with hold := .sem tid v wait false k.cpu.pc } }).inject p)
          else .done ((t.setCore c k).inject p)))

/-- Words of a semaphore command (Table 13.3). -/
def semWords (op : Nat) (gn gv : Reg) (b : Nat) : List Nat := enc2 0x3B (gn.toNat * 16 + gv.toNat) (op * 2 ^ 11 + b)

/-- SADD (R305): adds gv + imm. -/
def execSadd (c : CoreId) (gn gv : Reg) (imm : BitVec 9) (h ord : Bool) (s : State) : Out :=
  semIssue s c (semWords 0 gn gv (bnat h * 2 ^ 10 + bnat ord * 2 ^ 9 + imm.toNat)) gn gv 0 (fun v => v + imm.setWidth 32) h false ord

/-- SSUB (R305): subtracts gv + imm. -/
def execSsub (c : CoreId) (gn gv : Reg) (imm : BitVec 9) (h ord : Bool) (s : State) : Out :=
  semIssue s c (semWords 1 gn gv (bnat h * 2 ^ 10 + bnat ord * 2 ^ 9 + imm.toNat)) gn gv 1 (fun v => v + imm.setWidth 32) h false ord

/-- SWAIT (R305, R307): waits until the value reaches gv[30:0]; with D, subtracts it. -/
def execSwait (c : CoreId) (gn gv : Reg) (d : Bool) (s : State) : Out :=
  semIssue s c (semWords 2 gn gv (bnat d * 2 ^ 10)) gn gv (if d then 3 else 2) (fun v => v &&& 0x7FFFFFFF) true true false

/-- SWATCH (R305): arms watch entry WATCH of the owner's cluster with threshold gv[30:0]. -/
def execSwatch (c : CoreId) (gn gv : Reg) (h ord : Bool) (s : State) : Out :=
  semIssue s c (semWords 3 gn gv (bnat h * 2 ^ 10 + bnat ord * 2 ^ 9)) gn gv 4 (fun v => v &&& 0x7FFFFFFF) h false ord

/-- SWAIT_CANCEL (R309): an interrupt that qualifies while swait holds issue sends a cancel; the hold goes on. -/
def execSwaitCancel (c : CoreId) (s : State) : Out :=
  let k := s.core c
  match k.run.hold with
  | .sem tid v true false pc =>
    if s.coreOn c.toNat && decide (k.run.st = .running) && !s.beat.frz && k.intDue then
      let p := semPkt s (BitVec.ofNat 11 c.toNat) 0 tid (snwDev v) (snwCore v) (snwSem v) 5 0 0 false
      .next ((s.setCore c { k with run := { k.run with hold := .sem tid v true true pc } }).inject p)
    else .next s
  | _ => .next s

/-- TRANSLATION_MISS_FILL (R317): the oldest awaited table entry is read from stack memory into the 64-entry buffer; an entry that cannot be read counts as invalid. -/
def execTranslationMissFill (cl : ClusterId) (s : State) : Out :=
  let y := (s.clu cl.toNat).sync
  match y.misses with
  | [] => .next s
  | key :: ms =>
    if s.cluOn cl.toNat then
      let a := vidAddr y (key / 4096) (key % 4096)
      let s := if memTop ≤ a then s else s.localSee a 4
      let e : Word := if memTop ≤ a ∨ s.localBad a 4 then 0 else BitVec.ofNat 32 (leNat (s.localRead a 4))
      let tlb := y.tlb ++ [(key, e &&& 0x83FF003F)]
      .next (s.modSync cl.toNat (fun y => { y with misses := ms, tlb := if 64 < tlb.length then tlb.drop 1 else tlb }))
    else .next s

/-! ## DMA commands (R330, R331) -/

/-- A channel that an accepted start has queued (R331). -/
def Chan.started (h : Chan) (prog : BitVec 56) (owner : Nat) (mgs : Bool) : Chan :=
  { h with prog, crc := 0xFFFFFFFF, bytes := 0, faddr := 0, it0 := 0, it1 := 0, err := 0, estat := 0, ipc := 0,
           mgs, owner := BitVec.ofNat 4 owner, st := .queued, blocks := [], loops := [], aba := 0, moves := [],
           outs := [], writes := [], abort := false, last := false, failing := none, waitP := none }

/-- Whether a channel is in a run: QUEUED, RUN or WAIT. -/
def Chan.busy (h : Chan) : Bool := decide (h.st = .queued) || decide (h.st = .run) || decide (h.st = .wait)

/-- A start request (R331): the result, and the machine after it. -/
def State.startChan (s : State) (cl ch : Nat) (prog : BitVec 56) (owner : Nat) (sup mgs : Bool) : State × Nat :=
  let h := s.chan cl ch
  if h.busy then (s, 1)
  else if h.dis then (s, 2)
  else if !sup && !h.task then (s, 3)
  else
    let s := s.setChan cl ch (h.started prog owner mgs)
    (s.setClu cl { s.clu cl with queue := (s.clu cl).queue ++ [BitVec.ofNat 3 ch] }, 0)

/-- Words of a DMA command (Table 14.4). -/
def dmaWords (op : Nat) (gd gp : Reg) (ch : ChanId) : List Nat := enc2 0x3C (gd.toNat * 16 + gp.toNat) (op * 2 ^ 11 + ch.toNat * 2 ^ 8)

/-- DSTART (R331): a start of a channel of the core's own cluster; gd takes the result. -/
def execDstart (c : CoreId) (gd : Reg) (ch : ChanId) (gp : Reg) (s : State) : Out :=
  let ws := dmaWords 0 gd gp ch
  .next (s.issue c ws [gd, gp, gp + 1] (fun t =>
    if gp.toNat % 2 ≠ 0 then illegal t ws 2
    else
      let a := BitVec.ofNat 56 ((t.reg c gp).toNat + (t.reg c (gp + 1)).toNat * 2 ^ 32)
      let (t', r) := t.startChan (clusterOf c.toNat) ch.toNat a (kOf c.toNat) (t.core c).cpu.sup false
      .done (t'.setReg c gd (BitVec.ofNat 32 r))))

/-- DSTAT (R331): DCH_STAT of a channel. -/
def execDstat (c : CoreId) (gd : Reg) (ch : ChanId) (s : State) : Out :=
  .next (s.issue c (dmaWords 1 gd 0 ch) [gd] (fun t =>
    .done (t.setReg c gd (t.chan (clusterOf c.toNat) ch.toNat).stat)))

/-- DABORT (R331, R344): an abort request; gd takes the result. -/
def execDabort (c : CoreId) (gd : Reg) (ch : ChanId) (s : State) : Out :=
  .next (s.issue c (dmaWords 2 gd 0 ch) [gd] (fun t =>
    let cl := clusterOf c.toNat
    let h := t.chan cl ch.toNat
    if !h.busy then .done (t.setReg c gd 1)
    else if !(t.core c).cpu.sup && !h.task then .done (t.setReg c gd 3)
    else .done ((t.abortChan cl ch.toNat).setReg c gd 0)))

end Sys2Proof.Machine
end

