-- ==== Sys2Proof/Machine/Dma.lean ====
section
/-! DEFINITION. The DMA engines and their Gecko programs (chapter 14). -/

namespace Sys2Proof.Machine

/-! ## CRC-32C (R341) -/

/-- One bit of the reflected CRC. -/
def crcBit (r : Word) : Word := if r.getLsbD 0 then (r >>> 1) ^^^ 0x82F63B78 else r >>> 1
/-- One byte. -/
def crcByte (r : Word) (b : Byte) : Word := (List.range 8).foldl (fun r _ => crcBit r) (r ^^^ b.setWidth 32)
/-- The running register after a list of bytes. -/
def crcBytes (r : Word) (bs : List Byte) : Word := bs.foldl crcByte r

/-! ## Address classes of a MOVE side (Table 14.6) -/

/-- The rule that a byte of a range falls under. -/
inductive SideKind where
  | memory | rows | bands | bulk | regs | never
deriving DecidableEq, Repr

/-- The rule for a fabric address (Tables 14.6, 10.4). An address without a target meets no rule and fails at its target. -/
def sideKind (a : Nat) : SideKind :=
  match targetOf (a % 2 ^ 46) with
  | .mem _ _ => .memory
  | .nothing => .memory
  | .hole _ => .memory
  | .data _ _ _ _ => .rows
  | .side _ _ _ _ => .bands
  | .way _ _ => .never
  | .command _ => .never
  | .coreCtl _ o => if (0x2000 ≤ o ∧ o < 0x4000) ∨ 0x8000 ≤ o then .bulk else .regs
  | _ => .regs

/-- Access sizes of a rule, largest first. -/
def SideKind.sizes : SideKind → List Nat
  | .memory => [512, 64, 32, 8, 4, 2, 1]
  | .rows => [512]
  | .bands => [512, 32]
  | .bulk => [512, 64]
  | .regs => [4]
  | .never => []

/-- Whether address and length respect a rule (Table 14.6). -/
def SideKind.fits (k : SideKind) (a n : Nat) : Bool :=
  let by_ (m : Nat) : Bool := decide (a % m = 0) && decide (n % m = 0)
  match k with
  | .memory => true | .rows => by_ 512 | .bands => by_ 32 | .bulk => by_ 64 | .regs => by_ 4 | .never => false

/-- Whether the range of `n` bytes from `a` respects the rule of every block that it meets; no rule changes within 4 KiB (R337). -/
def rangeFits (a n : Nat) : Bool :=
  (List.range ((a % 4096 + n + 4095) / 4096)).all (fun i => (sideKind (max a (a / 4096 * 4096 + 4096 * i))).fits a n)

/-- The access size at address `a` with `r` bytes remaining (R336). -/
def accessSize (k : SideKind) (a r : Nat) : Nat :=
  (k.sizes.find? (fun z => decide (a % z = 0) && decide (z ≤ r))).getD 1

/-! ## Channels -/

/-- The channel in RUN or WAIT of a cluster: the head of its queue (R328). [DEDUCED, log entry 64: unsafe] -/
def Cluster.running (u : Cluster) : Option ChanId :=
  match u.queue with
  | ch :: _ =>
    let h := u.chan ch.toNat
    if h.st = .run ∨ h.st = .wait then some ch else none
  | [] => none

/-- Every earlier write of the channel has been acknowledged: MOVE writes and checksum records (R340, R342). -/
def Chan.acked (h : Chan) : Bool :=
  h.writes.isEmpty && h.outs.all (fun o => match o.2 with | .record _ _ => false | _ => true)

/-- A fresh transaction ID of a channel: its number in the top bits. [DESIGN CHOICE, log entry 23: unsafe] -/
def Chan.tid (h : Chan) (ch : Nat) : BitVec 12 := BitVec.ofNat 12 (ch * 512 + h.nextTid.toNat)

/-- The next transaction ID is apart from those of every access not yet answered. -/
def Chan.tidFree (h : Chan) : Bool :=
  h.outs.all (fun o => decide ((h.nextTid - o.1.setWidth 9).toNat < 256)) && h.writes.all (fun w => decide ((h.nextTid - w.tid.setWidth 9).toNat < 256))

/-- A read of `n` bytes by a channel. -/
def State.chanRead (s : State) (cl ch : Nat) (a : Nat) (n : Nat) (op : ChOp) : State :=
  let h := s.chan cl ch
  let tid := h.tid ch
  let s := s.setChan cl ch { h with nextTid := h.nextTid + 1, outs := h.outs ++ [(tid, op)] }
  s.inject { s.mkPkt .rd (cluNode cl) 2 tid (s.resolve a) with size := sizeCode n }

/-- A channel leaves the queue in a final state. -/
def State.endChan (s : State) (cl ch : Nat) (st : ChSt) : State :=
  let s := s.setChan cl ch { s.chan cl ch with st, moves := [], outs := [], writes := [], waitP := none }
  s.setClu cl { s.clu cl with queue := (s.clu cl).queue.filter (fun x => decide (x ≠ BitVec.ofNat 3 ch)) }

/-- The 32 bytes of a checksum record (Table 14.8). -/
def recordBytes (s : State) (h : Chan) (abt err : Bool) (code ipc : Nat) : List Byte :=
  leBytes 4 (h.crc ^^^ 0xFFFFFFFF).toNat ++ leBytes 4 (bnat abt * 2 ^ 31 + bnat err * 2 ^ 30 + code * 2 ^ 26 + ipc)
    ++ leBytes 8 h.bytes.toNat ++ leBytes 4 s.beat.bcnt.toNat ++ leBytes 12 0

/-- A 32-byte write of a record. -/
def recordPkt (s : State) (cl : Nat) (tid : BitVec 12) (a : Nat) (bs : List Byte) : Packet :=
  (s.mkPkt .wr (cluNode cl) 2 tid (s.resolve a)).withPayload bs

/-- The final record of an error or an abort, where HEAD named one (R342-R344). [DEDUCED, log entry 65: unsafe] -/
def State.finalRecord (s : State) (cl ch : Nat) (err : Bool) (code ipc : Nat) : State :=
  let h := s.chan cl ch
  if h.aba = 0 then s
  else (s.setChan cl ch { h with nextTid := h.nextTid + 1 }).inject (recordPkt s cl (h.tid ch) h.aba.toNat (recordBytes s h h.abort err code ipc))

/-- A failing channel whose writes are all answered ends in ERROR (R343). -/
def State.settleFail (s : State) (cl ch : Nat) : State :=
  let h := s.chan cl ch
  match h.failing with
  | none => s
  | some f =>
    if h.writes.all (·.acked) && h.outs.all (fun o => match o.2 with | .record _ _ => false | _ => true) then
      let s := if f.err = 8 then s else s.finalRecord cl ch true f.err.toNat f.ipc
      let s := s.setChan cl ch { s.chan cl ch with err := f.err, estat := f.estat, faddr := f.faddr, ipc := BitVec.ofNat 16 f.ipc, failing := none }
      let s := s.endChan cl ch .error
      let s := if h.mgs then s
        else s.modCore (BitVec.ofNat 10 (coreOfK cl h.owner.toNat)) (fun k => { k with cpu := { k.cpu with intp := k.cpu.intp ||| 8 } })
      (s.count 0x4060 1).logEv 0x0901 true
        (lf cl ++ lf ch ++ lf h.owner.toNat ++ lf f.err.toNat ++ lf f.estat.toNat ++ lf f.ipc ++ lf f.faddr.toNat)
    else s

/-- A channel meets an error (R343): the first one counts, no further request is made, reads in flight are discarded. -/
def State.chanFail (s : State) (cl ch : Nat) (err estat : Nat) (faddr : FAddr) (ipc : Nat) : State :=
  let h := s.chan cl ch
  if h.failing.isSome then s.settleFail cl ch
  else
    (s.setChan cl ch { h with
      failing := some { err := BitVec.ofNat 4 err, estat := BitVec.ofNat 4 estat, faddr, ipc },
      moves := [], st := .run,
      outs := h.outs.filter (fun o => match o.2 with | .record _ _ => true | _ => false) }).settleFail cl ch

/-! ## Program fetch (R333) -/

/-- Fabric address of a block. -/
def Chan.blockAddr (h : Chan) (n : Nat) : Nat := (h.prog.toNat / 512 + n) * 512
/-- A block is held or being fetched. -/
def Chan.hasBlock (h : Chan) (n : Nat) : Bool :=
  (Table.look h.blocks n).isSome || h.outs.any (fun o => match o.2 with | .fetch b => decide (b = n) | _ => false)

/-- Requests block `n` unless it is held or on its way; the channel holds this block and the one before it (R333). -/
def State.fetchBlock (s : State) (cl ch n : Nat) : State :=
  let h := s.chan cl ch
  if h.hasBlock n then s
  else
    let s := s.setChan cl ch { h with blocks := h.blocks.filter (fun b => decide (b.1 + 1 = n)) }
    s.chanRead cl ch (h.blockAddr n) 512 (.fetch n)

/-- Makes the instruction at index `i` the next one: its block is requested where it is not held, and the next block once it lies in a second half (R333). -/
def State.goTo (s : State) (cl ch i : Nat) : State :=
  let h := s.chan cl ch
  if 65535 < i then s.chanFail cl ch 2 0 0 65535
  else
    let s := s.setChan cl ch { h with ipc := BitVec.ofNat 16 i }
    let n := h.blockOf i
    let s := s.fetchBlock cl ch n
    if 256 ≤ (h.prog.toNat + 32 * i) % 512 then s.fetchBlock cl ch (n + 1) else s

/-! ## Instruction fields (Table 14.5) -/

/-- Bytes lo to hi of an instruction as a number. -/
def gBytes (w : BitVec 256) (lo hi : Nat) : Nat := bitsOf w.toNat (8 * hi + 7) (8 * lo)

/-- Whether every res field of an instruction is zero (Table 14.5). -/
def gResOk (w : BitVec 256) : Bool :=
  let z (hi lo : Nat) : Bool := decide (bitsOf w.toNat hi lo = 0)
  match gOp w with
  | 1 => z 22 0 && z 127 120 && z 191 184 && z 255 192
  | 2 => z 27 0 && z 63 56 && z 255 192
  | 3 => z 27 0 && z 255 32
  | 4 => z 25 0 && z 95 95 && z 255 128
  | 5 => z 27 0 && z 255 96
  | 6 => z 26 0 && z 63 32 && z 255 120
  | 7 => z 27 0 && z 255 32
  | 8 => z 27 0 && z 63 32 && z 255 120
  | _ => false

/-- A Gecko instruction of opcode `op` at the IPC of the running channel: a reserved opcode or a non-zero res field ends the run with ILLEGAL, whatever instruction was asked for; otherwise `f` runs where the opcode is `op` (R333). -/
def State.gecko (s : State) (cl : ClusterId) (op : Nat) (f : State → Nat → Nat → Chan → BitVec 256 → Out) : Out :=
  let u := s.clu cl.toNat
  match u.running with
  | none => .next s
  | some ch =>
    let h := u.chan ch.toNat
    if s.cluOn cl.toNat && decide (h.st = .run) && (!h.abort || (h.last && (op == 5 || op == 6))) && h.failing.isNone && h.moves.all (fun m => decide (m.reqd = m.len)) then
      match h.instr with
      | none => .next s
      | some w =>
        if gOp w = 0 ∨ 8 < gOp w ∨ (gOp w = op ∧ gResOk w = false) then .next (s.chanFail cl.toNat ch.toNat 2 0 0 h.ipc.toNat)
        else if gOp w = op then f s cl.toNat ch.toNat h w
        else .next s
    else .next s

/-! ## MOVE (R335-R338, R345) -/

/-- Bytes of the burst buffer in use (R345). -/
def Chan.inBuffer (h : Chan) : Nat := h.moves.foldl (fun n m => n + (m.reqd - m.wrtn)) 0

/-- Reads of the last MOVE issue while the 16 KiB buffer has room (R345). [DEDUCED, log entry 63: unsafe] -/
def State.pumpReads (cl ch : Nat) : Nat → State → State
  | 0, s => s
  | fuel + 1, s =>
    let h := s.chan cl ch
    match h.moves.getLast? with
    | none => s
    | some m =>
      if m.reqd < m.len then
        let z := accessSize (sideKind (m.src + m.reqd)) (m.src + m.reqd) (m.len - m.reqd)
        if h.inBuffer + z ≤ 16384 ∧ h.tidFree then
          let s := s.setChan cl ch { h with moves := h.moves.dropLast ++ [{ m with reqd := m.reqd + z }] }
          State.pumpReads cl ch fuel (s.chanRead cl ch (m.src + m.reqd) z (.read m.seq m.idx m.reqd z (BitVec.ofNat 56 (m.src + m.reqd))))
        else s
      else s

/-- Bytes `o` to `o + n - 1` of a MOVE, where all have arrived. -/
def MoveSt.ready (m : MoveSt) (o n : Nat) : Option (List Byte) :=
  (List.range n).foldr (fun i acc =>
    match acc, Table.look m.buf (o + i) with
    | some bs, some b => some (b :: bs)
    | _, _ => none) (some [])

/-- Whether destination byte `o` of a MOVE lies in its source range (R335). -/
def MoveSt.clash (m : MoveSt) (o : Nat) : Bool := decide (m.src ≤ m.dst + o) && decide (m.dst + o < m.src + m.span)

/-- The bytes a MOVE writes at `o`: overlapping ones are undefined (R335). -/
def MoveSt.out (m : MoveSt) (o : Nat) (bs : List Byte) : List Byte :=
  match m.free with
  | none => bs
  | some f => (List.range bs.length).map (fun i => if m.clash (o + i) then Config.overlapByte f (o + i) else bs.getD i 0)

/-- Writes of the oldest unfinished MOVE issue in destination order as their bytes arrive (R336, R345). -/
def State.pumpWrites (cl ch : Nat) : Nat → State → State
  | 0, s => s
  | fuel + 1, s =>
    let h := s.chan cl ch
    match h.moves with
    | [] => s
    | m :: ms =>
      if m.wrtn = m.len then
        if m.reqd = m.len then State.pumpWrites cl ch fuel (s.setChan cl ch { h with moves := ms }) else s
      else if h.tidFree = false then s
      else
        let z := accessSize (sideKind (m.dst + m.wrtn)) (m.dst + m.wrtn) (m.len - m.wrtn)
        match m.ready m.wrtn z with
        | none => s
        | some bs =>
          let bs := m.out m.wrtn bs
          let tid := h.tid ch
          let a := s.resolve (m.dst + m.wrtn)
          let p := (s.mkPkt .wr (cluNode cl) 2 tid a).withPayload bs
          let p : Packet := if m.side then { p with sb := true, side := Table.get 0 m.sides m.wrtn } else p
          let m' := { m with wrtn := m.wrtn + z, buf := m.buf.filter (fun e => decide (m.wrtn + z ≤ e.1)) }
          let s := s.setChan cl ch { h with nextTid := h.nextTid + 1, moves := m' :: ms, writes := h.writes ++ [{ tid, idx := m.idx, bytes := bs, crc := m.crc, addr := BitVec.ofNat 56 (m.dst + m.wrtn), acked := false }] }
          State.pumpWrites cl ch fuel (s.inject p)

/-- Reads and writes of a channel go on as room and data allow; once the last read of a MOVE has issued the next instruction is due, where no abort came (R344, R345). -/
def State.pumpChan (s : State) (cl ch : Nat) : State :=
  let h := s.chan cl ch
  if h.failing.isSome then s
  else
    let before := h.moves.getLast?
    let s := State.pumpReads cl ch 5000 (State.pumpWrites cl ch 5000 s)
    let s := State.pumpWrites cl ch 5000 s
    match before with
    | some m => if m.reqd < m.len ∧ h.abort = false ∧ (((s.chan cl ch).moves.getLast?).all (fun x => decide (x.reqd = x.len))) then s.goTo cl ch (m.idx + 1) else s
    | none => s

/-- The reads and writes that an abort leaves a channel go on, however the abort came (R344). -/
def State.abortCycle (s : State) : State :=
  (s.clus.map (fun kv => kv.1)).foldl (fun s cl => forN 8 (fun s ch => if (s.chan cl ch).abort then s.pumpChan cl ch else s) s) s

/-- Strides of an open level for one set (R335). -/
def GLoop.stride (l : GLoop) (set : Bool) (dst : Bool) : Int :=
  match set, dst with
  | false, false => l.sa | false, true => l.da | true, false => l.sb | true, true => l.db

/-- The stride sum of a MOVE side (R335). -/
def strideSum (ls : List GLoop) (set dst : Bool) : Int := ls.foldl (fun z l => z + (l.it : Int) * l.stride set dst) 0

/-- MOVE (R335-R338): its ranges are checked, and its reads begin. -/
def execMove (cl : ClusterId) (s : State) : Out :=
  s.gecko cl 1 (fun s cl ch h w =>
    let i := h.ipc.toNat
    let len := gBytes w 4 7
    let set := w.getLsbD 24
    let src : Int := (gBytes w 8 14 : Int) + (if w.getLsbD 26 then strideSum h.loops set false else 0)
    let dst : Int := (gBytes w 16 22 : Int) + (if w.getLsbD 25 then strideSum h.loops set true else 0)
    let top : Int := (2 ^ 56 : Nat)
    if len = 0 then .next (s.chanFail cl ch 2 0 0 i)
    else if src < 0 ∨ dst < 0 ∨ top < src + len ∨ top < dst + len then .next (s.chanFail cl ch 3 0 0 i)
    else
      let a := (s.resolve src.toNat).toNat
      let b := (s.resolve dst.toNat).toNat
      if !rangeFits a len || !rangeFits b len then .next (s.chanFail cl ch 3 0 0 i)
      else if w.getLsbD 23 ∧ h.acked = false then .next s
      else if w.getLsbD 23 ∧ h.moves.isEmpty = false then .next s
      else
        let exceeds := decide (a < b + len) && decide (b < a + len)
        let (s, f) := if exceeds then s.draw else (s, 0)
        let m : MoveSt := { seq := h.nextSeq, idx := i, src := a, dst := b, span := len, len, crc := w.getLsbD 27, side := decide (sideKind a = .rows) && decide (sideKind b = .rows), reqd := 0, wrtn := 0, buf := [], sides := [], free := if exceeds then some f else none }
        .next ((s.setChan cl ch { h with moves := h.moves ++ [m], nextSeq := h.nextSeq + 1 }).pumpChan cl ch))

/-! ## The other instructions -/

/-- LOOP (R334): opens level 0, or level 1 inside it. -/
def execGeckoLoop (cl : ClusterId) (s : State) : Out :=
  s.gecko cl 2 (fun s cl ch h w =>
    let i := h.ipc.toNat
    let n := gBytes w 4 6
    if n = 0 ∨ 2 ≤ h.loops.length then .next (s.chanFail cl ch 2 0 0 i)
    else
      let st (lo : Nat) : Int := (BitVec.ofNat 32 (gBytes w lo (lo + 3))).toInt
      let l : GLoop := { at_ := i, count := n, it := 0, sa := st 8, da := st 12, sb := st 16, db := st 20 }
      let h := if h.loops.isEmpty then { h with it0 := 0 } else { h with it1 := 0 }
      .next ((s.setChan cl ch { h with loops := h.loops ++ [l] }).goTo cl ch (i + 1)))

/-- ENDLOOP (R334): the innermost level goes on with the next index, or closes. -/
def execEndloop (cl : ClusterId) (s : State) : Out :=
  s.gecko cl 3 (fun s cl ch h _ =>
    let i := h.ipc.toNat
    match h.loops.getLast? with
    | none => .next (s.chanFail cl ch 2 0 0 i)
    | some l =>
      if l.it + 1 < l.count then
        let v := BitVec.ofNat 32 (l.it + 1)
        let h := { h with loops := h.loops.dropLast ++ [{ l with it := l.it + 1 }] }
        let h := if h.loops.length = 1 then { h with it0 := v } else { h with it1 := v }
        .next ((s.setChan cl ch h).goTo cl ch (l.at_ + 1))
      else .next ((s.setChan cl ch { h with loops := h.loops.dropLast }).goTo cl ch (i + 1)))

/-- WAIT (R339): a wait operation on a semaphore of the own cluster. -/
def execGeckoWait (cl : ClusterId) (s : State) : Out :=
  s.gecko cl 4 (fun s cl ch h w =>
    let i := h.ipc.toNat
    let v := BitVec.ofNat 32 (gBytes w 4 7)
    let it := if w.getLsbD 26 then h.it1 else h.it0
    let thr := (gBytes w 8 11 + (if w.getLsbD 27 then gBytes w 12 15 * it.toNat else 0)) % 2 ^ 32
    if 2 ^ 31 ≤ thr then .next (s.chanFail cl ch 2 0 0 i)
    else if s.resolveDev (snwDev v) ≠ s.own ∨ clusterOf (snwCore v) ≠ cl ∨ 48 ≤ snwSem v then .next (s.chanFail cl ch 6 0 0 i)
    else
      let tid := h.tid ch
      let p := semPkt s (cluNode cl) 2 tid s.own (snwCore v) (snwSem v) 2 0 (BitVec.ofNat 32 thr) false
      .next ((s.setChan cl ch { h with st := .wait, nextTid := h.nextTid + 1, outs := h.outs ++ [(tid, .sem)], waitP := some p }).inject p))

/-- The instruction after a CSUM or SIGNAL at index `i` is the next one; none is where an abort came while it was in progress (R344). -/
def State.pass (s : State) (cl ch i : Nat) : State :=
  let h := s.chan cl ch
  if h.abort then s.setChan cl ch { h with last := false } else s.goTo cl ch (i + 1)

/-- SIGNAL (R340): once every earlier write is acknowledged, an add with the order flag; the channel goes on. -/
def execSignal (cl : ClusterId) (s : State) : Out :=
  s.gecko cl 5 (fun s cl ch h w =>
    let i := h.ipc.toNat
    let v := BitVec.ofNat 32 (gBytes w 4 7)
    if h.acked = false ∨ h.moves.isEmpty = false then .next s
    else if s.resolveDev (snwDev v) = s.own ∧ s.coreOn (snwCore v) = false then .next (s.chanFail cl ch 6 0 0 i)
    else
      let p := semPkt s (cluNode cl) 2 (h.tid ch) (snwDev v) (snwCore v) (snwSem v) 0 0 (BitVec.ofNat 32 (gBytes w 8 11)) true
      .next (((s.setChan cl ch { h with nextTid := h.nextTid + 1 }).inject p).pass cl ch i))

/-- Whether a record address is 32-byte aligned and of the memory class (R342). -/
def recordAddrOk (a : Nat) : Bool :=
  decide (a % 32 = 0) && (match targetOf (a % 2 ^ 46) with | .mem _ _ => true | _ => false)

/-- CSUM (R342): once every earlier write is acknowledged, a checksum record; R resets the running CRC. -/
def execCsum (cl : ClusterId) (s : State) : Out :=
  s.gecko cl 6 (fun s cl ch h w =>
    let i := h.ipc.toNat
    let a := gBytes w 8 14
    if h.acked = false ∨ h.moves.isEmpty = false then .next s
    else if recordAddrOk a = false then .next (s.chanFail cl ch 3 0 0 i)
    else
      let tid := h.tid ch
      let p := recordPkt s cl tid a (recordBytes s h false false 0 i)
      let h' := { h with nextTid := h.nextTid + 1, outs := h.outs ++ [(tid, ChOp.record i (BitVec.ofNat 56 a))] }
      let h' := if w.getLsbD 27 then { h' with crc := 0xFFFFFFFF, bytes := 0 } else h'
      .next (((s.setChan cl ch h').inject p).pass cl ch i))

/-- END (R333, R345): the run is DONE once every write is acknowledged; an open loop makes it ILLEGAL. -/
def execGend (cl : ClusterId) (s : State) : Out :=
  s.gecko cl 7 (fun s cl ch h _ =>
    if h.loops.isEmpty = false then .next (s.chanFail cl ch 2 0 0 h.ipc.toNat)
    else if h.acked = false ∨ h.moves.isEmpty = false then .next s
    else .next (s.endChan cl ch .done))

/-- HEAD (R342): names the final record; only at instruction 0. -/
def execHead (cl : ClusterId) (s : State) : Out :=
  s.gecko cl 8 (fun s cl ch h w =>
    let i := h.ipc.toNat
    let a := gBytes w 8 14
    if i ≠ 0 ∨ (a ≠ 0 ∧ recordAddrOk a = false) then .next (s.chanFail cl ch 2 0 0 i)
    else .next ((s.setChan cl ch { h with aba := BitVec.ofNat 56 a }).goTo cl ch 1))

/-- CHANNEL_BEGIN (R328, R333, R345): the next queued channel runs and fetches its first block. -/
def execChannelBegin (cl : ClusterId) (s : State) : Out :=
  let u := s.clu cl.toNat
  match u.queue with
  | [] => .next s
  | ch :: _ =>
    let h := u.chan ch.toNat
    if s.cluOn cl.toNat && decide (h.st = .queued) then
      let s := s.setChan cl.toNat ch.toNat { h with st := .run }
      if h.prog.toNat % 32 ≠ 0 ∨ sideKind h.prog.toNat ≠ .memory ∨ (targetOf (h.prog.toNat % 2 ^ 46)).cls = .none_ then
        .next (s.chanFail cl.toNat ch.toNat 1 0 h.prog 0)
      else .next (s.goTo cl.toNat ch.toNat 0)
    else .next s

/-- MGMT_CHANNEL_START (R331): the management subsystem's request, with the effect of dstart and MGS = 1. -/
def execMgmtChannelStart (cl : ClusterId) (ch : ChanId) (prog : FAddr) (s : State) : Out :=
  if s.cluOn cl.toNat then .next (s.startChan cl.toNat ch.toNat prog 0 true true).1 else .next s

/-- DCH_ABORT (Table 14.2, R344): a management write of ABT = 1. -/
def execDchAbort (cl : ClusterId) (ch : ChanId) (s : State) : Out :=
  if s.cluOn cl.toNat then .next ((s.abortChan cl.toNat ch.toNat).pumpChan cl.toNat ch.toNat) else .next s

/-- DCH_DISABLE (Table 14.2, R344): a management write of DIS = 1. -/
def execDchDisable (cl : ClusterId) (ch : ChanId) (s : State) : Out :=
  if s.cluOn cl.toNat then .next ((s.disableChan cl.toNat ch.toNat).pumpChan cl.toNat ch.toNat) else .next s

/-- ABORT_COMPLETE (R344): the aborted channel has finished its burst or instruction and every write is acknowledged: the abort record, ABORTED, and the count. -/
def execAbortComplete (cl : ClusterId) (s : State) : Out :=
  let u := s.clu cl.toNat
  match u.running with
  | none => .next s
  | some ch =>
    let h := u.chan ch.toNat
    if s.cluOn cl.toNat && h.abort && !h.last && h.failing.isNone && decide (h.st = .run) && h.moves.isEmpty && h.acked then
      let s := s.finalRecord cl.toNat ch.toNat false 0 h.ipc.toNat
      .next ((s.endChan cl.toNat ch.toNat .aborted).count 0x4060 2)
    else .next s

/-! ## Answers to a channel's packets -/

/-- Acknowledged writes at the front are covered by the CRC and counted (R341, R348). -/
def Chan.cover (h : Chan) : Nat → Chan
  | 0 => h
  | n + 1 =>
    match h.writes with
    | w :: ws =>
      if w.acked then
        let h := if w.crc then { h with crc := crcBytes h.crc w.bytes, bytes := h.bytes + BitVec.ofNat 64 w.bytes.length } else h
        ({ h with writes := ws } : Chan).cover n
      else h
    | [] => h

/-- Bytes received into a MOVE's buffer. -/
def MoveSt.fill (m : MoveSt) (o : Nat) : List Byte → MoveSt
  | [] => m
  | b :: bs => ({ m with buf := Table.put m.buf o b } : MoveSt).fill (o + 1) bs

/-- A read response for a channel: a program block or bytes of a MOVE. -/
def State.chanData (s : State) (cl ch : Nat) (p : Packet) : State :=
  let h := s.chan cl ch
  match h.outs.find? (fun o => decide (o.1 = p.tid)) with
  | none => s
  | some (_, op) =>
    let h := { h with outs := h.outs.filter (fun o => decide (o.1 ≠ p.tid)) }
    match op with
    | .fetch n => (s.setChan cl ch { h with blocks := Table.put h.blocks n p.data }).pumpChan cl ch
    | .read seq _ off _ _ =>
      let ms := h.moves.map (fun m =>
        if m.seq = seq ∧ off < m.reqd ∧ m.wrtn ≤ off then
          let m := m.fill off p.payload
          if p.sb ∧ m.side then { m with sides := Table.put m.sides off p.side } else m
        else m)
      (s.setChan cl ch { h with moves := ms }).pumpChan cl ch
    | _ => s.setChan cl ch h

/-- A write acknowledgement for a channel. -/
def State.chanAck (s : State) (cl ch : Nat) (p : Packet) : State :=
  let h := s.chan cl ch
  let n := (h.writes.filter (fun w => decide (w.tid = p.tid) && !w.acked)).foldl (fun n w => n + w.bytes.length) 0
  let h := { h with writes := h.writes.map (fun (w : ChWrite) => if w.tid = p.tid then { w with acked := true } else w),
                    outs := h.outs.filter (fun o => !(decide (o.1 = p.tid) && (match o.2 with | .record _ _ => true | _ => false))) }
  let h := h.cover h.writes.length
  let s := (s.setChan cl ch h).countN 0x4060 3 n
  (s.pumpChan cl ch).settleFail cl ch

/-- An aborted channel drops a reply to a read of a burst that it no longer moves (R344). -/
def Chan.drops (h : Chan) (seq off : Nat) : Bool :=
  h.abort && !h.moves.any (fun m => decide (m.seq = seq) && decide (off < m.len))

/-- An error reply for a channel (R343, Table 14.7): a failed write stays in the list as the point where coverage ends, answered. -/
def State.chanErr (s : State) (cl ch : Nat) (p : Packet) (st : Nat) : State :=
  let h := s.chan cl ch
  match h.outs.find? (fun o => decide (o.1 = p.tid)) with
  | some (_, op) =>
    let s' := s.setChan cl ch { h with outs := h.outs.filter (fun o => decide (o.1 ≠ p.tid)) }
    match op with
    | .fetch n => if h.abort then s' else s'.chanFail cl ch 1 0 (BitVec.ofNat 56 (h.blockAddr n)) h.ipc.toNat
    | .read seq idx off _ a => if h.drops seq off then s' else s'.chanFail cl ch 4 st a idx
    | .record idx a => s'.chanFail cl ch 8 st a idx
    | .sem => s'.chanFail cl ch 6 0 0 h.ipc.toNat
  | none =>
    match h.writes.find? (fun w => decide (w.tid = p.tid)) with
    | some w =>
      let keep := h.writes.takeWhile (fun x => decide (x.tid ≠ p.tid))
      let rest := (h.writes.dropWhile (fun x => decide (x.tid ≠ p.tid))).drop 1
      let s := s.setChan cl ch { h with writes := keep ++ rest.map (fun x => { x with crc := false }) }
      s.chanFail cl ch 5 st w.addr w.idx
    | none => s

/-- A SACK for a channel: the WAIT goes on, or its cancel has been answered (R339, R344); an add's error is reported under R310. -/
def State.chanSack (s : State) (cl ch : Nat) (p : Packet) : State :=
  let h := s.chan cl ch
  if h.outs.any (fun o => decide (o.1 = p.tid) && decide (o.2 = .sem)) then
    let h := { h with outs := h.outs.filter (fun o => decide (o.1 ≠ p.tid)), waitP := none, st := .run }
    let s := s.setChan cl ch h
    if p.status = 0 ∧ h.abort = false then s.goTo cl ch (h.ipc.toNat + 1) else s
  else s

end Sys2Proof.Machine
end

