-- ==== Sys2Proof/Machine/Ledger.lean ====
section
/-! DEFINITION. The ledger lanes of a Newt engine: IEEE 754-2019 arithmetic with exception flags (R38), and the element step of the optimizer (R217). -/

namespace Sys2Proof.Machine

/-- Whether bits are a NaN of a format. -/
def FFmt.isNan (f : FFmt) (v : Nat) : Bool := (f.decode v).isNan
/-- Whether bits are a signalling NaN: the leading mantissa bit is 0. -/
def FFmt.isSnan (f : FFmt) (v : Nat) : Bool := f.isNan v && !v.testBit (f.mb - 1)

/-- A NaN made quiet with its payload, under sign `neg` (R38). -/
def FFmt.quiet (f : FFmt) (neg : Bool) (v : Nat) : Nat :=
  bnat neg <<< f.sign ||| f.emax <<< f.mb ||| (1 <<< (f.mb - 1) ||| v % 2 ^ f.mb)

/-- The result of one ledger operation on operands `ops`, of exact value `x`: NaN operands propagate, a signalling one raises NV and gives its payload (R38); a NaN from other operands is an invalid operation, canonical in FP32 (R31), and of a free payload and sign in FP64, which R31 does not list. -/
def FFmt.ledger (f : FFmt) (md : RMode) (ops : List Nat) (x : FVal) (dz : Bool := false) : Nat × FFlags :=
  let nans := ops.filter f.isNan
  if nans.isEmpty then
    match x with
    | .nan => ((if f = fp32 then f.qnan else f.quiet (Config.nanSign ops) (Config.nanMade ops)), { nv := true })
    | .inf neg => (f.infinity neg, { dz })
    | .fin neg m e => f.roundFl md neg m e
  else
    let from_ := if nans.any f.isSnan then nans.filter f.isSnan else nans
    (f.quiet (Config.nanSign nans) (from_.getD (Config.nanPick nans % from_.length) 0), { nv := nans.any f.isSnan })

/-- Addition. -/
def FFmt.ladd (f : FFmt) (md : RMode) (a b : Nat) : Nat × FFlags :=
  f.ledger md [a, b] (FVal.add (decide (md = .dn)) (f.decode a) (f.decode b))
/-- Subtraction. -/
def FFmt.lsub (f : FFmt) (md : RMode) (a b : Nat) : Nat × FFlags :=
  f.ledger md [a, b] (FVal.add (decide (md = .dn)) (f.decode a) (f.decode b).neg)
/-- Multiplication. -/
def FFmt.lmul (f : FFmt) (md : RMode) (a b : Nat) : Nat × FFlags :=
  f.ledger md [a, b] (FVal.mul (f.decode a) (f.decode b))
/-- Whether a value is finite. -/
def FVal.isFin : FVal → Bool
  | .fin _ _ _ => true
  | _ => false
/-- Division; a finite non-zero value by zero raises DZ. -/
def FFmt.ldiv (f : FFmt) (md : RMode) (a b : Nat) : Nat × FFlags :=
  let x := f.decode a
  let y := f.decode b
  f.ledger md [a, b] (FVal.div x y) (x.isFin && y.isZero && !x.isZero)
/-- Square root. -/
def FFmt.lsqrt (f : FFmt) (md : RMode) (a : Nat) : Nat × FFlags :=
  f.ledger md [a] (f.decode a).sqrt
/-- Fused multiply-add, one rounding. -/
def FFmt.lfma (f : FFmt) (md : RMode) (a b c : Nat) : Nat × FFlags :=
  let p := FVal.mul (f.decode a) (f.decode b)
  let (v, fl) := f.ledger md [a, b, c] (FVal.add (decide (md = .dn)) p (f.decode c))
  let open_ := p.isNan && !f.isNan a && !f.isNan b && f.isNan c
  (v, { fl with nv := fl.nv || (open_ && Config.fmaNv) })

/-- FP64 to FP32 with one rounding. -/
def narrow64 (md : RMode) (a : Nat) : Nat × FFlags :=
  if fp64.isNan a then (fp32.quiet (Config.nanSign [a]) (Config.nanNarrow a), { nv := fp64.isSnan a })
  else fp32.ledger md [] (fp64.decode a)

/-- Right-to-left binary exponentiation: `n` bits of `t` from bit `i`, the running product and power (R217). -/
def powGo (md : RMode) (t : Nat) : Nat → Nat → Nat → Nat → FFlags → Nat × FFlags
  | 0, _, p, _, fl => (p, fl)
  | n + 1, i, p, x, fl =>
    let (p, fl) := if t.testBit i then (let (q, g) := fp64.lmul md p x; (q, fl.or g)) else (p, fl)
    let (x, fl) := if n = 0 then (x, fl) else (let (q, g) := fp64.lmul md x x; (q, fl.or g))
    powGo md t n (i + 1) p x fl

/-- 1.0 in FP64. -/
def one64 : Nat := 0x3FF0000000000000

/-- b^t in FP64 (R217). -/
def powFl (md : RMode) (b t : Nat) : Nat × FFlags :=
  powGo md t (if t = 0 then 0 else Nat.log2 t + 1) 0 one64 b {}

/-- The constants of an optimizer step: rounding mode, SIGMA, LR, WD, β1, β2, ε and their derived values c1, c2. -/
structure OptK where
  md    : RMode
  sigma : Int
  lr    : Nat
  wd    : Nat
  b1    : Nat
  b2    : Nat
  eps   : Nat
  c1    : Nat
  c2    : Nat

/-- One element of OPT (R217): the new w, m and v, with the flags raised. -/
def optElem (k : OptK) (grad w m v : Nat) : Nat × Nat × Nat × FFlags :=
  let md := k.md
  let (g, f0) := fp64.ledger md [] ((fp32.decode grad).scale (-k.sigma))
  let (o1, f1) := fp64.lsub md one64 k.b1
  let (x1, f2) := fp64.lmul md o1 g
  let (m, f3) := fp64.lfma md k.b1 m x1
  let (o2, f4) := fp64.lsub md one64 k.b2
  let (x2, f5) := fp64.lmul md o2 g
  let (x3, f6) := fp64.lmul md x2 g
  let (v, f7) := fp64.lfma md k.b2 v x3
  let (y1, f8) := fp64.ldiv md m k.c1
  let (y2, f9) := fp64.ldiv md v k.c2
  let (y3, f10) := fp64.lsqrt md y2
  let (y4, f11) := fp64.ladd md y3 k.eps
  let (y5, f12) := fp64.ldiv md y1 y4
  let (d, f13) := narrow64 md y5
  let (z, f14) := fp32.lfma md k.wd w d
  let (w, f15) := fp32.lfma md (k.lr ^^^ 2 ^ 31) z w
  (w, m, v, [f0, f1, f2, f3, f4, f5, f6, f7, f8, f9, f10, f11, f12, f13, f14, f15].foldl FFlags.or {})

/-- Rounding mode of RM (R217). -/
def rmodeOf (rm : Nat) : RMode :=
  match rm with | 0 => .ne | 1 => .tz | 2 => .up | 3 => .dn | _ => .na

/-- The flag bits NV DZ OF UF NX, bits 4 to 0 (Table 9.11). -/
def FFlags.bits (f : FFlags) : BitVec 5 :=
  BitVec.ofNat 5 (bnat f.nv * 16 + bnat f.dz * 8 + bnat f.ovf * 4 + bnat f.uf * 2 + bnat f.nx)

end Sys2Proof.Machine
end

