-- ==== Sys2Proof/Machine/MemCtl.lean ====
section
/-! DEFINITION. The memory controllers (R224-R228): bursts and their check symbols, refresh and patrol. -/

namespace Sys2Proof.Machine

/-- Bytes of one stack (R224). -/
def stackBytes : Nat := 0x1200000000

/-- One of the bursts that `n` bytes from a key touch becomes uncorrectable; which one is a free value. -/
def State.strike (s : State) (key n : Nat) : State × Nat :=
  let (s, f) := s.draw
  let lo := key / 64
  let b := lo + Config.badBurst f % ((key + n - 1) / 64 - lo + 1)
  (if s.badMem.contains b then s else { s with badMem := (s.badMem.filter (· < b)) ++ b :: (s.badMem.filter (b < ·)) }, b)

/-- The machine after such a finding. -/
def State.markBad (s : State) (key n : Nat) : State := (s.strike key n).1

/-- Bursts that a write of `n` bytes from a key covers only in part. -/
def partialBursts (key n : Nat) : List Nat :=
  (if key % 64 ≠ 0 ∨ n < 64 then [key / 64] else []) ++ (if (key + n) % 64 ≠ 0 ∧ (key + n) / 64 ≠ key / 64 then [(key + n) / 64] else [])

/-- A write at a stack's controller (R225): `none` where a burst that it covers in part is uncorrectable; a burst written whole is good again. -/
def State.burstWrite (s : State) (key : Nat) (bs : List Byte) : Option State :=
  let n := bs.length
  if (partialBursts key n).any (fun b => s.badMem.contains b) then none
  else some ((s.memWrite key bs).cleanBursts key n)

/-- What a write of `n` bytes at `key` finds as its merges read (R225): each burst that it covers in part is read, and counted and logged as any read is. -/
def State.mergeReads (s : State) (st key n : Nat) : State :=
  (partialBursts key n).foldl (fun s b => s.granuleRead st (b * 64 % 2 ^ 37) 64) s

/-- A write by an engine, the loader or the management subsystem with what its merges find (R225): each burst that it covers in part is read first, and an uncorrectable one is an event and refuses the write; `false` where it is not performed. -/
def State.mergeWrite (s : State) (st sa : Nat) (bs : List Byte) : State × Bool :=
  let u := s.mergeReads st (memKey st sa) bs.length
  ((u.burstWrite (memKey st sa) bs).getD u, (u.burstWrite (memKey st sa) bs).isSome)

/-- REFRESH (R226): the controller refreshes its stack; contents stay. -/
def execRefresh (st : StackId) (s : State) : Out :=
  .next (s.setStack st.toNat { s.stack st.toNat with refresh := (s.stack st.toNat).refresh + 1 })

/-- PATROL_READ (R226): the patrol reads its next granule; a corrected burst is written back, an uncorrectable one is logged and left. -/
def execPatrolRead (st : StackId) (ecc : Ecc) (s : State) : Out :=
  let i := st.toNat
  let k := s.stack i
  let sa := k.patrol * 512
  let s := s.setStack i { k with patrol := (k.patrol + 1) % (stackBytes / 512) }
  let key := memKey i sa
  if s.memBad key 512 then .next (s.memEvent i sa)
  else match (if ecc = .clean ∧ s.memSoft key 512 then .corrected else ecc) with
    | .clean => .next s
    | .corrected => .next ((s.cleanBursts key 512).count 0x3002 (i + 1))
    | .uncorrectable => .next ((s.markBad (memKey i sa) 512).memEvent i sa)

end Sys2Proof.Machine
end

