-- ==== Sys2Proof/Machine/NewtData.lean ====
section
/-! DEFINITION. Newt engines: descriptors and tables (R194-R202), the start checks (R205), and the arithmetic of ADELTA, ATTN and OPT on stack data (R215-R217). -/

namespace Sys2Proof.Machine

/-! ## Descriptors (Table 9.7) -/

/-- Word `i` of a descriptor. -/
def dW (d : BitVec 512) (i : Nat) : Nat := bitsOf d.toNat (32 * i + 31) (32 * i)
/-- OP. -/
def dOp (d : BitVec 512) : Nat := dW d 0 / 2 ^ 24
/-- BAR. -/
def dBar (d : BitVec 512) : Bool := (dW d 0).testBit 23
/-- CRE. -/
def dCre (d : BitVec 512) : Bool := (dW d 0).testBit 22
/-- TAG. -/
def dTag (d : BitVec 512) : Nat := dW d 0 % 2 ^ 16
/-- TEN. -/
def dTen (d : BitVec 512) : Nat := dW d 1 / 2 ^ 20
/-- SLOT. -/
def dSlot (d : BitVec 512) : Nat := bitsOf (dW d 1) 19 11
/-- CQ. -/
def dCq (d : BitVec 512) : Nat := bitsOf (dW d 1) 10 8
/-- SF. -/
def dSf (d : BitVec 512) : Nat := bitsOf (dW d 1) 7 4
/-- DF. -/
def dDf (d : BitVec 512) : Nat := dW d 1 % 16
/-- A 64-bit field of two words. -/
def dPair (d : BitVec 512) (i : Nat) : Nat := dW d i + dW d (i + 1) * 2 ^ 32
/-- SRC. -/
def dSrc (d : BitVec 512) : Nat := dPair d 2 % 2 ^ 56
/-- CMB. -/
def dCmb (d : BitVec 512) : Bool := (dPair d 4).testBit 63
/-- RED. -/
def dRed (d : BitVec 512) : Bool := (dPair d 4).testBit 62
/-- DST. -/
def dDst (d : BitVec 512) : Nat := dPair d 4 % 2 ^ 56
/-- CRA. -/
def dCra (d : BitVec 512) : Nat := dPair d 6 % 2 ^ 56
/-- P0 to P3. -/
def dP (d : BitVec 512) (i : Nat) : Nat := dW d (12 + i)
/-- HANDLE of an ADELTA, OPT or AVSW. -/
def dHandle (d : BitVec 512) : Nat := dP d 0 % 2 ^ 12
/-- LAYER of an ATTN. -/
def dLayer (d : BitVec 512) : Nat := dP d 0 / 2 ^ 24
/-- HEAD of an ATTN. -/
def dHead (d : BitVec 512) : Nat := bitsOf (dP d 0) 23 19
/-- G of an ATTN. -/
def dG (d : BitVec 512) : Nat := bitsOf (dP d 0) 18 15 + 1
/-- APP of an ATTN. -/
def dApp (d : BitVec 512) : Bool := (dP d 0).testBit 14
/-- RM of an OPT. -/
def dRm (d : BitVec 512) : Nat := bitsOf (dP d 0) 23 21
/-- SRC2 of an OPT. -/
def dSrc2 (d : BitVec 512) : Nat := dPair d 14 % 2 ^ 56

/-- Address of row `r` of a source or result of pieces of `pr` + 1 rows at distance `str` (R201). [DEDUCED, log entry 49: unsafe] -/
def pieceAddr (base pr str r : Nat) : FAddr :=
  let k := r / (pr + 1)
  BitVec.ofNat 56 (base + 512 * (k * (if str = 0 then pr + 1 else str) + r % (pr + 1)))

/-- Address of source row `r`. -/
def dSrcRow (d : BitVec 512) (base r : Nat) : FAddr := pieceAddr base (dW d 10 / 2 ^ 26) (dW d 10 % 2 ^ 26) r
/-- Address of result row `r`. -/
def dDstRow (d : BitVec 512) (r : Nat) : FAddr := pieceAddr (dDst d) (dW d 11 / 2 ^ 26) (dW d 11 % 2 ^ 26) r

/-! ## Tables (Tables 9.4, 9.5, R198) -/

/-- `n` bytes at offset `o` of a directory entry. -/
def eF (e : BitVec 1024) (o n : Nat) : Nat := (e.toNat >>> (8 * o)) % 2 ^ (8 * n)
/-- TEN. -/
def eTen (e : BitVec 1024) : Nat := eF e 0 4 / 2 ^ 20
/-- FMT. -/
def eFmt (e : BitVec 1024) : Nat := bitsOf (eF e 0 4) 19 16
/-- V. -/
def eV (e : BitVec 1024) : Bool := e.getLsbD 15
/-- VNEW. -/
def eVnew (e : BitVec 1024) : Bool := e.getLsbD 14
/-- SR. -/
def eSr (e : BitVec 1024) : Bool := e.getLsbD 13
/-- DMG. -/
def eDmg (e : BitVec 1024) : Bool := e.getLsbD 12
/-- Rank. -/
def eRank (e : BitVec 1024) : Nat := bitsOf (eF e 0 4) 11 6 + 1
/-- DIN. -/
def eDin (e : BitVec 1024) : Nat := eF e 4 2
/-- DOUT. -/
def eDout (e : BitVec 1024) : Nat := eF e 6 2
/-- SWB. -/
def eSwb (e : BitVec 1024) : Word := BitVec.ofNat 32 (eF e 8 4)
/-- Version buffer `v`. -/
def eVa (e : BitVec 1024) (v : Bool) : Nat := if v then eF e 0x18 8 else eF e 0x10 8
/-- NPAR of Table 9.9. -/
def eNpar (e : BitVec 1024) : Nat := eRank e * (eDin e + eDout e)

/-- HKV of a KV entry. -/
def kvF (e : BitVec 256) (o n : Nat) : Nat := (e.toNat >>> (8 * o)) % 2 ^ (8 * n)
/-- V of a KV entry. -/
def kvV (e : BitVec 256) : Bool := e.getLsbD (128 + 31)
/-- FMT of a KV entry. -/
def kvFmt (e : BitVec 256) : Nat := bitsOf (kvF e 0x10 4) 27 24
/-- DH of a KV entry. -/
def kvDh (e : BitVec 256) : Nat := if e.getLsbD (128 + 21) then 128 else 64
/-- HKV of a KV entry. -/
def kvHkv (e : BitVec 256) : Nat := bitsOf (kvF e 0x10 4) 20 16 + 1
/-- LMAX of a KV entry. -/
def kvLmax (e : BitVec 256) : Nat := kvF e 0x10 2 * 16
/-- Page size (Table 9.6). -/
def kvPgsz (e : BitVec 256) : Nat := if kvFmt e = 1 then 64 * kvDh e else 32 * kvDh e + 512
/-- Stack address of page `n` of a layer and head (R197). -/
def kvPage (e : BitVec 256) (layer head n : Nat) : Nat :=
  kvF e 0 8 + layer * kvF e 8 4 + head * kvF e 0xC 4 + n * kvPgsz e

/-- Directory entry `a`. -/
def Stack.adir (k : Stack) (a : Nat) : BitVec 1024 := Table.get 0 k.dir a
/-- KV entry of a slot. -/
def Stack.kvOf (k : Stack) (i : Nat) : BitVec 256 := Table.get 0 k.kv i
/-- Whether a slot is bound to a tenant (R198). -/
def Stack.bound (k : Stack) (slot ten : Nat) : Bool :=
  let w := Table.get 0 k.ten slot
  w.getLsbD 15 && decide (w.toNat % 2 ^ 12 = ten)

/-! ## Start checks (Table 9.10) -/

/-- Status codes of Table 9.12. -/
def nIllegal : BitVec 12 := 1
def nPriv : BitVec 12 := 2
def nTenant : BitVec 12 := 3
def nRange : BitVec 12 := 4
def nEcc : BitVec 12 := 5
def nFabric : BitVec 12 := 6
def nDisabled : BitVec 12 := 7
def nNonfinite : BitVec 12 := 8
def nLate : BitVec 12 := 9
def nOrder : BitVec 12 := 10
def nDamaged : BitVec 12 := 11

/-- The opcodes of Table 9.8. -/
def opDefined (op : Nat) : Bool := op ≤ 4 || op == 15

/-- Parameter bits that an opcode leaves reserved (Table 9.8). [DESIGN CHOICE, log entry 185: unsafe] -/
def pReserved (d : BitVec 512) : Bool :=
  match dOp d with
  | 0 => decide (dP d 0 ≠ 0 ∨ dP d 1 ≠ 0 ∨ dP d 2 ≠ 0 ∨ dP d 3 ≠ 0)
  | 1 => decide (dP d 0 / 2 ^ 12 ≠ 0 ∨ dP d 1 ≠ 0 ∨ dP d 2 ≠ 0 ∨ dP d 3 ≠ 0)
  | 2 => decide (dP d 0 % 2 ^ 14 ≠ 0 ∨ dP d 3 ≠ 0)
  | 3 => decide (bitsOf (dP d 0) 20 12 ≠ 0 ∨ dP d 3 / 2 ^ 24 ≠ 0)
  | 4 => decide (dP d 0 / 2 ^ 12 ≠ 0 ∨ dP d 2 ≠ 0 ∨ dP d 3 ≠ 0)
  | _ => decide (dP d 2 ≠ 0 ∨ dP d 3 ≠ 0)

/-- Check 1 of Table 9.10. [DESIGN CHOICE, log entry 184: unsafe] -/
def dIllegal (d : BitVec 512) : Bool :=
  let op := dOp d
  !opDefined op || decide (bitsOf (dW d 0) 21 16 ≠ 0) || decide (dW d 3 / 2 ^ 24 ≠ 0) || decide (bitsOf (dW d 5) 29 24 ≠ 0)
    || decide (dW d 7 / 2 ^ 24 ≠ 0) || decide (dW d 9 / 2 ^ 10 ≠ 0) || pReserved d
    || (!dCmb d && (dRed d || decide (dCq d ≠ 0)))
    || (match op with
        | 1 => !(decide (dSf d = 1) || decide (dSf d = 4) || decide (dSf d = 5)) || decide (1 < dDf d)
        | 2 => decide (dSf d ≠ 1) || decide (1 < dDf d)
        | _ => decide (dSf d ≠ 0) || decide (dDf d ≠ 0))
    || (decide (op = 3) && (decide (4 < dRm d) || !dCre d || decide (dDst d ≠ 0) || decide (dSrc2 d % 512 ≠ 0)))
    || decide (dSrc d % 512 ≠ 0) || decide (dDst d % 512 ≠ 0) || decide (dCra d % 64 ≠ 0)

/-- Signed difference of two 32-bit beat numbers. -/
def beatDiff (a b : Word) : Int := (a - b).toInt

/-- A format that a table entry may hold (R196). -/
def entryFmt (f : Nat) : Bool := decide (f = 1) || decide (f = 4)

/-- The start checks in the order of Table 9.10; 0 where all hold. [DEDUCED, log entry 43: unsafe] -/
def newtCheck (k : Stack) (beat : Word) (node : NodeId) (d : BitVec 512) : BitVec 12 :=
  let op := dOp d
  let e := k.adir (dHandle d)
  let v := k.kvOf (dSlot d)
  let usesDir := decide (op = 1 ∨ op = 3 ∨ op = 4)
  if dIllegal d then nIllegal
  else if decide (op = 15) && decide (node ≠ mgmtNode) then nPriv
  else if (usesDir || decide (op = 2)) && decide (dTen d = 0) then nPriv
  else if usesDir && (!eV e || !entryFmt (eFmt e)) then nRange
  else if decide (op = 1) && decide (eDin e % epr (dSf d) ≠ 0) then nRange
  else if decide (op = 2) && (!kvV v || !entryFmt (kvFmt v) || decide (kvHkv v ≤ dHead d) || decide (kvLmax v ≤ dP d 1)) then nRange
  else if decide (op = 15) && decide (stackBytes / 512 < dP d 0 + dP d 1) then nRange
  else if decide (op = 1) && (decide (dTen d ≠ eTen e) || !k.bound (dSlot d) (dTen d)) then nTenant
  else if decide (op = 2) && !k.bound (dSlot d) (dTen d) then nTenant
  else if decide (op = 3 ∨ op = 4) && decide (dTen d ≠ eTen e) then nTenant
  else if decide (op = 3 ∨ op = 4) && eDmg e then nDamaged
  else if decide (op = 3 ∨ op = 4) && !eSr e then nOrder
  else if decide (op = 4) && decide (beatDiff (BitVec.ofNat 32 (dP d 1)) beat ≤ 0) then nLate
  else 0

/-- The result rows that a command names (R208); with a failing status whose count is not established, none. -/
def newtRows (k : Stack) (status : BitVec 12) (d : BitVec 512) : Nat :=
  if status = nIllegal ∨ status = nRange ∨ status = nDisabled then 0
  else
    let n := epr (dDf d)
    match dOp d with
    | 1 => let e := k.adir (dHandle d); if eV e then (eDout e + n - 1) / n else 0
    | 2 => let v := k.kvOf (dSlot d); if kvV v then (dG d * kvDh v + n - 1) / n else 0
    | _ => 0

/-! ## Stack data -/

/-- Bytes of a Newt MX layout record (R194). -/
def recBytes : Nat := 8704

/-- Row `r` of a tensor in Newt MX layout at a stack address (R194). -/
def State.mxRow (s : State) (st base r : Nat) : Row :=
  let b := base + r / 16 * recBytes
  { data := BitVec.ofNat 4096 (leNat (s.memRead (memKey st (b + r % 16 * 512)) 512)),
    side := BitVec.ofNat 256 (leNat (s.memRead (memKey st (b + 8192 + r % 16 * 32)) 32)) }

/-- The elements of run `j` of a part of an adapter of format `fmt`: `n` elements from the part's base (Table 9.3). -/
def State.adRun (s : State) (st fmt base n j : Nat) : List FVal :=
  if fmt = 1 then
    let bs := s.memRead (memKey st (base + j * n * 2)) (2 * n)
    (List.range n).map (fun i => bf16.decode (leNat ((bs.drop (2 * i)).take 2)))
  else (List.range (n / 512)).flatMap (fun q =>
    let r := s.mxRow st base (j * (n / 512) + q)
    (List.range 512).map (rowElem 4 r))

/-- Bytes of the A part of a version buffer, after which the B part begins (R195). -/
def partA (e : BitVec 1024) : Nat :=
  if eFmt e = 1 then 2 * eRank e * eDin e else (eRank e * eDin e / 512 + 15) / 16 * recBytes
/-- Bytes of the B part. -/
def partB (e : BitVec 1024) : Nat :=
  if eFmt e = 1 then 2 * eRank e * eDout e else (eRank e * eDout e / 512 + 15) / 16 * recBytes

/-- Groups of 32 in order; `fuel` bounds them. -/
def dotGo : Nat → Word → List FVal → Word
  | 0, a, _ => a
  | fuel + 1, a, ps => if ps.isEmpty then a else dotGo fuel (accStep a (ps.take 32)) (ps.drop 32)
/-- A dot product in steps of 32 from +0 (R39). -/
def dot (xs ys : List FVal) : Word :=
  let ps := List.zipWith FVal.mul xs ys
  dotGo (ps.length / 32 + 1) 0 ps

/-- An FP32 result as an element of DF (R215, R216; R47). -/
def outElem (df : Nat) (v : Word) : Nat :=
  if df = 1 then plainElem 1 .ne false (fp32.decode v.toNat) else v.toNat

/-- ADELTA's results (R215) on one activation vector. -/
def State.adelta (s : State) (st : Nat) (e : BitVec 1024) (ver : Bool) (df : Nat) (x : List FVal) : List Nat :=
  let base := eVa e ver
  let ub := (List.range (eRank e)).map (fun j => ofBf16 (toBf16 (fp32.decode (dot x (s.adRun st (eFmt e) base (eDin e) j)).toNat)))
  let bs := (List.range (eRank e)).map (fun j => s.adRun st (eFmt e) (base + partA e) (eDout e) j)
  (List.range (eDout e)).map (fun o =>
    outElem df (mul32 (BitVec.ofNat 32 (eF e 0xC 4)) (dot ub (bs.map (fun r => r.getD o .nan)))))

/-- The ranges of its stack that an ADELTA reads. -/
def adRanges (e : BitVec 1024) (ver : Bool) : List (Nat × Nat) := [(eVa e ver, partA e + partB e)]

/-- Whether one of some ranges of a stack meets an uncorrectable burst. -/
def State.rangesBad (s : State) (st : Nat) (rs : List (Nat × Nat)) : Bool := rs.any (fun x => s.memBad (memKey st x.1) x.2)

/-- An engine reads ranges of its stack, and what it finds is reported (R225). -/
def State.engineReads (s : State) (st : Nat) (rs : List (Nat × Nat)) : State := rs.foldl (fun s x => s.engineRead st x.1 x.2) s

/-! ## Decode attention (R216) -/

/-- K or V of position `p`: offset of the part in the page and its scales' place (Table 9.6). -/
def State.kvVec (s : State) (st : Nat) (e : BitVec 256) (layer head p : Nat) (isV : Bool) : List FVal :=
  let pg := kvPage e layer head (p / 16)
  let i := p % 16
  let dh := kvDh e
  if kvFmt e = 1 then
    let a := pg + (if isV then 32 * dh else 0) + 2 * dh * i
    let bs := s.memRead (memKey st a) (2 * dh)
    (List.range dh).map (fun t => bf16.decode (leNat ((bs.drop (2 * t)).take 2)))
  else
    let a := pg + (if isV then 16 * dh else 0) + dh * i
    let bs := s.memRead (memKey st a) dh
    let sc := s.memRead (memKey st (pg + 32 * dh + (if isV then 256 else 0) + i * dh / 32)) (dh / 32)
    let r : Row := { data := BitVec.ofNat 4096 (leNat bs), side := BitVec.ofNat 256 (leNat sc) }
    (List.range dh).map (rowElem 4 r)

/-- The larger of two FP32 values; a tie of zeros is left open (Config.zeroTie), a NaN stays NaN. -/
def max32 (a b : Word) : Word :=
  let x := ofFp32 a
  let y := ofFp32 b
  if x.isNan || y.isNan then 0x7FC00000
  else if x.lt y then b
  else if y.lt x then a
  else if Config.zeroTie a.toNat b.toNat then a else b

/-- Terms k, k + 1, … of the exponential series of `y`, fixed point with 256 fraction bits; `a` is term k. -/
def expSum (y : Nat) : Nat → Nat → Nat → Nat
  | 0, _, a => a
  | n + 1, k, a => a + expSum y n (k + 1) (a * y / 2 ^ 256 / (k + 1))

/-- Repeated squaring of a fixed-point number with 256 fraction bits. -/
def expSquare : Nat → Nat → Nat
  | 0, a => a
  | n + 1, a => expSquare n (a * a / 2 ^ 256)

/-- e^(m · 2^e) for m · 2^e below 128, fixed point with 256 fraction bits, to about 240 significant bits. -/
def expFix (m : Nat) (e : Int) : Nat := expSquare 8 (expSum (m * 2 ^ (248 + e).toNat) 64 0 (2 ^ 256))

/-- The largest FP32 value not above the exponential of a non-zero finite value; the next one is the smallest not below it. -/
def expBelow (neg : Bool) (m : Nat) (e : Int) : Nat :=
  if e + (Nat.log2 m : Int) < 7 then
    fp32.round .tz false (if neg then 2 ^ 256 * 2 ^ 256 / expFix m e else expFix m e) (-256)
  else if neg then 0 else fp32.maxFin false

/-- exp of FP32 (R216): one of the values within 1 ulp of the exact one, the same bits for the same input; exp of NaN is NaN. -/
def exp32 (v : Word) : Word :=
  match ofFp32 v with
  | .nan => 0x7FC00000
  | .inf neg => if neg then 0 else 0x7F800000
  | .fin neg m e =>
    if m = 0 then BitVec.ofNat 32 (0x3F7FFFFF + Config.expUlp v % 3)
    else flush32 (BitVec.ofNat 32 (expBelow neg m e + Config.expUlp v % 2))

/-- State of a head's recurrence: m, l and o. -/
structure AttnSt where
  m : Word
  l : Word
  o : List Word

/-- One page of the recurrence of R216: the K and V of its valid positions. -/
def attnPage (scl : Word) (q : List FVal) (a : AttnSt) (ks vs : List (List FVal)) : AttnSt :=
  let ss := ks.map (fun k => mul32 scl (dot q k))
  let mq := ss.foldl max32 a.m
  let c := if a.m = 0xFF800000 then 0 else exp32 (add32 a.m (neg32 mq))
  let es := ss.map (fun x => exp32 (add32 x (neg32 mq)))
  let l := es.foldl add32 (mul32 a.l c)
  let eb := es.map (fun x => ofBf16 (toBf16 (ofFp32 x)))
  { m := mq, l,
    o := a.o.mapIdx (fun d od => accStep (mul32 od c) (List.zipWith FVal.mul eb (vs.map (fun v => v.getD d .nan)))) }

/-- One head's output (R216) over positions 0 to POS. [DEDUCED, log entry 40: unsafe] -/
def State.attnHead (s : State) (st : Nat) (e : BitVec 256) (layer head pos : Nat) (scl : Word) (q : List FVal) : List Word :=
  let dh := kvDh e
  let kv (p : Nat) (isV : Bool) := s.kvVec st e layer head p isV
  let bad := q.any FVal.isNan || (List.range (pos + 1)).any (fun p => (kv p false).any FVal.isNan || (kv p true).any FVal.isNan)
  if bad then List.replicate dh 0x7FC00000
  else
    let a := (List.range (pos / 16 + 1)).foldl (fun a n =>
      let ps := (List.range 16).filterMap (fun i => if 16 * n + i ≤ pos then some (16 * n + i) else none)
      attnPage scl q a (ps.map (kv · false)) (ps.map (kv · true)))
      ({ m := 0xFF800000, l := 0, o := List.replicate dh 0 } : AttnSt)
    a.o.map (fun od => div32 od a.l)

/-- The ranges of its stack that an ATTN over positions 0 to POS reads: the used bytes of each page (Table 9.6). -/
def attnRanges (e : BitVec 256) (layer head pos : Nat) : List (Nat × Nat) :=
  (List.range (pos / 16 + 1)).flatMap (fun n =>
    let pg := kvPage e layer head n
    let m := min 16 (pos + 1 - 16 * n)
    let dh := kvDh e
    if kvFmt e = 1 then [(pg, 2 * dh * m), (pg + 32 * dh, 2 * dh * m)]
    else [(pg, dh * m), (pg + 16 * dh, dh * m), (pg + 32 * dh, m * dh / 32), (pg + 32 * dh + 256, m * dh / 32)])

/-- Writes in turn at a stack's controller; `false` where one is not performed. -/
def State.burstWrites (s : State) (st : Nat) : List (Nat × List Byte) → State × Bool
  | [] => (s, true)
  | (sa, bs) :: ws =>
    let (s, ok) := s.mergeWrite st sa bs
    let (s, all) := s.burstWrites st ws
    (s, ok && all)

/-- Bytes of an E4M3 vector with the scales of R45 (BIAS 0, nearest): elements, then scale bytes; `sat` is SAT. [DEDUCED, log entry 41: unsafe] -/
def e4m3Vec (sat : Bool) (xs : List FVal) : List Byte × List Byte :=
  let cd : Word := if sat then 0x144 else 0x104
  let bl := (blocks32 (xs.length / 32 + 1) xs).map (mxBlock cd)
  (bl.flatMap (fun b => b.2.map (BitVec.ofNat 8)), bl.map (fun b => BitVec.ofNat 8 b.1))

/-- The append of k and v at POS (R216): copies on a BF16 page, converted with a block scale on an E4M3 page. [DEDUCED, log entry 42: unsafe] -/
def State.append (s : State) (st : Nat) (e : BitVec 256) (layer head pos : Nat) (k v : List (BitVec 16)) : State × Bool :=
  let pg := kvPage e layer head (pos / 16)
  let i := pos % 16
  let dh := kvDh e
  if kvFmt e = 1 then
    s.burstWrites st [(pg + 2 * dh * i, k.flatMap (fun x => leBytes 2 x.toNat)), (pg + 32 * dh + 2 * dh * i, v.flatMap (fun x => leBytes 2 x.toNat))]
  else
    let (kd, ks) := e4m3Vec true (k.map ofBf16)
    let (vd, vs) := e4m3Vec true (v.map ofBf16)
    s.burstWrites st [(pg + dh * i, kd), (pg + 32 * dh + i * dh / 32, ks), (pg + 16 * dh + dh * i, vd), (pg + 32 * dh + 256 + i * dh / 32, vs)]

/-! ## Optimizer step (R217) -/

/-- The serving bytes of a part: `n` elements a run, `r` runs, run `j` element `i` from `w` (Table 9.3), as writes from a stack address. -/
def partWrites (fmt base n r : Nat) (w : Nat → Nat → Nat) : List (Nat × List Byte) :=
  if fmt = 1 then
    (List.range r).map (fun j => (base + 2 * j * n, (List.range n).flatMap (fun i => leBytes 2 (plainElem 1 .ne false (fp32.decode (w i j))))))
  else
    (List.range r).flatMap (fun j => (List.range (n / 512)).flatMap (fun q =>
      let row := j * (n / 512) + q
      let b := base + row / 16 * recBytes
      let (d, sc) := e4m3Vec false ((List.range 512).map (fun i => fp32.decode (w (512 * q + i) j)))
      [(b + row % 16 * 512, d), (b + 8192 + row % 16 * 32, sc ++ leBytes 14 0 ++ leBytes 2 0x4000)]))

/-- The ranges of its stack that an OPT reads: the master copy and both moments. -/
def optRanges (e : BitVec 1024) : List (Nat × Nat) :=
  [(eF e 0x20 8, 4 * eNpar e), (eF e 0x28 8, 8 * eNpar e), (eF e 0x30 8, 8 * eNpar e)]

/-- OPT on gradients by element index (R217): the state with its training state, buffer and STEP written, the flags, and whether every write was performed. -/
def State.opt (s : State) (st : Nat) (d : BitVec 512) (grads : Nat → Nat) : State × FFlags × Bool :=
  let k := s.stack st
  let e := k.adir (dHandle d)
  let np := eNpar e
  let r := eRank e
  let din := eDin e
  let master := eF e 0x20 8
  let mom1 := eF e 0x28 8
  let mom2 := eF e 0x30 8
  let md := rmodeOf (dRm d)
  let t := eF e 0x38 4 + 1
  let b1 := eF e 0x40 8
  let b2 := eF e 0x48 8
  let (p1, f1) := powFl md b1 t
  let (c1, f2) := fp64.lsub md one64 p1
  let (p2, f3) := powFl md b2 t
  let (c2, f4) := fp64.lsub md one64 p2
  let kk : OptK := { md, sigma := (BitVec.ofNat 8 (dP d 0 / 2 ^ 24)).toInt, lr := dP d 1, wd := eF e 0x3C 4, b1, b2,
                     eps := eF e 0x50 8, c1, c2 }
  let rd (a n : Nat) : Nat := leNat (s.memRead (memKey st a) n)
  let res := (List.range np).map (fun i => optElem kk (grads i) (rd (master + 4 * i) 4) (rd (mom1 + 8 * i) 8) (rd (mom2 + 8 * i) 8))
  let fl := res.foldl (fun f x => f.or x.2.2.2) (((f1.or f2).or f3).or f4)
  let w (i : Nat) : Nat := (res.getD i (0, 0, 0, {})).1
  let va := eVa e (!eVnew e)
  let ws := [(master, res.flatMap (fun x => leBytes 4 x.1)), (mom1, res.flatMap (fun x => leBytes 8 x.2.1)), (mom2, res.flatMap (fun x => leBytes 8 x.2.2.1))]
    ++ partWrites (eFmt e) va din r (fun i j => w (i * r + j))
    ++ partWrites (eFmt e) (va + partA e) (eDout e) r (fun o j => w (din * r + o * r + j))
  let (s, ok) := s.burstWrites st ws
  let k := s.stack st
  (s.setStack st { k with dir := Table.put k.dir (dHandle d) (setBits e (8 * 0x38) 32 t) }, fl, ok)

end Sys2Proof.Machine
end

