-- ==== Sys2Proof/Machine/Newt.lean ====
section
/-! DEFINITION. Newt engines: the command ring, starting, pulls, completion and errors (R200-R210), the operations (R202, R215-R219), and the control region (R220, R221, Table 10.6). -/

namespace Sys2Proof.Machine

/-! ## Registers (Tables 9.14, 9.15, 9.20) -/

/-- No command queued or executing. -/
def Stack.idle (k : Stack) : Bool := k.ring.isEmpty && k.cmds.isEmpty

/-- Contexts in use: each group's once (R204). -/
def Stack.contexts (k : Stack) : Nat :=
  (k.cmds.foldl (fun (a : List Nat × Nat) c => if a.1.contains c.grp then a else (c.grp :: a.1, a.2 + c.ctx)) ([], 0)).2

/-- NCTL as read. -/
def Stack.nctl (k : Stack) : Word := BitVec.ofNat 32 (bnat k.haltq * 2 + bnat k.en)
/-- NSTAT as read. -/
def Stack.nstat (k : Stack) : Word :=
  BitVec.ofNat 32 (bnat k.idle * 2 ^ 31 + bnat k.en * 2 ^ 30 + bnat k.refd * 2 ^ 29 + k.contexts % 32 * 2 ^ 24
    + k.ring.length % 256 * 2 ^ 16 + k.errs.length % 128)
/-- NERR0 as read. -/
def Stack.nerr0 (k : Stack) : DWord :=
  match k.errs with
  | [] => 0
  | e :: _ => BitVec.ofNat 64 (2 ^ 63 + e.status.toNat * 2 ^ 32 + e.op.toNat * 2 ^ 24 + e.tag.toNat)
/-- NERR1 as read. -/
def Stack.nerr1 (k : Stack) : DWord :=
  match k.errs with
  | [] => 0
  | e :: _ => BitVec.ofNat 64 (e.dev.toNat * 2 ^ 43 + e.node.toNat * 2 ^ 32 + e.port.toNat * 2 ^ 29 + e.slot.toNat * 2 ^ 20 + e.ten.toNat)

/-- What a read of the control region returns (Table 10.6, R220, R232): offset, width in bytes, and whether a core or the management subsystem asks; `none` is refused with status 0x4. -/
def Stack.ctlRead (k : Stack) (mgmt : Bool) (off n : Nat) : Option (List Byte) :=
  if off = 0 ∧ n = 4 then some (bytesOf k.nctl 4)
  else if off = 4 ∧ n = 4 then some (bytesOf k.nstat 4)
  else if mgmt = false then none
  else if off = 0x100 ∧ n = 8 then some (bytesOf k.nerr0 8)
  else if off = 0x108 ∧ n = 8 then some (bytesOf k.nerr1 8)
  else if 0x80000 ≤ off ∧ off < 0x100000 ∧ n = 4 ∧ off % 4 = 0 then
    some (leBytes 4 ((k.adir ((off - 0x80000) / 128)).toNat >>> (8 * (off % 128))))
  else if 0x100000 ≤ off ∧ off < 0x104000 ∧ n = 4 ∧ off % 4 = 0 then
    some (leBytes 4 ((k.kvOf ((off - 0x100000) / 32)).toNat >>> (8 * (off % 32))))
  else if 0x104000 ≤ off ∧ off < 0x104400 ∧ n = 2 ∧ off % 2 = 0 then
    some (bytesOf (Table.get 0 k.ten ((off - 0x104000) / 2)) 2)
  else none

/-! ## Held table writes (R199) -/

/-- The table entry that an offset of the control region lies in. -/
inductive NEntry where
  | dir (i : Nat)
  | kv (i : Nat)
  | ten (i : Nat)
  | none_
deriving DecidableEq, Repr

/-- The entry of an offset. -/
def entryOf (off : Nat) : NEntry :=
  if 0x80000 ≤ off ∧ off < 0x100000 then .dir ((off - 0x80000) / 128)
  else if 0x100000 ≤ off ∧ off < 0x104000 then .kv ((off - 0x100000) / 32)
  else if 0x104000 ≤ off ∧ off < 0x104400 then .ten ((off - 0x104000) / 2)
  else .none_

/-- Whether a descriptor references an entry (R199; SCRUB by R500). [DEDUCED, log entry 45: unsafe] -/
def dRefs (d : BitVec 512) (e : NEntry) : Bool :=
  match dOp d, e with
  | 1, .dir i => decide (i = dHandle d)
  | 1, .ten i => decide (i = dSlot d)
  | 2, .kv i => decide (i = dSlot d)
  | 2, .ten i => decide (i = dSlot d)
  | 3, .dir i => decide (i = dHandle d)
  | 4, .dir i => decide (i = dHandle d)
  | 15, .ten i => decide (i = dSlot d)
  | _, _ => false

/-- Descriptor `i` of a command row. -/
def rowDesc (r : BitVec 4096) (i : Nat) : BitVec 512 := BitVec.ofNat 512 (r.toNat >>> (512 * i))

/-- Whether a waiting descriptor that arrived before `seq`, or an executing command, references an entry. -/
def Stack.refd? (k : Stack) (seq : Nat) (e : NEntry) : Bool :=
  k.cmds.any (fun c => dRefs c.desc e)
    || k.ring.any (fun r => decide (r.seq < seq) && (List.range 8).any (fun i => decide (r.slot ≤ i) && decide (dOp (rowDesc r.row i) ≠ 0xFF) && dRefs (rowDesc r.row i) e))

/-- The fields of a directory entry: its res bits read zero, and writes to them are ignored (Table 9.4, R12). -/
def dirFields (e : Nat) : BitVec 1024 := BitVec.ofNat 1024 (e % 2 ^ 704 / 64 * 64)
/-- The fields of a KV slot table entry (Table 9.5, R12). -/
def kvFields (e : Nat) : BitVec 256 := BitVec.ofNat 256 (e % 2 ^ 160 - bitsOf e 158 156 * 2 ^ 156 - bitsOf e 151 150 * 2 ^ 150)

/-- One table write takes effect; a write of a tenant entry clears its append high-water (R498). -/
def Stack.tableSet (k : Stack) (off : Nat) (v : Word) : Stack :=
  match entryOf off with
  | .dir i => { k with dir := Table.put k.dir i (dirFields (setBits (k.adir i) (8 * (off % 128)) 32 v.toNat).toNat) }
  | .kv i => { k with kv := Table.put k.kv i (kvFields (setBits (k.kvOf i) (8 * (off % 32)) 32 v.toNat).toNat) }
  | .ten i => { k with ten := Table.put k.ten i (v.setWidth 16 &&& 0x8FFF), hw := Table.erase k.hw i }
  | .none_ => k

/-- Held writes that nothing holds any more take effect, in order for each entry; `blocked` are the entries of earlier writes that stay. -/
def Stack.release (k : Stack) : List (Nat × Nat × Word) → List NEntry → Stack
  | [], _ => k
  | w :: ws, blocked =>
    let e := entryOf w.2.1
    if blocked.contains e || k.refd? w.1 e then
      let k' := k.release ws (e :: blocked)
      { k' with heldW := w :: k'.heldW }
    else (k.tableSet w.2.1 w.2.2).release ws blocked

/-- Held writes are reconsidered. -/
def Stack.settleW (k : Stack) : Stack := { k with heldW := [] }.release k.heldW []

/-! ## The command ring (R200, R203) -/

/-- The next descriptor: its row's position is the head of the ring. -/
def NRow.next (r : NRow) : Option (Nat × BitVec 512) :=
  ((List.range 8).find? (fun i => decide (r.slot ≤ i) && decide (dOp (rowDesc r.row i) ≠ 0xFF))).map (fun i => (i, rowDesc r.row i))

/-- The head descriptor of the ring. -/
def Stack.head (k : Stack) : Option (NRow × BitVec 512) :=
  match k.ring with
  | r :: _ => r.next.map (fun x => (r, x.2))
  | [] => none

/-- A credit for a command row goes back to its sender (R200, R280). -/
def State.rowCredit (s : State) (st : Nat) (r : NRow) : State :=
  if r.cm then
    s.inject { kind := .crd, src := stackNode st, sport := 1, sdev := s.own, dst := r.node, dport := 1, ddev := r.dev,
               op6 := r.entry.setWidth 32, op7 := 1 }
  else s

/-- Takes the head descriptor out of the ring; a row whose descriptors have all started leaves with its credit (R200). -/
def State.takeHead (s : State) (st : Nat) : State :=
  let k := s.stack st
  match k.ring with
  | [] => s
  | r :: rs =>
    match r.next with
    | none => (s.setStack st { k with ring := rs }).rowCredit st r
    | some (i, _) =>
      let r' := { r with slot := i + 1 }
      if r'.next.isSome then s.setStack st { k with ring := r' :: rs }
      else (s.setStack st { k with ring := rs }).rowCredit st r

/-! ## Packets of a command -/

/-- A fresh transaction ID of an engine. -/
def State.newtTid (s : State) (st : Nat) : State × BitVec 12 :=
  let k := s.stack st
  (s.setStack st { k with nextTid := k.nextTid + 1 }, k.nextTid)

/-- Changes the command of an ID. -/
def State.modCmd (s : State) (st id : Nat) (f : NCmd → NCmd) : State :=
  let k := s.stack st
  s.setStack st { k with cmds := k.cmds.map (fun c => if c.id = id then f c else c) }

/-- Pulls one source row of 512 bytes (R201). -/
def State.pull (s : State) (st id : Nat) (x : Nat × FAddr) : State :=
  let (s, tid) := s.newtTid st
  (s.modCmd st id (fun c => { c with outs := c.outs ++ [(tid, x.1)] })).inject (s.mkPkt .rd (stackNode st) 1 tid x.2)

/-- Index of the first side-band granule among the pulled rows of a source. -/
def sideIdx : Nat := 2 ^ 16
/-- Index of the first row of a second source. -/
def src2Idx : Nat := 2 ^ 17

/-- The rows to pull for `n` elements of format `f` from `base`, indexed from `ix`: one piece in Newt MX layout with its side-band granules where an MX source lies in stack memory (R201), pieces otherwise. -/
def pullList (d : BitVec 512) (f n base ix : Nat) : List (Nat × FAddr) :=
  let rows := (n + epr f - 1) / epr f
  let inMem := match targetOf (base % 2 ^ 46) with | .mem _ _ => true | _ => false
  if isMx f && inMem then
    (List.range rows).map (fun r => (ix + r, BitVec.ofNat 56 (base + r / 16 * recBytes + r % 16 * 512)))
      ++ (List.range ((rows + 15) / 16)).map (fun q => (ix + sideIdx + q, BitVec.ofNat 56 (base + q * recBytes + 8192)))
  else (List.range rows).map (fun r => (ix + r, dSrcRow d base r))

/-- The pulls of a command (Table 9.8). -/
def newtPulls (k : Stack) (d : BitVec 512) : List (Nat × FAddr) :=
  match dOp d with
  | 1 => pullList d (dSf d) (eDin (k.adir (dHandle d))) (dSrc d) 0
  | 2 => pullList d 1 ((dG d + 2) * kvDh (k.kvOf (dSlot d))) (dSrc d) 0
  | 3 =>
    let e := k.adir (dHandle d)
    pullList d 0 (eDin e * eRank e) (dSrc d) 0 ++ pullList d 0 (eDout e * eRank e) (dSrc2 d) src2Idx
  | _ => []

/-- A pulled source row with its side band: its own, or its place in the side-band granule of its record. -/
def NCmd.srcRow (c : NCmd) (r : Nat) : Row :=
  let w := Table.get Row.zero c.src r
  match Table.look c.src (sideIdx + r / 16) with
  | some g => { w with side := BitVec.ofNat 256 (g.data.toNat >>> (256 * (r % 16))) }
  | none => w

/-- Element `i` of the pulled source. -/
def NCmd.srcElem (c : NCmd) (f i : Nat) : FVal := rowElem f (c.srcRow (i / epr f)) (i % epr f)
/-- Bits of element `i` of a pulled source of `b`-bit elements whose rows begin at index `ix`. -/
def NCmd.srcBits (c : NCmd) (b ix i : Nat) : Nat :=
  let n := 4096 / b
  ((Table.get Row.zero c.src (ix + i / n)).data.toNat >>> (b * (i % n))) % 2 ^ b

/-- A result row (R201, R209): a row write with its side band at a scratchpad, data only in stack memory, or a combining contribution. [DESIGN CHOICE, log entry 186: unsafe] -/
def resultPkt (s : State) (st : Nat) (d : BitVec 512) (status : BitVec 12) (tid : BitVec 12) (r : Nat) (els : List Nat) : Packet :=
  let a := dDstRow d r
  let data := BitVec.ofNat 4096 (packLE (if dDf d = 1 then 16 else 32) els)
  let side := BitVec.ofNat 256 ((dDf d * 2 ^ 12 + status.toNat) <<< 240)
  if dCmb d then
    { s.mkPkt .cmb (stackNode st) 1 tid a with red := dRed d, sb := true, rfmt := BitVec.ofNat 2 (dDf d), cnt := 1,
                                               op6 := BitVec.ofNat 32 (dCq d), side, data }
  else
    match targetOf (localOf a) with
    | .mem _ _ => { s.mkPkt .wr (stackNode st) 1 tid a with data }
    | _ => { s.mkPkt .wr (stackNode st) 1 tid a with sb := true, side, data }

/-- Whether a started command writes a non-combining result row at `a`: with its status, which may write none (R208). -/
def NCmd.namesRow (s : State) (k : Stack) (a : FAddr) (c : NCmd) : Bool :=
  !dCmb c.desc && (List.range (newtRows k c.status c.desc)).any (fun r => decide (s.resolve (dDstRow c.desc r).toNat = a))

/-- Whether another command in progress names the non-combining result row at `a` as well. -/
def State.clashes (s : State) (st id : Nat) (a : FAddr) : Bool :=
  (List.range 8).any (fun i => (s.stack i).cmds.any (fun c => !(decide (i = st) && decide (c.id = id)) && c.namesRow s (s.stack i) a))

/-- A result row enters the fabric. Where two commands write one row, the surviving value is not defined (R214): the row, and the others on their way to it, carry a free value. -/
def State.sendResult (s : State) (st id : Nat) (p : Packet) : State :=
  if p.kind = .wr ∧ s.clashes st id p.addr then
    let (s, f) := s.draw
    let put (q : Packet) : Packet := { q with data := Config.rowClash f }
    let meets (q : Packet) : Bool := decide (q.kind = .wr) && decide (q.addr = p.addr) && (List.range 8).any (fun i => decide (q.src = stackNode i))
    ({ s with net := s.net.map (fun q => if meets q then put q else q) }).inject (put p)
  else s.inject p

/-- Sends the result rows of a command: its elements in rows of EPR(DF) elements; a reduce-flagged row awaits no answer, only its injection (R201). -/
def State.sendRows (s : State) (st id : Nat) (d : BitVec 512) (status : BitVec 12) (els : List Nat) : State :=
  let n := epr (dDf d)
  let rows := (els.length + n - 1) / n
  let s := s.modCmd st id (fun c => { c with rows, phase := .write })
  (List.range rows).foldl (fun s r =>
    let (s, tid) := s.newtTid st
    let s := s.modCmd st id (fun c => if dCmb d && dRed d then { c with reds := c.reds ++ [tid] } else { c with outs := c.outs ++ [(tid, 0)] })
    s.sendResult st id (resultPkt s st d status tid r ((els.drop (n * r)).take n))) s

/-- The last flit of every reduce-flagged row of a command has been injected: none waits in its engine's injection queue (R201). -/
def State.redsGone (s : State) (st : Nat) (c : NCmd) : Bool :=
  !s.net.any (fun p => decide (p.kind = .cmb) && p.red && decide (p.src = stackNode st) && decide (p.sport = 1) && decide (p.sdev = s.own)
    && decide (p.hop = 0) && c.reds.contains p.tid)

/-- NaN in every element of the result rows that a failing command names (R208). -/
def State.sendNan (s : State) (st id : Nat) (d : BitVec 512) (status : BitVec 12) : State :=
  let v := if dDf d = 1 then 0x7FC0 else 0x7FC00000
  s.sendRows st id d status (List.replicate (newtRows (s.stack st) status d * epr (dDf d)) v)

/-! ## Computing -/

/-- A command's status where it has none yet. -/
def State.newtStatus (s : State) (st id : Nat) (v : BitVec 12) : State :=
  s.modCmd st id (fun c => { c with status := if c.status = 0 then v else c.status })

/-- DMG of an entry sets (R217). -/
def State.damage (s : State) (st h : Nat) : State :=
  let k := s.stack st
  s.setStack st { k with dir := Table.put k.dir h (k.adir h ||| BitVec.ofNat 1024 (2 ^ 12)) }

/-- Once every source row is pulled, the command computes, writes its stack data and sends its result rows; `bad` says that its group's read of the adapter met uncorrectable data. -/
def State.compute (s : State) (st : Nat) (bad : Bool) (c : NCmd) : State :=
  let k := s.stack st
  let d := c.desc
  let fail (s : State) (v : BitVec 12) : State :=
    let s := if dOp d = 3 ∧ v ≠ nNonfinite then s.damage st (dHandle d) else s
    (s.newtStatus st c.id v).sendNan st c.id d v
  if c.status ≠ 0 then fail s c.status
  else match dOp d with
  | 1 =>
    if bad then fail s nEcc
    else s.sendRows st c.id d 0 (s.adelta st (k.adir (dHandle d)) c.ver (dDf d) ((List.range (eDin (k.adir (dHandle d)))).map (c.srcElem (dSf d))))
  | 2 =>
    let v := k.kvOf (dSlot d)
    let dh := kvDh v
    let vec (g : Nat) : List (BitVec 16) := (List.range dh).map (fun i => BitVec.ofNat 16 (c.srcBits 16 0 (g * dh + i)))
    let pos := dP d 1
    let (s, ok) := if dApp d then s.append st v (dLayer d) (dHead d) pos (vec (dG d)) (vec (dG d + 1)) else (s, true)
    let rs := attnRanges v (dLayer d) (dHead d) pos
    let bad := s.rangesBad st rs
    let s := s.engineReads st rs
    if !ok || bad then fail s nEcc
    else
      let outs := (List.range (dG d)).flatMap (fun g =>
        s.attnHead st v (dLayer d) (dHead d) pos (BitVec.ofNat 32 (dP d 2)) ((vec g).map ofBf16))
      s.sendRows st c.id d 0 (outs.map (outElem (dDf d)))
  | 3 =>
    let e := k.adir (dHandle d)
    let na := eDin e * eRank e
    let g (i : Nat) : Nat := if i < na then c.srcBits 32 0 i else c.srcBits 32 src2Idx (i - na)
    if (List.range (eNpar e)).any (fun i => !(fp32.decode (g i)).isFin) then fail s nNonfinite
    else
      let bad := s.rangesBad st (optRanges e)
      let s := s.engineReads st (optRanges e)
      if bad then fail s nEcc
      else
        let (s, fl, ok) := s.opt st d g
        let s := s.modCmd st c.id (fun c => { c with phase := .write, flags := fl.bits })
        if ok then s else fail s nEcc
  | _ => s.modCmd st c.id (fun c => { c with phase := .write })

/-- The commands of a group that have not computed. -/
def Stack.waiting (k : Stack) (grp : Nat) : List NCmd := k.cmds.filter (fun c => decide (c.grp = grp) && decide (c.phase = .pull))

/-- A group computes once every source row of its commands is pulled: an ADELTA group reads the adapter once for all of them (R204). [DEDUCED, log entry 189: unsafe] -/
def State.computeGroup (s : State) (st grp : Nat) : State :=
  let cs := (s.stack st).waiting grp
  if cs.all (fun c => c.outs.isEmpty) then
    let (s, bad) := match cs.find? (fun c => decide (dOp c.desc = 1) && decide (c.status = 0)) with
      | some c =>
        let rs := adRanges ((s.stack st).adir (dHandle c.desc)) c.ver
        (s.engineReads st rs, s.rangesBad st rs)
      | none => (s, false)
    cs.foldl (fun s c => s.compute st bad c) s
  else s

/-! ## Starting (R203-R205, Table 9.9) -/

/-- The conditions of Table 9.9 that a descriptor which passes its checks meets. -/
def Stack.mayStart (k : Stack) (d : BitVec 512) : Bool :=
  match dOp d with
  | 1 => decide (k.contexts + 1 ≤ 16)
  | 2 => decide (k.contexts + 1 ≤ 16)
      && k.cmds.all (fun c => !(decide (dOp c.desc = 2) && dApp c.desc && decide (dSlot c.desc = dSlot d)
          && decide (dLayer c.desc = dLayer d) && decide (dHead c.desc = dHead d)))
  | 3 =>
    let e := k.adir (dHandle d)
    decide (k.contexts + (4 * eNpar e + 458751) / 458752 ≤ 16)
      && k.cmds.all (fun c => !(decide (dOp c.desc = 1) && decide (dHandle c.desc = dHandle d) && decide (c.ctx ≠ 0) && (c.ver != eVnew e)))
  | 4 => k.cmds.all (fun c => !(decide (dOp c.desc = 3) && decide (dHandle c.desc = dHandle d)))
  | 15 => decide (k.contexts + 1 ≤ 16)
  | _ => true

/-- Contexts that a started command uses (Table 9.9). -/
def Stack.ctxNeed (k : Stack) (d : BitVec 512) : Nat :=
  match dOp d with
  | 1 => 1 | 2 => 1 | 15 => 1
  | 3 => (4 * eNpar (k.adir (dHandle d)) + 458751) / 458752
  | _ => 0

/-- A fresh command record. -/
def newCmd (k : Stack) (r : NRow) (d : BitVec 512) (status : BitVec 12) : NCmd :=
  { id := k.nextId, desc := d, dev := r.dev, node := r.node, port := r.port, phase := .write, status, flags := 0, rows := 0,
    src := [], ctx := 0, grp := k.nextId, ver := false, outs := [] }

/-- A descriptor that fails a check starts and completes with its status (R203, R208). -/
def State.beginRefused (s : State) (st : Nat) (r : NRow) (d : BitVec 512) (status : BitVec 12) : State :=
  let k := s.stack st
  let c := newCmd k r d status
  (s.setStack st { k with nextId := k.nextId + 1, cmds := k.cmds ++ [c] }).sendNan st c.id d status

/-- The version that R215 selects. -/
def versionOf (e : BitVec 1024) (beat : Word) : Bool :=
  if eSr e || decide (0 ≤ beatDiff beat (eSwb e)) then eVnew e else !eVnew e

/-- A descriptor that passes its checks starts: pulls, or the whole effect of MARK, AVSW and SCRUB. `grp` is the group it joins. -/
def State.beginOk (s : State) (st : Nat) (r : NRow) (d : BitVec 512) (grp : Option Nat) : State :=
  let k := s.stack st
  let op := dOp d
  let pulls := newtPulls k d
  let c := { newCmd k r d 0 with ctx := k.ctxNeed d, grp := grp.getD k.nextId, phase := if pulls.isEmpty then .write else .pull,
                                 ver := versionOf (k.adir (dHandle d)) (s.beat.bcnt.setWidth 32) }
  let s := s.setStack st { k with nextId := k.nextId + 1, cmds := k.cmds ++ [c] }
  if op = 4 then
    let e := k.adir (dHandle d)
    let e := setBits (setBits (setBits e 14 1 (bnat (!eVnew e))) 13 1 0) 64 32 (dP d 1)
    let k := s.stack st
    s.setStack st { k with dir := Table.put k.dir (dHandle d) e }
  else if op = 15 then
    let lo := memKey st (dP d 0 * 512)
    let hi := lo + dP d 1 * 512
    ({ s with mem := s.mem.filter (fun c => decide (c.1 < lo) || decide (hi ≤ c.1)) }).cleanBursts lo (hi - lo)
  else pulls.foldl (fun s x => s.pull st c.id x) s

/-- The head descriptor waits behind a held table write that arrived before it (R199). -/
def Stack.behindWrite (k : Stack) (r : NRow) : Bool := k.heldW.any (fun w => decide (w.1 < r.seq))

/-- A descriptor's status at start: DISABLED while the engine is disabled, else the checks. -/
def State.startStatus (s : State) (st : Nat) (r : NRow) (d : BitVec 512) : BitVec 12 :=
  if (s.stack st).en then newtCheck (s.stack st) (s.beat.bcnt.setWidth 32) r.node d else nDisabled

/-- Starts the head descriptor if it may start now; `grp` is the ADELTA group it would join. Answers whether it passed its checks and started. -/
def State.startHead (s : State) (st : Nat) (grp : Option Nat) : State × Bool :=
  let k := s.stack st
  match k.head with
  | none => (s, false)
  | some (r, d) =>
    let op := dOp d
    if k.behindWrite r || ((dBar d || decide (op = 0) || decide (op = 15)) && !k.cmds.isEmpty) then (s, false)
    else
      let status := s.startStatus st r d
      if status ≠ 0 then ((s.takeHead st).beginRefused st r d status, false)
      else if grp.isNone && !k.mayStart d then (s, false)
      else ((s.takeHead st).beginOk st r d grp, true)

/-- Largest ADELTA group (R204). -/
def groupMax (e : BitVec 1024) (sf df : Nat) : Nat :=
  min 16 (458752 / max 1 (eDin e * (if sf = 1 then 2 else 1) + eDout e * (if df = 1 then 2 else 4)))

/-- Takes the directly following ADELTAs of the same HANDLE and SF into a group (R204). [DEDUCED, log entry 44: unsafe] -/
def State.growGroup (s : State) (st grp handle sf : Nat) : Nat → State
  | 0 => s
  | n + 1 =>
    match (s.stack st).head with
    | some (r, d) =>
      if dOp d = 1 ∧ dHandle d = handle ∧ dSf d = sf ∧ dBar d = false ∧ (s.stack st).behindWrite r = false then
        (s.startHead st (some grp)).1.growGroup st grp handle sf n
      else s
    | none => s

/-- Descriptors of reserved opcodes at the head of the ring start and complete with status ILLEGAL as soon as they may (R202, R203); `n` bounds them. [DEDUCED, log entry 46: unsafe] -/
def State.illegals (s : State) (st : Nat) : Nat → State
  | 0 => s
  | n + 1 =>
    match (s.stack st).head with
    | some (_, d) =>
      if opDefined (dOp d) then s
      else
        let s' := (s.startHead st none).1
        if (s'.stack st).ring = (s.stack st).ring then s' else s'.illegals st n
    | none => s

/-- Front end after any change: held writes, then reserved opcodes. -/
def State.frontEnd (s : State) (st : Nat) : State :=
  (s.setStack st (s.stack st).settleW).illegals st 1100

/-- Starts the head descriptor where its opcode is `op` (R203). [DESIGN CHOICE, log entry 187: unsafe] -/
def State.newtStart (s : State) (st op : Nat) : State :=
  match (s.stack st).head with
  | none => s
  | some (_, d) =>
    if dOp d ≠ op then s
    else
      let id := (s.stack st).nextId
      let (s', ok) := s.startHead st none
      let s' := if ok && decide (op = 1) then
          s'.growGroup st id (dHandle d) (dSf d) (groupMax ((s.stack st).adir (dHandle d)) (dSf d) (dDf d) - 1)
        else s'
      s'.frontEnd st

/-- MARK (R202): starts once every earlier-started command has completed, and does nothing but complete. -/
def execMark (st : StackId) (s : State) : Out := .next (s.newtStart st.toNat 0)
/-- ADELTA (R204, R215). -/
def execAdelta (st : StackId) (s : State) : Out := .next (s.newtStart st.toNat 1)
/-- ATTN (R216). -/
def execAttn (st : StackId) (s : State) : Out := .next (s.newtStart st.toNat 2)
/-- OPT (R217). -/
def execOpt (st : StackId) (s : State) : Out := .next (s.newtStart st.toNat 3)
/-- AVSW (R218). -/
def execAvsw (st : StackId) (s : State) : Out := .next (s.newtStart st.toNat 4)
/-- SCRUB (R219): zero to every granule, and read back; `bad` says that a granule does not read as zero, and the command then completes with status ECC. -/
def execScrub (st : StackId) (bad : Bool) (s : State) : Out :=
  let id := (s.stack st.toNat).nextId
  let s' := s.newtStart st.toNat 15
  match (s'.stack st.toNat).cmds.find? (fun c => decide (c.id = id) && decide (dOp c.desc = 15) && decide (c.status = 0)) with
  | some c =>
    if bad then
      let (s', b) := s'.strike (memKey st.toNat (dP c.desc 0 * 512)) (dP c.desc 1 * 512)
      .next ((s'.memEvent st.toNat (b * 64 % 2 ^ 37)).newtStatus st.toNat id nEcc)
    else .next s'
  | none => .next s'

/-! ## Arrival (R200, R221) -/

/-- Whether the engine takes a row now: HALTQ stops it while EN = 1, a full ring too (R200, R221). -/
def Stack.takesRow (k : Stack) : Bool := !k.en || (!k.haltq && decide (k.ring.length < 128))

/-- A command row arrives; while EN = 0 its descriptors complete at once with status DISABLED and its credit returns (R221). -/
def State.rowArrivesAt (s : State) (st : Nat) (r : NRow) : State :=
  let k := s.stack st
  let r := { r with seq := k.nextId }
  let s := s.setStack st { k with nextId := k.nextId + 1 }
  if k.en && r.next.isSome then
    let k := s.stack st
    (s.setStack st { k with ring := k.ring ++ [r] }).frontEnd st
  else
    ((List.range 8).foldl (fun s i =>
      let d := rowDesc r.row i
      if dOp d = 0xFF then s else s.beginRefused st r d nDisabled) s).rowCredit st r

/-- The row that a MSG packet carries to a command window. -/
def rowOfMsg (p : Packet) : NRow :=
  { row := p.data, dev := p.sdev, node := p.src, port := p.sport, cm := p.op6.getLsbD 18,
    entry := BitVec.ofNat 5 (bitsOf p.op6.toNat 17 13), slot := 0, seq := 0 }

/-! ## Answers and completion (R206-R210) -/

/-- An entry for the error FIFO; a full FIFO counts and drops it (R210). [DEDUCED, log entry 47: unsafe] -/
def State.newtError (s : State) (st : Nat) (e : NErr) : State :=
  let k := s.stack st
  if 64 ≤ k.errs.length then s.count (0x3100 + st) 4 else s.setStack st { k with errs := k.errs ++ [e] }

/-- The FIFO entry of a command. -/
def NCmd.entry (c : NCmd) (status : BitVec 12) : NErr :=
  { status, op := BitVec.ofNat 8 (dOp c.desc), tag := BitVec.ofNat 16 (dTag c.desc), dev := c.dev, node := c.node, port := c.port,
    slot := BitVec.ofNat 9 (dSlot c.desc), ten := BitVec.ofNat 12 (dTen c.desc) }

/-- The semaphore add of a command (R206). -/
def State.newtAdd (s : State) (st : Nat) (d : BitVec 512) : State :=
  let v := dW d 8 % 2 ^ 16
  if v = 0 then s
  else
    let (s, tid) := s.newtTid st
    s.inject (semPkt s (stackNode st) 1 tid (BitVec.ofNat 10 (dW d 9)) (dW d 8 / 2 ^ 22) (bitsOf (dW d 8) 21 16) 0 0 (BitVec.ofNat 32 v) true)

/-- The command has completed: counted, its error entered, its add sent; what waited for it goes on. -/
def State.newtDone (s : State) (st : Nat) (c : NCmd) : State :=
  let s := s.newtAdd st c.desc
  let k := s.stack st
  let old := Table.get (0, 0) k.hw (dSlot c.desc)
  let hw := if dOp c.desc = 2 ∧ dApp c.desc ∧ c.status = 0 then
      Table.put k.hw (dSlot c.desc) (max old.1 (dLayer c.desc), max old.2 (dP c.desc 1)) else k.hw
  let s := s.setStack st { k with cmds := k.cmds.filter (fun x => x.id ≠ c.id), hw }
  let s := s.count (0x3100 + st) 1
  let s := if c.status = 0 then s
    else if c.status = nNonfinite then s.count (0x3100 + st) 3
    else (s.count (0x3100 + st) 2).newtError st (c.entry c.status)
  s.frontEnd st

/-- The completion record (Table 9.11). -/
def NCmd.record (c : NCmd) (beat : Word) : List Byte :=
  leBytes 4 (dOp c.desc * 2 ^ 24 + c.status.toNat) ++ leBytes 4 (dTag c.desc) ++ leBytes 4 c.flags.toNat ++ leBytes 4 c.rows
    ++ leBytes 4 beat.toNat ++ leBytes 44 0

/-- An answer reaches an engine: a pulled row, an acknowledgement, or an error (R206, R208); `none` where no command awaits it. [DESIGN CHOICE, log entry 188: unsafe] -/
def State.newtAnswer (s : State) (st : Nat) (p : Packet) (ok : Bool) : Option State :=
  match (s.stack st).cmds.find? (fun c => c.outs.any (fun o => decide (o.1 = p.tid))) with
  | none => none
  | some c =>
    let ix := match c.outs.find? (fun o => decide (o.1 = p.tid)) with | some o => o.2 | none => 0
    let c := { c with outs := c.outs.filter (fun o => decide (o.1 ≠ p.tid)) }
    some (match c.phase with
    | .pull =>
      let c := if ok then { c with src := Table.put c.src ix { data := p.data, side := if p.sb then p.side else 0 } }
        else { c with status := if c.status = 0 then nFabric else c.status }
      (s.modCmd st c.id (fun _ => c)).computeGroup st c.grp
    | .write =>
      s.modCmd st c.id (fun _ => { c with status := if ok || decide (c.status ≠ 0) then c.status else nFabric })
    | .record =>
      let s := s.modCmd st c.id (fun _ => c)
      let s := if ok then s else s.newtError st { c.entry nFabric with dev := s.own, node := stackNode st, port := 1 }
      s.newtDone st c)

/-! ## Control region writes (R199, R210, R220, R221) -/

/-- NCTL_EN_WRITE (R221): a write of 0 takes effect only on an idle engine, and sets REF otherwise. -/
def execNctlEnWrite (st : StackId) (en : Bool) (s : State) : Out :=
  let k := s.stack st.toNat
  if en || k.idle then .next (s.setStack st.toNat { k with en })
  else .next (s.setStack st.toNat { k with refd := true })

/-- NCTL_HALTQ_WRITE (R220): stops or resumes the acceptance of command rows. -/
def execNctlHaltqWrite (st : StackId) (hq : Bool) (s : State) : Out :=
  .next (s.setStack st.toNat { s.stack st.toNat with haltq := hq })

/-- A table write by the management subsystem (R199): held while a queued or executing command references its entry. -/
def State.newtTable (s : State) (st off : Nat) (v : Word) : State :=
  let k := s.stack st
  (s.setStack st { k with nextId := k.nextId + 1, heldW := k.heldW ++ [(k.nextId, off, v)] }).frontEnd st

/-- NEWT_TABLE_WRITE (R199, Table 10.6): a 32-bit word of the directory or the KV slot table, or a 16-bit tenant entry. -/
def execNewtTableWrite (st : StackId) (off : BitVec 21) (v : Word) (s : State) : Out :=
  let o := off.toNat
  match entryOf o with
  | .none_ => .next s
  | .ten _ => if o % 2 = 0 then .next (s.newtTable st.toNat o v) else .next s
  | _ => if o % 4 = 0 then .next (s.newtTable st.toNat o v) else .next s

/-- SR sets at a boundary or resynchronisation once the beat counter has reached SWB (R218). -/
def Stack.switchReached (k : Stack) (beat : Word) : Stack :=
  { k with dir := k.dir.map (fun e => if eV e.2 && !eSr e.2 && decide (0 ≤ beatDiff beat (eSwb e.2)) then (e.1, e.2 ||| BitVec.ofNat 1024 (2 ^ 13)) else e) }

end Sys2Proof.Machine
end

