-- ==== Sys2Proof/Machine/Rings.lean ====
section
/-! DEFINITION. Packets on the rings: order (R259), router buffers and back-pressure (R256, R258), grants of links (R257), crossings and clocks (R260, R264), and faulty flits (R267). -/

namespace Sys2Proof.Machine

/-! ## Order (R259) -/

/-- Two packets share source and destination, node, port and device. -/
def samePath (p q : Packet) : Bool :=
  decide (p.src = q.src) && decide (p.sport = q.sport) && decide (p.sdev = q.sdev)
    && decide (p.dst = q.dst) && decide (p.dport = q.dport) && decide (p.ddev = q.ddev)

/-- Two packets of one source and one destination take one path: on this die, and, for another device, by one port and with one ADDR[9] (R410). -/
def sharesWay (p q : Packet) : Bool :=
  decide (p.route = q.route) && decide (p.out = q.out) && (p.out.isNone || decide (p.pathAddr.getLsbD 9 = q.pathAddr.getLsbD 9))

/-- Two packets of one source and one destination share virtual channel and path. -/
def sameWay (p q : Packet) : Bool := samePath p q && decide (p.vc = q.vc) && sharesWay p q

/-- `q` came before `p` and stands in the receive buffer of the same port and virtual channel: its rim unit forwards them in arrival order (R410). [DEDUCED, log entry 191: unsafe] -/
def rxBefore (q p : Packet) : Bool := p.inRx && q.inRx && decide (q.via = p.via) && decide (q.vc = p.vc)

/-- Whether the earlier packet `q` must arrive before `p`: `p` carries the order flag, or both use one virtual channel and one path. [DESIGN CHOICE, log entry 58: safe] -/
def mustPrecede (q p : Packet) : Bool := samePath q p && ((p.ord && !q.unordered) || (decide (p.vc = q.vc) && sharesWay p q))

/-- Whether TID `t` comes before `p`'s at `p`'s source: of one channel of a DMA engine, or of one counter elsewhere. -/
def tidBefore (t : BitVec 12) (p : Packet) : Bool :=
  if p.sport = 2 ∧ p.src.toNat < 1024 then
    decide (t.toNat / 512 = p.tid.toNat / 512) && (let d := (p.tid.toNat + 512 - t.toNat % 512) % 512; decide (1 ≤ d) && decide (d < 256))
  else let d := (p.tid - t).toNat; decide (1 ≤ d) && decide (d < 2048)

/-- Virtual channel of the request that an answer belongs to: what its kind tells, and for a WACK or an ERR the port that asked, a core's queue unit and a synchronisation unit with message rows and contributions on VC2, any other with reads and writes on VC1. -/
def askedVc (a : Packet) : Nat :=
  match a.kind with
  | .sack => 0
  | .rdr => 1
  | _ => if a.red then 0 else if a.dst.toNat < 1024 ∧ (a.dport = 1 ∨ a.dport = 3) then 2 else 1

/-- `a`, on its way, answers a request that `p`'s source sent earlier to `p`'s destination on another virtual channel or path. -/
def State.answersEarlier (s : State) (before : Bool) (a p : Packet) : Bool :=
  a.isAnswer && decide (a.dst = p.src) && decide (a.dport = p.sport) && decide (a.ddev = p.sdev)
    && ((decide (a.src = p.dst) && decide (a.sport = p.dport) && decide (a.sdev = p.ddev)) || (decide (a.kind = .err) && decide (devOf a.addr = p.ddev) && decide (p.ddev ≠ s.own)))
    && (before || tidBefore a.tid p)
    && (decide (askedVc a ≠ p.vc) || decide (pathOf a.addr p.entry p.exit ≠ p.route) || (p.out.isSome && decide (a.addr.getLsbD 9 ≠ p.pathAddr.getLsbD 9)))

/-- `q` has reached `p`'s destination or left this device, is not answered, and `p`'s order flag waits for it. -/
def stillOpen (q p : Packet) : Bool := samePath q p && !q.unordered && (decide (q.vc ≠ p.vc) || !sharesWay q p)

/-- An earlier request to the destination of packet `k`, on another virtual channel or path, has not been answered: it waits in the ingress buffer, as a semaphore wait or at another device, or its answer is on its way. -/
def State.unanswered (s : State) (k : Nat) (p : Packet) : Bool :=
  (s.net.take k).any (fun a => s.answersEarlier true a p) || (s.net.drop (k + 1)).any (fun a => s.answersEarlier false a p)
    || s.links.asked.any (fun q => stillOpen q p && tidBefore q.tid p)
    || (decide (p.dport = 1) && (s.core p.core).que.ingress.any (fun q => stillOpen q p && tidBefore q.tid p))
    || (decide (p.dport = 3) && ((s.clu p.unit).sync.waits.any (fun w => stillOpen w.2.req p && tidBefore w.2.req.tid p)
      || (s.clu p.unit).sync.chwaits.any (fun w => stillOpen w.2.req p && tidBefore w.2.req.tid p)))

/-! ## Buffers (R256, R258) -/

/-- Packet buffers of a router input for a virtual channel. -/
def vcBuffers (v : Nat) : Nat := if v = 0 then 4 else 3

/-- Packets of virtual channel `v` that hold an input buffer at the far end of a link. -/
def State.held (s : State) (l : RingLink) (v : Nat) : Nat := s.net.countP (fun p => decide (p.vc = v) && decide (p.behind = some l))

/-- The input buffer behind link `i` of a packet's path can take it: two free to enter a ring, one to travel on. -/
def State.room (s : State) (p : Packet) (i : Nat) : Bool :=
  match p.route[i]? with
  | some l => decide (s.held l p.vc + (if entersRing p.route i then 2 else 1) ≤ vcBuffers p.vc)
  | none => true

/-- Every buffer from a packet's place to the far end of link `n - 1` can take it. -/
def State.wayFree (s : State) (p : Packet) (n : Nat) : Bool := (List.range n).all (fun i => decide (i < p.hop) || s.room p i)

/-- Packet `k` in flight may arrive now: it is for this device, no packet ahead of it must precede it, every earlier request that its order flag waits for is answered, the buffers on its way are free, and the ingress buffer has room (R117, R256, R259). -/
def State.mayArrive (s : State) (k : Nat) (p : Packet) : Bool :=
  decide (p.ddev = s.own) && (s.net.take k).all (fun q => !mustPrecede q p && !rxBefore q p) && !(p.ord && s.unanswered k p)
    && s.wayFree p p.route.length && !(p.isRow && decide (4 ≤ (s.core p.core).que.ingress.length))

/-- The machine with packet `n` out of flight, and out of the receive buffer of its port; an answer from another device ends its request's wait. -/
def State.sans (s : State) (n : Nat) : State :=
  match s.net[n]? with
  | some p =>
    let s' := { s with net := s.net.eraseIdx n }.freeRx p
    if p.isAnswer ∧ p.sdev ≠ s.own then s'.unasked p.dst p.dport p.askedDev p.tid else s'
  | none => { s with net := s.net.eraseIdx n }

/-! ## Faults and discards (R232, R267, R268) -/

/-- The unit of a packet is on: the rim's units always, a core's or cluster's with its region. -/
def State.dstOn (s : State) (p : Packet) : Bool := decide (1024 ≤ p.dst.toNat) || s.coreOn p.dst.toNat

/-- A VC0 flit with an uncorrectable error is discarded; the device goes to FAULT (R267). -/
def State.dropVc0 (s : State) (p : Packet) : State := (s.logEv 0x0A01 true p.ends).deviceFault 3

/-- A router poisons a VC1 or VC2 packet: counted, logged, Croak (R267). -/
def State.poison (s : State) (p : Packet) : State × Packet :=
  ((s.count 0x4030 2).logEv 0x0A01 true p.ends, { p with psn := true })

/-- A packet that its destination discards without an answer, logged with Croak (R232). -/
def State.discardPkt (s : State) (p : Packet) : State := s.logEv 0x0A01 true p.ends

/-- What the router of a disabled region does with a packet: a request is answered, the rest discarded and counted; message and contribution rows are logged with Croak (R268). [DEDUCED, log entry 20: unsafe] -/
def State.offRegion (s : State) (p : Packet) : State :=
  let row := decide (p.kind = .msg) || decide (p.kind = .cmb)
  let s := if row || !p.answered then s.count 0x4030 5 else s
  let s := if row then s.logEv 0x0A01 true p.ends else s
  if p.answered then s.inject (p.errReply s.own 2) else s

/-! ## Grants (R257, R260) -/

/-- Whether a region with clock code `k` has an edge in the cycle at DEVT `t`: k of every 16 edges are removed, evenly spread (R463). [DESIGN CHOICE, log entry 71: unsafe] -/
def regionEdge (k t : Nat) : Bool := decide (t * (16 - k) / 16 < (t + 1) * (16 - k) / 16)

/-- The clock code of a region: below full rate only while a released image's variant runs (R19, R463). [DEDUCED, log entry 167: unsafe] -/
def State.freqCode (s : State) (r : Nat) : Nat :=
  if s.loader.img = 4 ∧ (s.dev.st = .run ∨ s.dev.st = .hold) then Table.get 0 s.power.freq r else 0

/-- The clock code of the slower side of a link. -/
def State.slowCode (s : State) (l : RingLink) : Nat := (l.regions.map (fun r => s.freqCode r)).foldl max 0

/-- Packet `k` may take its next link in this cycle. -/
def State.mayHop (s : State) (k : Nat) (p : Packet) : Bool :=
  match p.link with
  | none => false
  | some l =>
    let now := s.beat.devt.toNat
    decide (p.ready ≠ 0) && decide (p.ready ≤ now) && decide (Table.get 0 s.rings l.key ≤ now) && regionEdge (s.slowCode l) now
      && s.room p p.hop && (s.net.take k).all (fun q => (!sameWay q p || decide (p.hop < q.hop)) && !rxBefore q p)
      && (decide (p.hop ≠ 0) || !p.ord || ((s.net.take k).all (fun q => !mustPrecede q p || sameWay q p) && !s.unanswered k p))

/-- Packet `k` takes its next link, which it keeps until its last flit has passed, one flit a cycle of the slower side; `e` is what the next router finds in its flits. [DESIGN CHOICE, log entry 59: safe] -/
def State.hopOn (s : State) (k : Nat) (p : Packet) (l : RingLink) (e : Ecc) : State :=
  let now := s.beat.devt.toNat
  let q := p.hopped l s.dev.async now
  let s := { s with rings := Table.put (s.rings.filter (fun x => decide (now < x.2))) l.key (now + ((p.flits + 1) * 16 + 15 - s.slowCode l) / (16 - s.slowCode l)),
                    net := s.net.set k q }
  match e with
  | .clean => s
  | .corrected => s.count 0x4030 1
  | .uncorrectable =>
    if p.vc = 0 then ({ s with net := s.net.eraseIdx k }).dropVc0 p
    else let (s, q) := s.poison q; { s with net := s.net.set k q }

/-- A link is granted to packet `k`, which leaves the receive buffer of its port; the grant to a starved packet is counted. -/
def State.grant (s : State) (k : Nat) (p : Packet) (l : RingLink) (e : Ecc) : State :=
  let s' := (s.freeRx p).hopOn k p l e
  if p.starved then s'.count 0x4030 4 else s'

/-- What a router finds in the flits of a packet, as free value `n` says. -/
def flitEcc (n : Nat) : Ecc :=
  match Config.flitFault n with | none => .clean | some false => .corrected | some true => .uncorrectable

/-- The packets of rank `r` take the links that they may take, in injection order; what a router finds in their flits is free (R267). -/
def State.grantRank (s : State) (r : Nat) : State :=
  (List.range s.net.length).foldl (fun s k =>
    match s.net[k]? with
    | some p =>
      match p.link with
      | some l => if p.rank = r ∧ s.mayHop k p then { s with free := s.free + 1 }.grant k p l (flitEcc s.free) else s
      | none => s
    | none => s) s

/-- A packet for another device reaches its port: it is queued there, and where the port takes none, or the own ID is unassigned, it is discarded (R402, R405, R406, R408). -/
def State.toPort (s : State) (n : Nat) (p : Packet) : State :=
  let t := s.port n
  if (t.st = .active ∨ t.st = .retrain) ∧ s.own ≠ 0x3FF then
    let s := s.setPort n { t with queue := t.queue ++ [p.bare] }
    if p.answered ∧ p.sdev = s.own then { s with links := { s.links with asked := s.links.asked ++ [{ p.bare with out := some n }] } } else s
  else s.discard406 true n p

/-- A packet that stands in the router of its destination and that no command delivers: one for another device leaves by its port; a control signal for any node but the management subsystem's is discarded, at a unit of a disabled region under R268, elsewhere logged with Croak (R232). -/
def State.leave (s : State) (p : Packet) : Option State :=
  if p.ready = 0 ∨ s.beat.devt.toNat < p.ready ∨ p.link.isSome then none
  else match p.out with
    | some n => some (s.toPort n p)
    | none =>
      if p.kind = .ctl ∧ p.ddev = s.own ∧ p.dst ≠ mgmtNode then some (if s.dstOn p then s.discardPkt p else s.offRegion p) else none

/-- Packet `k` leaves where it may, and where none of its port stands before it (R410). -/
def State.leaveAt (s : State) (k : Nat) (p : Packet) : Option State :=
  if (s.net.take k).any (fun q => rxBefore q p) then none else ({ s with net := s.net.eraseIdx k }.leave p).map (fun (t : State) => t.freeRx p)

/-- The packets from number `k` on that leave do so, in injection order; `n` bounds them. -/
def State.leaveFrom : Nat → Nat → State → State
  | 0, _, s => s
  | n + 1, k, s =>
    match s.net[k]? with
    | none => s
    | some p =>
      match s.leaveAt k p with
      | some t => State.leaveFrom n k t
      | none => State.leaveFrom n (k + 1) s

/-- One cycle of the fabric: packets that have reached their port leave, new ones are noticed, each free link is granted, and those left behind wait. -/
def State.fabricCycle (s : State) : State :=
  if s.net.isEmpty then s
  else
    let now := s.beat.devt.toNat
    let s := State.leaveFrom s.net.length 0 s
    let s := { s with net := s.net.map (fun (p : Packet) => p.noticed now) }
    let s := (List.range 9).foldl (fun s r => s.grantRank r) s
    { s with net := s.net.map (fun (p : Packet) => p.waited now) }

end Sys2Proof.Machine
end

