-- ==== Sys2Proof/Machine/Requests.lean ====
section
/-! DEFINITION. Packets that arrive at a target: the requests RD, WR, MSG, CMB and SEM (Table 11.4, R232, R233), and merges (R261). -/

namespace Sys2Proof.Machine

/-! ## Arrival -/

/-- Takes packet `k` out of flight, where it satisfies `want` and may arrive; `flt` is an uncorrectable error that a router found in it. -/
def State.deliver (s : State) (k : Nat) (flt : Bool) (want : Packet → Bool) (f : State → Packet → Out) : Out :=
  match s.net[k]? with
  | none => .next s
  | some p =>
    if want p && s.mayArrive k p then
      let s := s.sans k
      if flt && decide (p.vc = 0) then .next (s.dropVc0 p)
      else
        let (s, p) := if flt then s.poison p else (s, p)
        if s.dstOn p then f s p else .next (s.offRegion p)
    else .next s

/-! ## Stack memory (R225, R227) -/

/-- What the controller finds when it reads bursts: the state after its reports, and whether the data are good (R225). [DESIGN CHOICE, log entry 50: unsafe] -/
def State.memCheck (s : State) (st sa n : Nat) (e : Ecc) : State × Bool :=
  if s.memBad (memKey st sa) n then (s.memEvent st sa, false)
  else match e with
    | .clean => (s.granuleRead st sa n, true)
    | .corrected => (s.count 0x3002 (st + 1), true)
    | .uncorrectable => ((s.markBad (memKey st sa) n).memEvent st sa, false)

/-- RD at a memory controller. -/
def State.memRd (s : State) (p : Packet) (st sa : Nat) (e : Ecc) : State :=
  let n := sizeBytes p.size
  let (s, ok) := (s.dieSide st sa).memCheck st sa n e
  if ok then s.inject ((p.reply s.own .rdr).withPayload (s.memRead (memKey st sa) n)) else s.err p 3

/-- Byte enables of a 64-byte write: words 6 and 7, none set for all (R130). -/
def byteEnables (p : Packet) : BitVec 64 :=
  let m := BitVec.ofNat 64 (p.op6.toNat + p.op7.toNat * 2 ^ 32)
  if m = 0 then BitVec.ofNat 64 (2 ^ 64 - 1) else m

/-- WR at a memory controller: a write of less than a burst is merged, and is not performed into an uncorrectable burst (R225). -/
def State.memWr (s : State) (p : Packet) (st sa : Nat) (e : Ecc) : State :=
  let n := sizeBytes p.size
  let key := memKey st sa
  let s := s.dieSide st sa
  let be := byteEnables p
  let bs := if n = 64 then (List.range 64).map (fun i => if be.getLsbD i then byteAt p.data i else s.memByte (key + i)) else p.payload
  let whole := if n = 64 then decide (be = BitVec.ofNat 64 (2 ^ 64 - 1)) else decide (n = 512)
  let (s, ok) := if whole then (s, true) else s.memCheck st sa n e
  if ok then
    match s.burstWrite key bs with
    | some s => s.wack p
    | none => (s.memEvent st sa).err p 3
  else s.err p 3

/-! ## Scratchpad windows (R114-R117, R126) -/

/-- RD of a scratchpad window: a row with its side band, or side bands. [DEDUCED, log entry 16: unsafe] -/
def State.rowRd (s : State) (c : CoreId) (p : Packet) (e : Ecc) : State :=
  let n := sizeBytes p.size
  match targetOf (localOf p.addr) with
  | .data _ m r off =>
    if n ≠ 512 ∨ off ≠ 0 then s.err p 1
    else
      let s := s.remoteEcc c m r e
      let w := s.row c m r
      if w.err = .uncorrectable then s.err p 3
      else s.inject { p.reply s.own .rdr with size := 6, sb := true, side := w.side, data := w.data }
  | .side _ m r off =>
    if off ≠ 0 ∨ (n ≠ 32 ∧ n ≠ 512) ∨ (n = 512 ∧ r % 16 ≠ 0) then s.err p 1
    else
      let rows := if n = 32 then 1 else 16
      let s := s.remoteReads c m ((List.range rows).map (r + ·)) e
      if (List.range rows).any (fun i => decide ((s.row c m (r + i)).err = .uncorrectable)) then s.err p 3
      else if n = 32 then s.inject { p.reply s.own .rdr with size := 4, side := (s.row c m r).side }
      else s.inject { p.reply s.own .rdr with size := 6, data := (s.core c).bands m r }
  | _ => s.err p 1

/-- WR to a scratchpad window. -/
def State.rowWr (s : State) (c : CoreId) (p : Packet) : State :=
  let n := sizeBytes p.size
  match targetOf (localOf p.addr) with
  | .data _ m r off =>
    if n ≠ 512 ∨ off ≠ 0 then s.err p 1
    else
      let w := (s.row c m r).withData p.data
      (s.putRow c m r (if p.sb then w.withSide p.side else w)).wack p
  | .side _ m r off =>
    if off ≠ 0 ∨ (n ≠ 32 ∧ n ≠ 512) ∨ (n = 512 ∧ r % 16 ≠ 0) then s.err p 1
    else if n = 32 then (s.putRow c m r ((s.row c m r).withSide p.side)).wack p
    else (s.modCore c (fun k => k.putBands m r p.data.toNat 16)).wack p
  | _ => s.err p 1

/-! ## The ingress buffer (R117, R282) -/

/-- Serves one row at a core; `false` leaves it waiting: a row 0 without room or record. -/
def State.serveRow (s : State) (c : CoreId) (p : Packet) (e : Ecc) : State × Bool :=
  if p.psn && !(decide (p.kind = .cmb) && p.red) then (s.err p 3, true)
  else match p.kind with
    | .rd => (s.rowRd c p e, true)
    | .wr => (s.rowWr c p, true)
    | .cmb => (s.combine c p e, true)
    | .msg =>
      if msgIdx p ≠ 0 then (s.landRowAt c p, true)
      else match (s.core c).que.judge p with
        | .discard => ((s.discardRow c p).err p 1, true)
        | .take => ((s.allocate c p).landRowAt c p, true)
        | .hold viol => (if viol then s.violation c (msgRing p) else s, false)
    | _ => (s, true)

/-- A row arrives at a core: behind a waiting row it waits too (R117, R282). [DEDUCED, log entry 56: unsafe] -/
def State.rowArrives (s : State) (c : CoreId) (p : Packet) (e : Ecc) : State :=
  let push (s : State) : State := s.modCore c (fun k => { k with que := { k.que with ingress := k.que.ingress ++ [p] } })
  if (s.core c).que.ingress.isEmpty then
    let (s', done) := s.serveRow c p e
    if done then s' else push s'
  else push s

/-- Serves waiting rows in order until one must wait; `n` bounds them. [DESIGN CHOICE, log entry 19: unsafe] -/
def State.drainRows (s : State) (c : CoreId) : Nat → State
  | 0 => s
  | n + 1 =>
    match (s.core c).que.ingress with
    | [] => s
    | p :: ps =>
      let (s', done) := s.serveRow c p .clean
      if done then (s'.modCore c (fun k => { k with que := { k.que with ingress := ps } })).drainRows c n else s'

/-- ROW0_ALLOCATE (R279, R282): the row 0 that waits at the head of the ingress buffer is accepted once its ring has room and a record is free; what waited behind it follows. -/
def execRow0Allocate (c : CoreId) (s : State) : Out :=
  if s.coreOn c.toNat then .next (s.drainRows c (s.core c).que.ingress.length) else .next s

/-! ## Control regions (R232-R238) -/

/-- The requester class of a packet (R233, R234). -/
def State.whoOf (s : State) (p : Packet) : Who :=
  if p.sdev ≠ s.own then .peer
  else if p.src = mgmtNode then .mgmt
  else if p.src.toNat < 1024 then (if p.sport = 2 then .dma else .cores)
  else .peer

/-- A value returned by a control read, in its access size. -/
def State.ctlReply (s : State) (p : Packet) (v : Nat) : State :=
  s.inject ((p.reply s.own .rdr).withPayload (leBytes (sizeBytes p.size) v))

/-- RD of a control class target. -/
def State.ctlRd (s : State) (p : Packet) : State :=
  let n := sizeBytes p.size
  let w := s.whoOf p
  if p.sdev ≠ s.own then s.err p 4
  else match targetOf (localOf p.addr) with
    | .coreCtl c o =>
      (match s.coreCtlRead (BitVec.ofNat 10 c) o n w with | some v => s.ctlReply p v | none => s.err p 5)
    | .clusCtl cl o =>
      (match s.cluCtlRead cl o n w (p.near cl) with | some v => s.ctlReply p v | none => s.err p 5)
    | .newt st o =>
      if w = .cores then
        (match (s.stack st).ctlRead false o n with | some bs => s.ctlReply p (leNat bs) | none => s.err p 4)
      else s.err p 4
    | _ => s.err p 4

/-- WR of a control class target. -/
def State.ctlWr (s : State) (p : Packet) : Out :=
  let n := sizeBytes p.size
  let w := s.whoOf p
  let v := leNat p.payload
  let ans (a : Acc) : Out := match a with
    | .ok s => .next (s.wack p) | .refuse => .next (s.err p 5) | .fault f => .fault f
  if p.sdev ≠ s.own then .next (s.err p 4)
  else match targetOf (localOf p.addr) with
    | .coreCtl c o => ans (s.coreCtlWrite (BitVec.ofNat 10 c) o n w v)
    | .clusCtl cl o => ans (s.cluCtlWrite cl o n w (p.near cl) v)
    | _ => .next (s.err p 4)

/-! ## Commands: RD, WR, MSG, CMB -/

/-- READ_REQUEST (R76, R225, R232): an RD packet reaches its target, which answers with RDR or ERR; `ecc` is what the check bits of what it reads show. -/
def execReadRequest (k : Nat) (flt : Bool) (ecc : Ecc) (s : State) : Out :=
  s.deliver k flt (fun p => decide (p.kind = .rd)) (fun s p =>
    match targetOf (localOf p.addr) with
    | .data _ _ _ _ => .next (s.rowArrives p.core p ecc)
    | .side _ _ _ _ => .next (s.rowArrives p.core p ecc)
    | .way _ _ => .next (s.rowArrives p.core p ecc)
    | t =>
      if p.psn then .next (s.err p 3)
      else match t with
        | .mem st sa => .next (s.memRd p st sa ecc)
        | .nothing => .next (s.err p 1)
        | .hole _ => .next (s.err p 1)
        | _ => .next (s.ctlRd p))

/-- WRITE_REQUEST (R225, R232): a WR packet reaches its target, which answers with WACK or ERR. -/
def execWriteRequest (k : Nat) (flt : Bool) (ecc : Ecc) (s : State) : Out :=
  s.deliver k flt (fun p => decide (p.kind = .wr)) (fun s p =>
    match targetOf (localOf p.addr) with
    | .data _ _ _ _ => .next (s.rowArrives p.core p ecc)
    | .side _ _ _ _ => .next (s.rowArrives p.core p ecc)
    | .way _ _ => .next (s.rowArrives p.core p ecc)
    | t =>
      if p.psn then .next (s.err p 3)
      else match t with
        | .mem st sa => .next (s.memWr p st sa ecc)
        | .nothing => .next (s.err p 1)
        | .hole _ => .next (s.err p 1)
        | _ => s.ctlWr p)

/-- The core in whose scratchpad window an address lies, at whatever offset (R114). -/
def windowCore (a : Nat) : Option CoreId :=
  if 0x100000000000 ≤ a ∧ a < 0x100040000000 then some (BitVec.ofNat 10 ((a - 0x100000000000) / 0x100000)) else none

/-- A MSG or CMB whose address is not a scratchpad row or a command window (R232, R233). -/
def State.misdirected (s : State) (p : Packet) : State :=
  let st := match targetOf (localOf p.addr) with
    | .coreCtl _ _ => if p.sdev = s.own then 5 else 4
    | .clusCtl _ _ => if p.sdev = s.own then 5 else 4
    | .nothing => 1
    | .hole _ => 1
    | _ => 4
  if p.answered then s.err p (if p.psn then 3 else st) else s.discardPkt p

/-- A MSG or CMB for an offset of a core's window that has no target: a DIRECT message lands outside A and P, a contribution outside its queue's rows, and another KIND is none of a queue unit's, so that the core discards it (R284, R289); at a core of a disabled region R268 holds. [DEDUCED, log entry 159: unsafe] -/
def State.offTarget (s : State) (p : Packet) : State :=
  match windowCore (localOf p.addr) with
  | none => s.misdirected p
  | some c =>
    if s.coreOn c.toNat = false then s.offRegion p
    else if p.kind = .msg ∧ msgKind p = 0 then s.misdirected p
    else
      let s := s.discardRow c p
      if p.answered then s.err p (if p.psn then 3 else 1) else s

/-- MESSAGE_ROW (R275-R285): a MSG row reaches a core's queue unit, or a target that takes no messages. -/
def execMessageRow (k : Nat) (flt : Bool) (s : State) : Out :=
  s.deliver k flt (fun p => decide (p.kind = .msg) && p.toWindow.isNone) (fun s p =>
    if p.toPads then .next (s.rowArrives p.core p .clean) else .next (s.offTarget p))

/-- COMBINING_CONTRIBUTION (R286-R289): a CMB row reaches a core's queue unit, or a target that takes none. -/
def execCombiningContribution (k : Nat) (flt : Bool) (ecc : Ecc) (s : State) : Out :=
  s.deliver k flt (fun p => decide (p.kind = .cmb)) (fun s p =>
    if p.toPads then .next (s.rowArrives p.core p ecc) else .next (s.offTarget p))

/-- NEWT_COMMAND_ROW (R200): a MSG row reaches a command window and enters the engine's ring; while the ring is full or HALTQ holds, it waits in the fabric. -/
def execNewtCommandRow (k : Nat) (flt : Bool) (s : State) : Out :=
  s.deliver k flt (fun p => decide (p.kind = .msg) && (match p.toWindow with | some st => (s.stack st).takesRow | none => false))
    (fun s p =>
      match p.toWindow with
      | some st => if p.psn then .next (s.err p 3) else .next ((s.wack p).rowArrivesAt st (rowOfMsg p))
      | none => .next s)

/-! ## Semaphore packets (R303, R304, R312) -/

/-- Whether two CMB packets may merge (R261). -/
def mayMerge (p q : Packet) : Bool :=
  decide (p.kind = .cmb) && decide (q.kind = .cmb) && p.red && q.red && decide (p.dst = q.dst) && decide (p.dport = q.dport)
    && decide (p.ddev = q.ddev) && decide (p.addr = q.addr) && decide (p.rfmt = q.rfmt) && decide (p.sb = q.sb)
    && decide (p.op6 = q.op6) && decide (p.op7 = q.op7) && decide (p.cnt.toNat + q.cnt.toNat ≤ 65535)

/-- The place on `q`'s path at which it stands in the router that holds `p` and is bound for the same output: the same next link, or the same destination. -/
def mergeAt (p q : Packet) : Nat :=
  match p.link with
  | some l => q.route.idxOf l
  | none => q.route.length

/-- Packet `q` may come to the router that holds `p`, which has not begun to leave (R261): the buffers on its way are free, and no earlier packet of its way stands behind that router. -/
def State.meets (s : State) (b : Nat) (p q : Packet) : Bool :=
  let j := mergeAt p q
  p.inBuffer && decide (j ≤ q.route.length) && decide (p.link = q.route[j]?) && decide (q.hop ≤ j)
    && (decide (j ≠ 0) || q.inBuffer) && s.wayFree q j && (s.net.take b).all (fun x => (!sameWay x q || decide (j ≤ x.hop)) && !rxBefore x q)

/-- REDUCE_MERGE (R261, R262): of two reduce-flagged contributions, `b` arrives at the router that holds `a`, bound for the same output link, and they become one in `a`'s place, which may leave 2 cc after `b`'s last flit. [DEDUCED, log entry 57: safe] -/
def execReduceMerge (a b : Nat) (s : State) : Out :=
  match s.net[a]?, s.net[b]? with
  | some p, some q =>
    if a ≠ b ∧ mayMerge p q ∧ s.meets b p q then
      let m := { p with cnt := p.cnt + q.cnt, psn := p.psn || q.psn, data := addRows p.rfmt.toNat p.data q.data,
                        ready := max p.ready (s.beat.devt.toNat + q.flits + 2) }
      .next (({ s with net := (s.net.set a m).eraseIdx b }.freeRx q).count 0x4030 3)
    else .next s
  | _, _ => .next s

/-- ANTI_STARVATION_GRANT (R257): an injecting or turning packet that has waited 64 cc takes its link, under the two-buffer rule, ahead of travelling packets; counted. -/
def execAntiStarvationGrant (k : Nat) (s : State) : Out :=
  match s.net[k]? with
  | some p =>
    match p.link with
    | some l => if p.starved && s.mayHop k p then .next (s.grant k p l .clean) else .next s
    | none => .next s
  | none => .next s

/-- A malformed operation is answered with status 0x5 and counted (R304). -/
def State.semBad (s : State) (p : Packet) : State := (s.count 0x4050 1).inject (sackOf s p 5)

/-- A SEM packet with an operation that `want` names reaches its unit; at the memory class it is answered with an ERR of status 0x4 (R232), and a SEM at no unit is malformed too. [DEDUCED, log entry 21: unsafe] -/
def State.semDeliver (s : State) (k : Nat) (flt : Bool) (want : Nat → Bool) (f : State → Nat → Packet → State) : Out :=
  s.deliver k flt (fun p => decide (p.kind = .sem) && want (semOp p)) (fun s p =>
    if p.dst.toNat < 1024 ∧ p.dport = 3 ∧ semFormed p.unit p then .next (f s p.unit p)
    else if (targetOf (localOf p.addr)).cls = .memory then .next (s.err p 4) else .next (s.semBad p))

/-- SEMAPHORE_ADD (R304); a SEM packet of a reserved OP is delivered by it too, and refused. -/
def execSemaphoreAdd (k : Nat) (flt : Bool) (s : State) : Out :=
  s.semDeliver k flt (fun o => decide (o = 0) || decide (6 ≤ o)) (fun s cl p => s.semAdd cl p)
/-- SEMAPHORE_SUBTRACT (R304). -/
def execSemaphoreSubtract (k : Nat) (flt : Bool) (s : State) : Out :=
  s.semDeliver k flt (fun o => decide (o = 1)) (fun s cl p => s.semSub cl p)
/-- SEMAPHORE_WAIT (R304). -/
def execSemaphoreWait (k : Nat) (flt : Bool) (s : State) : Out :=
  s.semDeliver k flt (fun o => decide (o = 2)) (fun s cl p => s.semWait cl p false)
/-- SEMAPHORE_WAIT_SUBTRACT (R304). -/
def execSemaphoreWaitSubtract (k : Nat) (flt : Bool) (s : State) : Out :=
  s.semDeliver k flt (fun o => decide (o = 3)) (fun s cl p => s.semWait cl p true)
/-- ARM_WATCH (R312). -/
def execArmWatch (k : Nat) (flt : Bool) (s : State) : Out :=
  s.semDeliver k flt (fun o => decide (o = 4)) (fun s cl p => s.semArm cl p)
/-- CANCEL_WAIT (R304, R309). -/
def execCancelWait (k : Nat) (flt : Bool) (s : State) : Out :=
  s.semDeliver k flt (fun o => decide (o = 5)) (fun s cl p => s.semCancel cl p)

/-- CREDIT_RETURN (R280, R281): a CRD packet reaches a core's queue unit; CRED of the entry it names rises, at most to 4,095. -/
def execCreditReturn (k : Nat) (flt : Bool) (s : State) : Out :=
  s.deliver k flt (fun p => decide (p.kind = .crd)) (fun s p =>
    if p.dst.toNat < 1024 then
      let e := bitsOf p.op6.toNat 4 0
      .next (s.modCore p.core (fun c =>
        let v := c.que.entry e
        { c with que := c.que.setEntry e (setBits v 0 12 (min 4095 (sctCred v + p.op7.toNat))) }))
    else .next (s.discardPkt p))

/-- WATCH_ENTRY_WRITE (R311): the management subsystem writes word `j` of entry `w`. -/
def execWatchEntryWrite (cl : ClusterId) (w : BitVec 6) (j : BitVec 2) (v : DWord) (s : State) : Out :=
  if s.cluOn cl.toNat then .next (s.writeWatch cl.toNat w.toNat j.toNat v.toNat) else .next s

/-- TBINV (Table 13.8): a write of SUCTL with TBINV = 1 drops the translation buffer; VM is left as it is. -/
def execTbinv (cl : ClusterId) (v : Word) (s : State) : Out :=
  if s.cluOn cl.toNat ∧ v.getLsbD 0 then .next (s.tbInv cl.toNat) else .next s

/-- MANAGEMENT_REQUEST (R93): the management subsystem sets INTP.MGMT of a core. -/
def execManagementRequest (c : CoreId) (s : State) : Out :=
  if s.coreOn c.toNat then .next (s.modCore c (fun k => { k with cpu := { k.cpu with intp := k.cpu.intp ||| 1 } })) else .next s

end Sys2Proof.Machine
end

