-- ==== Sys2Proof/Machine/Answers.lean ====
section
/-! DEFINITION. Answers that reach a core, a DMA engine, a synchronisation unit or a Newt engine: RDR, WACK, ERR and SACK (Table 11.4), and the faults of a core's answers (R89, R102, R307). -/

namespace Sys2Proof.Machine

/-- Sub-cause of a core's bus error for an error status (Table 11.5). -/
def subOf (st : Nat) : Nat :=
  match st with | 1 => 3 | 2 => 2 | 5 => 5 | _ => 4

/-- What follows any answer to a core: a chosen event or a waiting STOP takes effect, and a response hold whose condition is met ends. -/
def State.afterAnswer (s : State) (c : CoreId) : State := (s.settle c).endOver c

/-- A core's response-time fault (R89, R90). -/
def State.respFault (s : State) (c : CoreId) (f : RespFault) : State := s.modCore c (fun k => k.respFault f)

/-- The response-time bus error of a load. -/
def LoadWait.fault (w : LoadWait) (sub : Nat) : RespFault :=
  { vec := 3, sub := BitVec.ofNat 8 sub, info := w.sd.setWidth 32, faddr := w.addr, fpc := w.pc }

/-- A save write of the entry `e` fails (R102): an escalation condition, or the end of the escalation handler, that R90 takes at the core's next boundary (R108, R109). -/
def Core.saveError (k : Core) (tid e : BitVec 12) : Core :=
  match k.run.saving.find? (fun v => decide (v.tid = e)) with
  | none => k.savedOne tid e
  | some v => let k := k.savedOne tid e; { k with run := { k.run with due := some (k.run.due.getD (.save v)) } }

/-- The outstanding operations of a core without one. -/
def State.dropOut (s : State) (c : CoreId) (tid : BitVec 12) : State :=
  s.modCore c (fun k => { k with lsu := { k.lsu with outs := k.lsu.outs.filter (fun o => decide (o.1 ≠ tid)) } })

/-- An ERR for a MSG or CMB row that a core sent: counted, logged, Croak (R284). -/
def State.sendError (s : State) (p : Packet) : State :=
  (s.count 0x4040 5).logEv 0x0701 true (lf p.dst.toNat ++ lf p.src.toNat ++ lf p.status.toNat)

/-- An answer to a fill (R129, R134): the line, or an error that each waiting load, or the software prefetch, reports. -/
def State.fillAnswer (s : State) (c : CoreId) (f : Fill) (p : Packet) (ok : Bool) (st : Nat) : State :=
  if ok then s.fillDone c f (p.data.setWidth 512)
  else
    let s := s.modCore c (fun k => { k with lsu := { k.lsu with fills := k.lsu.fills.filter (fun g => decide (g.tid ≠ f.tid)) } })
    (f.waiters ++ f.soft.toList).foldl (fun s w => s.respFault c (w.fault (subOf st))) s

/-- RDR, WACK or ERR for a core's load and store side or its queue unit; `ok` is false for an error of status `st`. -/
def State.coreAnswer (s : State) (c : CoreId) (p : Packet) (ok : Bool) (st : Nat) : State :=
  let l := (s.core c).lsu
  let s := match l.fills.find? (fun f => decide (f.tid = p.tid) && decide (p.dport = 0)) with
    | some f => s.fillAnswer c f p ok st
    | none =>
      match l.outs.find? (fun (o : BitVec 12 × OutOp) => decide (o.1 = p.tid)) with
      | none => s
      | some (_, .load w) =>
        let s := s.dropOut c p.tid
        if ok then s.setReg c w.reg (extend w (leNat p.payload)) else s.respFault c (w.fault (subOf st))
      | some (_, .store pc sd addr) =>
        let s := s.dropOut c p.tid
        if ok then s else s.respFault c { vec := 3, sub := BitVec.ofNat 8 (subOf st), info := sd.setWidth 32, faddr := addr, fpc := pc }
      | some (_, .save e) => s.modCore c (fun k => if ok then k.savedOne p.tid e else k.saveError p.tid e)
      | some (_, .row idx addr) =>
        let s := s.dropOut c p.tid
        if ok then s.rowAnswer c idx addr (.inl (p.data, if p.sb then some (bitsOf p.side.toNat 255 240) else none))
        else s.rowAnswer c idx addr (.inr (subOf st))
      | some (_, .msg _) =>
        let s := s.dropOut c p.tid
        if ok then s else s.sendError p
  s.afterAnswer c

/-! ## SACK, and the ERR that answers a SEM -/

/-- An error on an add of a unit of Table 13.5: logged, Croak; one that no unit counted is counted here (R310). [DEDUCED, log entry 22: unsafe] -/
def State.addError (s : State) (p : Packet) (unit : Bool) : State :=
  let s := if unit then s else s.count 0x4050 1
  s.logEv 0x0801 true (lf p.dst.toNat ++ lf p.addr.toNat ++ lf p.status.toNat)

/-- The fault of a semaphore command by its answer (R307): vector, sub-cause and INFO. [DEDUCED, log entry 62: unsafe] -/
def semTrip (sack : Bool) (st : Nat) (snw : Word) : Nat × Nat × Word :=
  if !sack then (3, subOf st, 0)
  else match st with
    | 1 => (6, 0, snw) | 2 => (6, 1, snw) | _ => (3, 3, 0)

/-- The command that holds issue for a SACK gets it (R307, R309). -/
def State.heldSack (s : State) (c : CoreId) (pc : PAddr) (snw : Word) (faddr : FAddr) (sack : Bool) (st : Nat) : State :=
  if sack ∧ st = 0 then s.complete c pc 2
  else if sack ∧ st = 3 then
    (s.modCore c (fun k => { k with run := { k.run with hold := .none, held := 0 } })).endHold c
  else
    let (vec, sub, info) := semTrip sack st snw
    (s.endHold c).raise c pc { vec, sub, info := info.toNat, faddr }

/-- A semaphore answer for a core: matched by its TID, and discarded where none matches (R309). The answer to a cancel ends a hold only with status 3. -/
def State.coreSack (s : State) (c : CoreId) (p : Packet) (sack : Bool) : State :=
  let k := s.core c
  match k.lsu.sems.find? (fun e => decide (e.1 = p.tid)) with
  | none => s
  | some (_, held, snw, faddr, pc) =>
    let st := p.status.toNat
    let s := s.modCore c (fun k => { k with lsu := { k.lsu with sems := k.lsu.sems.filter (fun e => decide (e.1 ≠ p.tid)) } })
    let s := if held then s.heldSack c pc snw faddr sack st
      else if sack ∧ st = 0 then s
      else
        let (vec, sub, info) := semTrip sack st snw
        s.respFault c { vec := BitVec.ofNat 8 vec, sub := BitVec.ofNat 8 sub, info, faddr, fpc := pc }
    s.afterAnswer c

/-- SAVE_WRITE_ACK (R101, R102): a WACK for a save write of an entry; the last completes the entry. -/
def execSaveWriteAck (k : Nat) (s : State) : Out :=
  s.deliver k false (fun p => decide (p.kind = .wack) && decide (p.dst.toNat < 1024) && decide (p.dport = 0)
      && (s.core p.core).lsu.outs.any (fun o => decide (o.1 = p.tid) && (match o.2 with | .save _ => true | _ => false)))
    (fun s p => .next (s.coreAnswer p.core p true 0))

/-- GECKO_FETCH (R333): the response to a program fetch of a DMA channel. -/
def execGeckoFetch (k : Nat) (flt : Bool) (s : State) : Out :=
  s.deliver k flt (fun p => decide (p.kind = .rdr) && decide (p.dst.toNat < 1024) && decide (p.dport = 2)
      && (s.chan p.unit (chanOf p)).outs.any (fun o => decide (o.1 = p.tid) && (match o.2 with | .fetch _ => true | _ => false)))
    (fun s p =>
      if p.psn then .next (s.chanErr p.unit (chanOf p) p 3) else .next (s.chanData p.unit (chanOf p) p))

end Sys2Proof.Machine
end

