-- ==== Sys2Proof/Machine/Beat.lean ====
section
/-! DEFINITION. The beat unit up to the application of a boundary (chapter 15): generation, markers, pins, lock, HOLD, stall requests and the freeze; run control (R379); IDENT flits (R404). -/

namespace Sys2Proof.Machine

/-! ## Control flits (R400, R401, R403) -/

/-- A port is open to control flits (R403). -/
def Port.open_ (t : Port) : Bool := decide (t.st = .ident) || decide (t.st = .active) || decide (t.st = .drain)

/-- A control flit leaves on every open port but one, twice (R401). -/
def State.sendAll (s : State) (but : Option Nat) (f : CtlFlit) : State :=
  let ps := (List.range 18).filter (fun n => (s.port n).open_ && decide (some n ≠ but))
  { s with beat := { s.beat with sent := (ps.flatMap (fun n => [(n, { f with copy := 1 }), (n, { f with copy := 0 })])) ++ s.beat.sent } }

/-- A control flit is dropped and counted where its CRC fails or its TYPE is not the one named (R400); a port that is closed to control flits carries none. -/
def State.ctlFlit (s : State) (p : Nat) (f : CtlFlit) (type : Byte) (go : State → State) : Out :=
  if (s.port p).open_ = false then .next s
  else if f.crc = false ∨ f.type = 0 ∨ 4 ≤ f.type.toNat then .next (s.count (0x5100 + p) 0x0A)
  else if f.type = type then .next (go s)
  else .next s

/-! ## Roles and stretch (R353, R366) -/

/-- This device is the beat master (Table 15.1). -/
def Beat.master (b : Beat) : Bool := decide (b.role.toNat ≤ 1)

/-- STRMAX in force (Table 15.8). [DESIGN CHOICE, log entry 72: unsafe] -/
def Beat.strCap (b : Beat) : Nat := min b.strmax.toNat b.period.toNat

/-- A stretch request reaches the master: it counts for the next boundary until HCUT before the boundary would be generated without a stretch, and for the one after it from then on (R366, R369). -/
def Beat.gatherReq (b : Beat) (cc : Nat) : Beat :=
  if b.devt.toNat + 16 * b.hcut.toNat ≤ b.lastGen + b.period.toNat then { b with gather := max b.gather cc }
  else { b with gatherN := max b.gatherN cc }

/-- The number that the next generated boundary carries: BT_RSB at the first boundary or a pending RESYNC, else BCNT plus 1, after the boundaries that still wait (R353, R356). [DEDUCED, log entry 120: unsafe] -/
def Beat.nextNumber (b : Beat) : DWord :=
  (if b.first || b.resync then b.rsb else b.bcnt + 1) + BitVec.ofNat 64 (b.toApply.countP (fun d => !d.early))

/-- A master's boundary at `g` with stretch `str`: marker, gathering for the next one, application after COMP (R353, R366). -/
def State.generated (s : State) (g str : Nat) : State :=
  let b := s.beat
  let f : CtlFlit := { type := 1, orig := s.own.setWidth 16, val := BitVec.ofNat 16 str, beat := b.nextNumber }
  let s := s.sendAll none f
  let newEp := decide (str ≠ 0) && !b.strEp
  let s := { s with beat := { s.beat with lastGen := g, gather := b.gatherN, gatherN := 0, strEp := decide (str ≠ 0), skipAt := none,
                                          toApply := b.toApply ++ [{ time := g + b.comp.toNat, beat := none, str }] } }
  let s := if str = 0 then s else (s.count 0x1003 6).countN 0x1003 7 str
  if newEp then s.logEv 0x0F04 false (lf b.nextNumber.toNat ++ lf str) else s

/-- BOUNDARY_GENERATE (R353, R366): an internal master generates its next boundary PERIOD plus the stretch after the last one; it is LOCKED from its first. -/
def execBoundaryGenerate (s : State) : Out :=
  let b := s.beat
  let str := min b.gather b.strCap
  let g := b.lastGen + b.period.toNat + str
  if b.role = 0 ∧ b.en ∧ g ≤ b.devt.toNat then
    .next ({ s with beat := { b with lock := .locked } }.generated g str)
  else .next s

/-! ## Lock (R355, R356, Table 15.2) -/

/-- Lock state changes to FLYWHEEL and LOST are logged with BCNT and raise Croak. -/
def State.lockEvent (s : State) (code : Nat) : State := s.logEv 0x0F01 true (lf code ++ lf s.beat.bcnt.toNat)

/-- Entry to beat HOLD (R367, R451): no boundary is delivered to BEATL any more. -/
def State.beatHold (s : State) : State :=
  let s := { s with beat := { s.beat with bhold := true, beatl := [] }, dev := { s.dev with holds := s.dev.holds ||| 4 } }
  let s := s.logEv 0x0F05 true (lf s.beat.bcnt.toNat ++ lf s.beat.lag.toNat)
  if s.dev.st = .run then s.toState .hold 4 else s

/-- The lock becomes LOST (Table 15.2). -/
def State.loseLock (s : State) : State :=
  let s := { s with beat := { s.beat with lock := .lost } }
  (s.lockEvent 3).beatHold

/-- |a - b| ≤ 64. -/
def within64 (a b : Nat) : Bool := decide (a ≤ b + 64) && decide (b ≤ a + 64)

/-- Whether a received boundary at `t` is on time against one due at `d`: within 64 cc, or for a marker later by no more than its stretch (R355). -/
def onTime (t d str : Nat) : Bool := decide (d ≤ t + 64) && decide (t ≤ d + 64 + str)

/-- The beat that the lock takes for the one in progress: BCNT, or with EN = 0 the one that it would be had every boundary been applied (R368). [DEDUCED, log entry 164: unsafe] -/
def Beat.lockBeat (b : Beat) : DWord := if b.en then b.bcnt else b.heldB

/-- A boundary is received, and waits for the cycle in which Table 15.1 would apply it, which is its time for the lock as well (R355). -/
def State.received (s : State) (d : Due) : State := { s with beat := { s.beat with toApply := s.beat.toApply ++ [d] } }

/-- What the lock makes of a boundary at its time (R355, Table 15.2): the state after it, and whether the boundary is applied. -/
def State.judge (s : State) (d : Due) : State × Bool :=
  let b := s.beat
  if d.early then ({ s with beat := { b with onTime := if b.lock = .nolock then 0 else b.onTime } }, false)
  else match b.lock with
  | .nolock =>
    match b.refTime with
    | none => ({ s with beat := { b with refTime := some d.time, onTime := 0 } }, false)
    | some r =>
      let n := if onTime d.time (r + b.period.toNat) d.str then b.onTime + 1 else 0
      if 4 ≤ n then ({ s with beat := { b with lock := .locked, refTime := none, onTime := 0, first := true, fly := 0 } }, true)
      else ({ s with beat := { b with refTime := some d.time, onTime := n } }, false)
  | .locked => (s, true)
  | .flywheel =>
    let next := b.lastApp + b.period.toNat
    let (relock, apply) := match d.beat with
      | some n => (decide (n = b.lockBeat + 1) || decide (n.toNat ≤ b.lockBeat.toNat), decide (n = b.lockBeat + 1))
      | none => (within64 d.time next || within64 d.time b.lastApp, within64 d.time next)
    if relock then
      if apply then ({ s with beat := { b with lock := .locked, fly := 0 } }, true)
      else ({ s with beat := { b with lock := .locked, fly := 0, lastApp := d.time } }, false)
    else (s.loseLock, false)
  | .lost => (s, false)

/-- BEAT_IN_EDGE (R353, R355, R525): an edge closer than 900 cc to the previous one is ignored and counted, and where BEAT_IN is the source that the lock is to find, it is judged as not on time in its turn; a pin follower receives a boundary; an external master generates one, a gathered request skipping one whole pulse. [DESIGN CHOICE, log entry 175: safe] -/
def execBeatInEdge (s : State) : Out :=
  let b := s.beat
  let now := b.devt.toNat
  let close := match b.lastEdge with | some e => decide (now < e + 900) | none => false
  if close then
    let s := if (b.role = 1 ∨ b.role = 2) ∧ b.lock = .nolock then s.received { time := now + b.comp.toNat, beat := none, str := 0, early := true } else s
    .next (s.count 0x1003 9)
  else
    let s := { s with beat := { b with lastEdge := some now } }
    let b := s.beat
    let t := now + b.comp.toNat
    if b.role = 2 then .next (s.received { time := t, beat := none, str := 0 })
    else if b.role = 1 then
      match b.lock with
      | .locked =>
        if now + 64 < b.lastGen + b.period.toNat then .next s
        else match b.skipAt with
          | none =>
            if b.gather ≠ 0 then .next { s with beat := { b with skipAt := some now } }
            else if b.en then .next (s.generated now 0)
            else .next { s with beat := { b with lastGen := now, toApply := b.toApply ++ [{ time := t, beat := none, str := 0 }] } }
          | some e =>
            if b.en then .next (s.generated now (now - e))
            else .next { s with beat := { b with lastGen := now, skipAt := none, gather := b.gatherN, gatherN := 0, toApply := b.toApply ++ [{ time := t, beat := none, str := now - e }] } }
      | _ => .next ({ s with beat := { b with lastGen := now } }.received { time := t, beat := none, str := 0 })
    else .next s

/-- BEAT_MARKER (R353, R401): a link follower forwards each beat number once on every other open port, and takes the first good marker of it on PORT as a received boundary. -/
def execBeatMarker (p : PortId) (f : CtlFlit) (s : State) : Out :=
  s.ctlFlit p f 1 (fun s =>
    if s.beat.role ≠ 3 then s
    else
      let s := if s.beat.markers.contains f.beat then s
        else ({ s with beat := { s.beat with markers := f.beat :: s.beat.markers } }.sendAll (some p) f)
      if s.beat.port.toNat = p.val ∧ s.beat.taken.contains f.beat = false then
        { s with beat := { s.beat with taken := f.beat :: s.beat.taken } }.received { time := s.beat.devt.toNat + s.beat.comp.toNat, beat := some f.beat, str := f.val.toNat }
      else s)

/-- HOLD_FLIT (R365, R366): each origin, beat and value is relayed once on every other open port, and gathered once by the master. -/
def execHoldFlit (p : PortId) (f : CtlFlit) (s : State) : Out :=
  s.ctlFlit p f 2 (fun s =>
    let key := (f.orig &&& 0x3FF, f.beat, f.val)
    if s.beat.relayed.contains key then s
    else
      let s := { s with beat := { s.beat with relayed := key :: s.beat.relayed } }.sendAll (some p) f
      if s.beat.master then { s with beat := s.beat.gatherReq (64 * f.val.toNat) } else s)

/-! ## HOLD requests (R364) -/

/-- The slack of the variant of the beat in progress (R363). -/
def State.slackNow (s : State) : Nat := bitsOf s.beat.slack.toNat (16 * (s.loader.var % 4) + 15) (16 * (s.loader.var % 4))

/-- Sends a HOLD request where E is positive and larger than every request sent for the beat (R364); none in beat HOLD or FAULT (R367, R452). -/
def State.holdRequest (s : State) : State :=
  let b := s.beat
  let up := b.lag.toNat + b.stallb.toNat
  let sl := s.slackNow
  if up ≤ sl ∨ b.bhold ∨ s.dev.st = .fault then s
  else
    let v := min 0xFFFF ((up - sl + 63) / 64)
    if v ≤ b.holdMax then s
    else
      let s := { s with beat := { b with holdMax := v } }
      if b.master then { s with beat := s.beat.gatherReq (64 * v) }
      else (s.sendAll none { type := 2, orig := s.own.setWidth 16, val := BitVec.ofNat 16 v, beat := b.bcnt }).count 0x1003 5

/-! ## Stall requests and the freeze (R358-R362) -/

/-- RESPONSE_HOLD_REQUEST (R358): a core whose issue has been held on a load result, mld or mst rows or a fence for more than GRACE region cycles raises a request. -/
def execResponseHoldRequest (c : CoreId) (s : State) : Out :=
  let k := s.core c
  let r := k.run
  let held : Bool := match r.wait with
    | .load _ => !s.holdOver c | .fence _ => !s.holdOver c | .rows => true
    | _ => match r.hold with | .rows _ => true | _ => false
  if s.coreOn c.toNat ∧ r.st = .running ∧ held ∧ r.stall = false ∧ s.beat.grace.toNat < r.held ∧ s.beat.frz = false then
    let s := s.setCore c { k with run := { r with stall := true } }
    .next (s.inject (ctlPkt s (BitVec.ofNat 11 c.toNat) (BitVec.ofNat 32 (2 ^ 28 + 2 ^ 16 + c.toNat)) 0))
  else .next s

/-- The source that stall signalling names. -/
def stallSrc (p : Packet) : StallSrc :=
  let c := BitVec.ofNat 10 p.op6.toNat
  if p.op6.getLsbD 16 then .hold c else .wait c

/-- A stall packet of a verb: 1 raise, 2 withdraw. -/
def isStall (verb : Nat) (p : Packet) : Bool :=
  decide (p.kind = .ctl) && decide (p.dst = mgmtNode) && decide (bitsOf p.op6.toNat 31 28 = verb)

/-- STALL_REQUEST (R360): a request reaches the beat unit; the first one names a freeze 64 cc later, or cancels a named resume. -/
def execStallRequest (k : Nat) (flt : Bool) (s : State) : Out :=
  s.deliver k flt (isStall 1) (fun s p =>
    let b := s.beat
    let b' := { b with reqs := b.reqs ++ [stallSrc p] }
    .next { s with beat := if b.reqs.isEmpty then b'.someRequest else b' })

/-- STALL_WITHDRAW (R360, R362): a withdrawal ends the mask of a timed-out request, or lowers the count; the last one names the resume. -/
def execStallWithdraw (k : Nat) (flt : Bool) (s : State) : Out :=
  s.deliver k flt (isStall 2) (fun s p =>
    let b := s.beat
    let x := stallSrc p
    if b.masked.contains x then .next { s with beat := { b with masked := b.masked.erase x } }
    else
      let b' := { b with reqs := b.reqs.erase x }
      .next { s with beat := if !b.reqs.isEmpty && b'.reqs.isEmpty then b'.noRequests else b' })

/-- BEATL of every core of an enabled region takes a value, and INTP.BEAT sets (R350). -/
def State.putBeatl (s : State) (v : Word) : State :=
  forN 1024 (fun s c => if s.coreOn c then
      s.modCore (BitVec.ofNat 10 c) (fun k => { k with cpu := { k.cpu with beatl := v, intp := k.cpu.intp ||| 2 } })
    else s) s

/-- The BEATL updates due by time `t` are made, oldest first. -/
def State.beatlDue (s : State) (t : Nat) : State :=
  let due := s.beat.beatl.filter (fun u => decide (u.1 ≤ t))
  let s := { s with beat := { s.beat with beatl := s.beat.beatl.filter (fun u => decide (t < u.1)) } }
  match due.getLast? with
  | some u => s.putBeatl u.2
  | none => s

/-- BEATL_UPDATE (R350): 64 cc after an applied boundary, unless the regions are frozen, when it waits for the resume. -/
def execBeatlUpdate (s : State) : Out :=
  if s.beat.frz then .next s else .next (s.beatlDue s.beat.devt.toNat)

/-- FREEZE_BEGIN (R360, R369): in the named cycle, after the BEATL updates due by then, every enabled region freezes. -/
def execFreezeBegin (s : State) : Out :=
  match s.beat.freezeAt with
  | some f =>
    if f ≤ s.beat.devt.toNat ∧ s.beat.frz = false then
      let s := s.beatlDue f
      .next ({ s with beat := { s.beat with frz := true, freezeAt := none, frzLen := 0, holdCyc := 0 } }.count 0x1003 3)
    else .next s
  | none => .next s

/-- All regions resume (R350, R360, R364, R379): deferred BEATL updates, waiting STOPs and held faults, and the HOLD request of a resume. -/
def State.resume (s : State) : State :=
  let s := { s with beat := { s.beat with frz := false, resumeAt := none, frzLen := 0 } }
  let s := s.beatlDue s.beat.devt.toNat
  let s := s.cores.foldl (fun s kv =>
    let c := BitVec.ofNat 10 kv.1
    s.afterAnswer c) s
  s.holdRequest

/-- FREEZE_RESUME (R360). -/
def execFreezeResume (s : State) : Out :=
  match s.beat.resumeAt with
  | some t => if s.beat.frz ∧ t ≤ s.beat.devt.toNat then .next s.resume else .next s
  | none => .next s

/-- Bytes that name a source of a stall request in the log. -/
def StallSrc.field : StallSrc → List Byte
  | .wait c => lf 0 ++ lf c.toNat
  | .hold c => lf 1 ++ lf c.toNat

/-- STOUT as a number of cycles; 0 is taken as 2^32 (Table 15.4). -/
def Beat.stoutCc (b : Beat) : Nat := if b.stout = 0 then 2 ^ 32 else b.stout.toNat

/-- FREEZE_TIMEOUT (R362, R369): a freeze that has lasted STOUT ends; the requests in force are masked until withdrawn. A named resume wins. -/
def execFreezeTimeout (s : State) : Out :=
  let b := s.beat
  if b.frz ∧ b.stoutCc ≤ b.frzLen ∧ b.resumeAt = none then
    let s := { s with beat := { b with masked := b.masked ++ b.reqs, reqs := [], tout := true } }
    let s := s.logEv 0x0F03 true (b.reqs.flatMap StallSrc.field)
    .next (s.resume.count 0x1003 4)
  else .next s

/-- HOLD_REPEAT (R364): after each further 512 cc of freeze. -/
def execHoldRepeat (s : State) : Out :=
  if s.beat.frz ∧ 512 ≤ s.beat.holdCyc then
    .next { s with beat := { s.beat with holdCyc := s.beat.holdCyc - 512 } }.holdRequest
  else .next s

/-! ## Register writes (R356, R357, R358, R368) -/

/-- The lock returns to NOLOCK (Table 15.2). -/
def Beat.unlock (b : Beat) : Beat := { b with lock := .nolock, refTime := none, onTime := 0, fly := 0, toApply := [], first := true, skipAt := none }

/-- BT_RESYNC (R356): at the next boundary applied in LOCKED, BCNT takes BT_RSB; a lost lock starts over. -/
def State.resyncWrite (s : State) : State :=
  let b := { s.beat with resync := true }
  { s with beat := if b.lock = .lost then b.unlock else b }

/-- BT_RESYNC (R356). -/
def execBtResync (s : State) : Out := .next s.resyncWrite

/-- A write of ROLE, PORT, PERIOD and COMP (R357); `ctl` says that BT_CTL is written; `none` is a refusal. The lock starts over where ROLE changes, and at any write of ROLE in LOST (Table 15.2). [DEDUCED, log entry 67: unsafe] -/
def State.roleWrite (s : State) (ctl : Bool) (role : BitVec 2) (port : BitVec 5) (period : BitVec 15) (comp : BitVec 12) : Option State :=
  let b := s.beat
  let same := decide (role = b.role) && decide (port = b.port) && decide (period = b.period)
  if s.dev.st = .run ∧ same = false then none
  else if 18 ≤ port.toNat ∨ period.toNat < 1125 ∨ 18000 < period.toNat then none
  else
    let b' := { b with role, port, period, comp }
    some { s with beat := if role ≠ b.role ∨ (ctl ∧ b.lock = .lost) then b'.unlock else b' }

/-- BT_ROLE_WRITE (R357): ROLE and PORT in BT_CTL, PERIOD and COMP in BT_CFG; a refused write changes nothing. -/
def execBtRoleWrite (ctl cfg : Word) (s : State) : Out :=
  match s.roleWrite true (ctl.extractLsb' 28 2) (ctl.extractLsb' 23 5) (cfg.extractLsb' 0 15) (cfg.extractLsb' 16 12) with
  | some t => .next t
  | none => .next s

/-- BT_STEN_WRITE (R358). -/
def execBtStenWrite (sten : Bool) (s : State) : Out := .next { s with beat := s.beat.setSten sten }

/-- EN of BT_CTL (R368): a master that resumes keeps its grid of boundaries. [DEDUCED, log entry 68: unsafe] -/
def Beat.setEn (b : Beat) (v : Bool) : Beat :=
  let n := b.devt.toNat
  let g := if v && !b.en && decide (b.role = 0) && decide (b.lastGen ≤ n) then n - (n - b.lastGen) % max 1 b.period.toNat else b.lastGen
  { b with en := v, lastGen := g, heldB := if b.en && !v then b.bcnt else b.heldB }

/-- BT_EN_WRITE (R368). -/
def execBtEnWrite (en : Bool) (s : State) : Out := .next { s with beat := s.beat.setEn en }

/-! ## Run control (R379) -/

/-- RC_RUN (R379). -/
def execRcRun (c : CoreId) (supst : Bool) (s : State) : Out :=
  if s.coreOn c.toNat then .next (s.modCore c (fun k => k.start supst)) else .next s

/-- RC_STOP (R379). -/
def execRcStop (c : CoreId) (s : State) : Out :=
  if s.coreOn c.toNat then .next (s.stopReq c) else .next s

/-! ## IDENT (R402, R404) -/

/-- A port fails (R403): logged with port, cause and BCNT, Croak; with EN = 0 it goes on to OFF. -/
def State.portFails (s : State) (p : Nat) (t : Port) (cause : Nat) : State :=
  (s.setPort p { t with st := if t.en then .failed else .off, cause := BitVec.ofNat 4 cause, since := s.beat.devt.toNat }).logEv 0x0E01 true
    (lf p ++ lf cause ++ lf s.beat.bcnt.toNat)

/-- IDENT_FLIT (R402-R404, R414): peer identity, a round-trip sample where it echoes a DEVT that this pass has sent under the device's ID, and ACTIVE after 64 of them with both IDs assigned and different. [DEDUCED, log entry 83: unsafe] -/
def execIdentFlit (p : PortId) (f : CtlFlit) (s : State) : Out :=
  s.ctlFlit p f 3 (fun s =>
    let t := s.port p
    if t.st ≠ .ident then s
    else
      let now := s.beat.devt.toNat
      let peer : BitVec 10 := f.orig.setWidth 10
      let again := decide (peer ≠ t.peer)
      let t := { t with peer, pport := f.val.setWidth 5, lastId := f.beat, lastAt := now }
      if peer = s.own ∧ s.own ≠ 0x3FF then s.portFails p t 6
      else
        let sample := now - f.last.toNat - f.held.toNat
        let t := if again then { t with trips := 0, maxTrip := 0 } else t
        let t := if f.last ∈ t.idSent then { t with trips := t.trips + 1, maxTrip := max t.maxTrip sample, idSent := t.idSent.takeWhile (fun x => decide (x ≠ f.last)) } else t
        if 64 ≤ t.trips ∧ peer ≠ 0x3FF ∧ s.own ≠ 0x3FF then
          let c := (t.maxTrip + 1) / 2
          let t := { t with st := .active, since := now, trips := 0, maxTrip := 0, ctlLat := BitVec.ofNat 16 c, dataLat := BitVec.ofNat 16 (c + 46) }
          s.setPort p t
        else s.setPort p t)

end Sys2Proof.Machine
end

