-- ==== Sys2Proof/Machine/Frames.lean ====
section
/-! DEFINITION. Link frames as a port sends them (R396, R398-R401): slots, trailer and frame check, the start of packets as credits allow, IDENT flits, and replays. -/

namespace Sys2Proof

open Sys2Proof.Machine

/-! ## The wire (R254, R396, Tables 11.3, 17.3, 17.4) -/

/-- Code of a packet kind (Table 11.4). -/
def kindCode (k : PKind) : Nat :=
  match k with
  | .rd => 0 | .wr => 1 | .rdr => 2 | .wack => 3 | .err => 4 | .msg => 5 | .cmb => 6 | .sem => 7 | .sack => 8 | .crd => 9 | .ctl => 10
  | .res c => c.toNat

/-- The 64 bytes of a packet's header flit (Table 11.3). -/
def headerBytes (p : Packet) : List Byte :=
  leBytes 4 (kindCode p.kind * 2 ^ 28 + p.vc * 2 ^ 26 + bnat p.ord * 2 ^ 25 + bnat (decide (p.kind = .cmb) && p.red) * 2 ^ 24 + bnat p.sb * 2 ^ 23
      + bnat p.psn * 2 ^ 22 + p.rfmt.toNat * 2 ^ 20 + p.flits * 2 ^ 16 + p.size.toNat * 2 ^ 12 + p.tid.toNat)
    ++ leBytes 4 (p.dst.toNat * 2 ^ 21 + p.dport.toNat * 2 ^ 18 + p.ddev.toNat * 2 ^ 8)
    ++ leBytes 4 (p.src.toNat * 2 ^ 21 + p.sport.toNat * 2 ^ 18 + p.sdev.toNat * 2 ^ 8)
    ++ leBytes 8 p.addr.toNat ++ leBytes 4 (p.cnt.toNat * 2 ^ 16 + p.status.toNat * 2 ^ 12) ++ leBytes 4 p.op6.toNat ++ leBytes 4 p.op7.toNat
    ++ bytesOf p.side 32

/-- The 64 bytes of a control flit, with its CRC-32C (Table 17.4). -/
def ctlBytes (f : CtlFlit) : List Byte :=
  let bs := [f.type, f.copy] ++ leBytes 2 f.orig.toNat ++ leBytes 2 f.val.toNat ++ leBytes 2 0 ++ leBytes 8 f.beat.toNat ++ leBytes 8 f.last.toNat
    ++ leBytes 4 f.held.toNat ++ List.replicate 32 0
  bs ++ leBytes 4 (crcBytes 0xFFFFFFFF bs ^^^ 0xFFFFFFFF).toNat

/-- The 64 bytes of a slot. -/
def Slot.bytes : Slot → List Byte
  | .idle => List.replicate 64 0
  | .control f => ctlBytes f
  | .hdr p => headerBytes p
  | .dat d => bytesOf d 64

/-- A slot as a replay sends it: a control flit's is idle (R398). -/
def Slot.again : Slot → Slot
  | .control _ => .idle
  | x => x

/-- Whether a slot carries packet data. -/
def Slot.data : Slot → Bool
  | .hdr _ => true
  | .dat _ => true
  | _ => false

/-- A slot holds an IDENT flit. -/
def Slot.ident : Slot → Bool
  | .control f => decide (f.type = 3)
  | _ => false

/-- The slot's code in SLOTS. -/
def Slot.code : Slot → Nat
  | .idle => 0 | .control _ => 2 | .hdr _ => 1 | .dat _ => 1

/-- One byte more of a CRC-32 of the IEEE 802.3 polynomial, bits reflected. -/
def crc32Byte (r : Word) (b : Byte) : Word :=
  (List.range 8).foldl (fun r _ => if r.getLsbD 0 then (r >>> 1) ^^^ 0xEDB88320 else r >>> 1) (r ^^^ b.setWidth 32)

/-- The 32 slots of a frame. -/
def Frame.body (f : Frame) : List Slot := (f.slots ++ List.replicate 32 Slot.idle).take 32

/-- The 2,112 bytes of a frame: slots 0-31, and the trailer of Table 17.3 with FCRC. -/
def Frame.wire (f : Frame) : List Byte :=
  let map := (f.body.zipIdx.map (fun x => x.1.code * 4 ^ x.2)).sum
  let bs := f.body.flatMap Slot.bytes
    ++ leBytes 4 (f.seq.toNat * 2 ^ 20 + f.ack.toNat * 2 ^ 8 + bnat f.nak * 2 ^ 7 + bnat f.rpl * 2 ^ 6) ++ leBytes 8 map
    ++ leBytes 2 f.cr0.toNat ++ leBytes 2 f.cr1.toNat ++ leBytes 2 f.cr2.toNat ++ List.replicate 42 0
  bs ++ leBytes 4 (bs.foldl crc32Byte 0xFFFFFFFF ^^^ 0xFFFFFFFF).toNat

end Sys2Proof

namespace Sys2Proof.Machine

/-! ## What a port sends (R396, R398, R399) -/

/-- Flits of virtual channel `v` that a port may still send (R399). -/
def Port.credit (t : Port) (v : Nat) : Nat :=
  match v with
  | 0 => 64 - (t.tx0 - t.fr0).toNat
  | 1 => 512 - (t.tx1 - t.fr1).toNat
  | _ => 2048 - (t.tx2 - t.fr2).toNat

/-- Takes the first packet of virtual channel `v` out of a queue. -/
def takeVc (v : Nat) : List Packet → Option (Packet × List Packet)
  | [] => none
  | p :: ps =>
    if p.vc = v then some (p, ps)
    else match takeVc v ps with
      | some (q, qs) => some (q, p :: qs)
      | none => none

/-- The packet a port starts next: VC0, then VC2, then VC1, as credits allow (R399). -/
def Port.pick (t : Port) : Option (Packet × List Packet) :=
  let try_ (v : Nat) : Option (Packet × List Packet) :=
    match takeVc v t.queue with
    | some (p, q) => if p.flits + 1 ≤ t.credit v then some (p, q) else none
    | none => none
  match try_ 0 with
  | some r => some r
  | none => match try_ 2 with
    | some r => some r
    | none => try_ 1

/-- The next flit of packet data (R396): of the packet that is being sent, else the header of the one that starts next; idle where none may. With it, the packets whose last flit it is, and the port after it. -/
def Port.dataSlot (t : Port) : Slot × List Packet × Port :=
  match t.cur with
  | x :: more => (x, if more.isEmpty then t.curP.toList else [], { t with cur := more, curP := if more.isEmpty then none else t.curP })
  | [] =>
    match t.pick with
    | none => (.idle, [], t)
    | some (p, q) =>
      let k := BitVec.ofNat 16 (p.flits + 1)
      let more := p.slots.drop 1
      (p.slots.headD .idle, if more.isEmpty then [p] else [],
        { t with queue := q, cur := more, curP := if more.isEmpty then none else some p,
                 tx0 := if p.vc = 0 then t.tx0 + k else t.tx0,
                 tx1 := if p.vc = 1 then t.tx1 + k else t.tx1,
                 tx2 := if p.vc = 2 then t.tx2 + k else t.tx2 })

/-- The trailer that a port puts on a frame now. -/
def Port.frame (t : Port) (seq : BitVec 12) (rpl : Bool) (slots : List Slot) : Frame :=
  { seq, ack := t.rxSeq, nak := t.nak, rpl, cr0 := t.cr0, cr1 := t.cr1, cr2 := t.cr2, slots }

/-- The IDENT flit of a port: own ID, port, board position and stepping, DEVT, and the peer's last DEVT with the time since it came (Table 17.4). -/
def State.identFlit (s : State) (n : Nat) (t : Port) : CtlFlit :=
  { type := 3, orig := s.own.setWidth 16, val := BitVec.ofNat 16 (n + s.links.board.toNat * 32 + (if s.dev.b0 then 0x10 else 0) * 256),
    beat := s.beat.devt, last := t.lastId, held := if t.lastId = 0 then 0 else BitVec.ofNat 32 (s.beat.devt.toNat - t.lastAt) }

/-- The control flit for the next slot of port `n` (R401, R404): the oldest that waits, else, in IDENT, one IDENT flit a frame; and what remains. -/
def State.takeCtl (s : State) (n : Nat) (t : Port) (l : LineFrame) : Option (CtlFlit × List (Nat × CtlFlit) × Port) :=
  if t.open_ = false then none
  else match s.beat.sent.reverse.find? (fun x => decide (x.1 = n)) with
    | some x => some (x.2, (s.beat.sent.reverse.eraseP (fun x => decide (x.1 = n))).reverse, t)
    | none =>
      if t.st = .ident ∧ l.slots.any Slot.ident = false then some (s.identFlit n t, s.beat.sent, { t with idSent := s.beat.devt :: t.idSent })
      else none

/-- The next slot of the frame in progress (R396, R401): a pending control flit, else packet data where the port carries it, else idle; a replayed frame keeps its packet data in place, so that a control flit takes its next idle slot. [DEDUCED, log entry 82: unsafe] -/
def State.slotOut (s : State) (n : Nat) (t : Port) (l : LineFrame) : State :=
  let put (t : Port) (x : Slot) (kept : Option (List Slot)) (ends : List Packet) : Port :=
    { t with line := some { l with slots := l.slots ++ [x], kept, ends := l.ends ++ ends } }
  let ctl := s.takeCtl n t l
  match l.kept with
  | some xs =>
    match xs.headD .idle, ctl with
    | .idle, some (f, sent, t) => { s with beat := { s.beat with sent } }.setPort n (put t (.control f) (some (xs.drop 1)) [])
    | x, _ => s.setPort n (put t x (some (xs.drop 1)) [])
  | none =>
    match ctl with
    | some (f, sent, t) => { s with beat := { s.beat with sent } }.setPort n (put t (.control f) none [])
    | none =>
      if (t.st = .active ∨ t.st = .drain) ∧ s.own ≠ 0x3FF then
        let (x, ends, t) := t.dataSlot
        s.setPort n (put t x none ends)
      else s.setPort n (put t .idle none [])

/-- A frame begins (R398): of a replay in progress the next one kept, else a new one, but none while 64 wait for an acknowledgement. -/
def Port.begin (t : Port) (now : Nat) : Port :=
  let new (t : Port) : Port := if 64 ≤ t.retry.length then t else { t with line := some { seq := t.txSeq, begun := now } }
  match t.rplPos with
  | none => new t
  | some q =>
    match t.retry.find? (fun f => decide (f.seq = q)) with
    | none => new { t with rplPos := none }
    | some f => { t with line := some { seq := q, kept := some (f.slots.map Slot.again), begun := now }, rplPos := some (q + 1), rplAt := some (t.rplAt.getD now) }

/-- A new frame is kept for replay from now on (R398). -/
def Port.keep (t : Port) (l : LineFrame) (now : Nat) : Port :=
  { t with line := none, retry := t.retry ++ [{ seq := l.seq, slots := l.slots, ends := l.ends, sent := now }], txSeq := t.txSeq + 1 }

/-- The trailer leaves, and with it the frame (R396). -/
def Port.finish (t : Port) (l : LineFrame) (now : Nat) : Port :=
  let u := if l.kept.isNone then t.keep l now else { t with line := none, retry := t.retry.map (fun g => if g.seq = l.seq then { g with sent := now } else g) }
  { u with wire := some (t.frame l.seq l.kept.isSome l.slots), nextAt := l.begun + 45 }

/-- The frame in progress breaks off (R403): a new one is kept with the slots that have left, and the rest of it idle. -/
def Port.cutLine (t : Port) (now : Nat) : Port :=
  match t.line with
  | none => t
  | some l => if l.kept.isNone then t.keep l now else { t with line := none }

/-- A port sends frames: idle ones in ALIGN, and in the states that are open to control flits (Table 17.5). -/
def Port.framed (t : Port) : Bool := decide (t.st = .align) || t.open_

/-- DEVT of slot `i` of a frame that began at `b`: 33 slots take 45 cc (Table 17.2). -/
def slotAt (b i : Nat) : Nat := b + 15 * i / 11

/-- The credits that have come back count from now on (R414). -/
def Port.credited (t : Port) : Port := { t with fr0 := t.nf0, fr1 := t.nf1, fr2 := t.nf2 }

/-- Port `n` has its cycle: the next slot or the trailer of its frame leaves when its time has come; frames follow each other unbroken (R396). -/
def State.portCycle (s : State) (n : Nat) : State :=
  let t := s.port n
  let now := s.beat.devt.toNat
  if t.framed = false then s
  else
    let t := if t.line.isNone && decide (t.nextAt ≤ now) then t.begin now else t
    let s := match t.line with
      | none => s.setPort n t
      | some l =>
        if now < slotAt l.begun l.slots.length then s.setPort n t
        else if l.slots.length < 32 then s.slotOut n t l
        else s.setPort n (t.finish l now)
    s.setPort n (s.port n).credited

/-- Every port has its cycle. -/
def State.linkCycle (s : State) : State := (List.range 18).foldl (fun s n => s.portCycle n) s

end Sys2Proof.Machine
end

