-- ==== Sys2Proof/Machine/Links.lean ====
section
/-! DEFINITION. Inter-device links (chapter 17): port states, retry, received frames and the route table. -/

namespace Sys2Proof.Machine

/-! ## Port states (R403, R405) -/

/-- A port begins training: its sequence numbers, credits and figures start over (R396, R399). -/
def Port.train (t : Port) (now : Nat) : Port :=
  { t with st := .train, since := now, trips := 0, maxTrip := 0, txSeq := 0, retry := [], queue := [], cur := [], curP := none, line := none, nextAt := now, tx0 := 0, tx1 := 0, tx2 := 0,
           fr0 := 0, fr1 := 0, fr2 := 0, nf0 := 0, nf1 := 0, nf2 := 0, lastId := 0, lastAt := 0, idSent := [], rxSeq := 0, nak := false, cr0 := 0, cr1 := 0, cr2 := 0, part := none, rplCnt := 0, rplAt := none, rplPos := none }

/-- Entry to RETRAIN (R403): the frame in progress breaks off; counted, logged with port, cause and BCNT, Croak; cause 0 leaves CAUSE as it is. -/
def State.toRetrain (s : State) (p cause : Nat) : State :=
  let t := s.port p
  let s := s.setPort p { t.cutLine s.beat.devt.toNat with st := .retrain, since := s.beat.devt.toNat, cause := if cause = 0 then t.cause else BitVec.ofNat 4 cause, rplCnt := 0 }
  (s.count (0x5100 + p) 7).logEv 0x0E01 true (lf p ++ lf cause ++ lf s.beat.bcnt.toNat)

/-- The packets that a port holds to send: in its retry buffer, its frame in progress and its queue. -/
def Port.holds (t : Port) : List Packet :=
  t.retry.flatMap (fun f => f.ends) ++ (match t.line with | some l => l.ends | none => []) ++ t.curP.toList ++ t.queue

/-- The packets that a port holds are discarded under R406. -/
def State.dropPort (s : State) (p : Nat) : State :=
  let t := s.port p
  let s := s.setPort p { t with retry := [], queue := [], cur := [], curP := none, line := none, part := none, rplPos := none }
  t.holds.foldl (fun s q => s.discard406 true p q) s

/-- A condition on the port's state and the time it has been in it; the command does nothing elsewhere. -/
def State.onPort (s : State) (p : PortId) (st : PortSt) (after : Nat) (go : State → Port → State) : Out :=
  let t := s.port p
  if t.st = st ∧ t.since + after ≤ s.beat.devt.toNat then .next (go s t) else .next s

/-- TRAIN_SUCCESS (R403). -/
def execTrainSuccess (p : PortId) (s : State) : Out :=
  s.onPort p .train 0 (fun s t => s.setPort p { t with st := .align, since := s.beat.devt.toNat })
/-- TRAIN_TIMEOUT (R403): 200 ms. -/
def execTrainTimeout (p : PortId) (s : State) : Out := s.onPort p .train 450000000 (fun s t => s.portFails p t 1)
/-- ALIGN_LOCK (R403): a pass through IDENT begins, without samples of an earlier one (R404). -/
def execAlignLock (p : PortId) (s : State) : Out :=
  s.onPort p .align 0 (fun s t => s.setPort p { t with st := .ident, since := s.beat.devt.toNat, trips := 0, maxTrip := 0, lastId := 0, lastAt := 0, idSent := [] })
/-- ALIGN_TIMEOUT (R403): 1 ms. -/
def execAlignTimeout (p : PortId) (s : State) : Out := s.onPort p .align 2250000 (fun s t => s.portFails p t 2)
/-- ALIGNMENT_LOST (R403). -/
def execAlignmentLost (p : PortId) (s : State) : Out := s.onPort p .active 0 (fun s _ => s.toRetrain p 3)

/-- Frames before sequence number `ack` leave the retry buffer (R398). -/
def Port.freed (t : Port) (ack : BitVec 12) : Port :=
  let keep := t.retry.filter (fun f => decide ((f.seq - ack).toNat < 2048))
  { t with retry := keep, rplCnt := if keep.length = t.retry.length then t.rplCnt else 0 }

/-- RETRAIN_COMPLETE (R403): ACTIVE again, resuming at the SEQ the peer expects. -/
def execRetrainComplete (p : PortId) (seq : BitVec 12) (s : State) : Out :=
  s.onPort p .retrain 0 (fun s t =>
    let now := s.beat.devt.toNat
    let t := t.freed seq
    s.setPort p { t with st := .active, since := now, rplPos := some seq, retry := t.retry.map (fun f => { f with sent := now }) })

/-- RETRAIN_TIMEOUT (R403): 20 ms; the port fails, and its packets are discarded. -/
def execRetrainTimeout (p : PortId) (s : State) : Out :=
  s.onPort p .retrain 45000000 (fun s t => (s.portFails p t 5).dropPort p)

/-- FAILED_RETRY (R403): 1 s. -/
def execFailedRetry (p : PortId) (s : State) : Out :=
  s.onPort p .failed 2250000000 (fun s t => if t.en then s.setPort p (t.train s.beat.devt.toNat) else s)

/-- A draining port has sent every packet, and every frame that carries packet data is acknowledged (R405). [DEDUCED, log entry 190: unsafe] -/
def Port.drained (t : Port) : Bool :=
  t.queue.isEmpty && t.cur.isEmpty && t.retry.all (fun f => !f.slots.any Slot.data)
    && (match t.line with | some l => l.kept.isSome || !l.slots.any Slot.data | none => true)

/-- DRAIN_COMPLETE (R405): everything sent and acknowledged. -/
def execDrainComplete (p : PortId) (s : State) : Out :=
  s.onPort p .drain 0 (fun s t =>
    if t.drained then
      let t := { t with st := .off, since := s.beat.devt.toNat }
      s.setPort p (if t.en then t.train s.beat.devt.toNat else t)
    else s)

/-- DRAIN_TIMEOUT (R405): 100 µs; the packets are discarded, cause DTMO. -/
def execDrainTimeout (p : PortId) (s : State) : Out :=
  s.onPort p .drain 225000 (fun s t =>
    if t.drained then s
    else
      let s := s.dropPort p
      let t := { s.port p with st := .off, cause := 7, since := s.beat.devt.toNat }
      s.setPort p (if t.en then t.train s.beat.devt.toNat else t))

/-- A write of LP_CTL.EN (R405, R414, Table 17.5); it stands in the place of what a start would still do with the port. [DEDUCED, log entry 81: unsafe] -/
def State.lpEn (s : State) (p : Nat) (en : Bool) : State :=
  let t := { s.port p with en }
  let now := s.beat.devt.toNat
  let s := { s with links := { s.links with starts := s.links.starts.filter (fun x => decide (x.2 ≠ p)) } }
  if en then
    match t.st with
    | .off => s.setPort p (t.train now)
    | _ => s.setPort p t
  else
    match t.st with
    | .active => s.setPort p { t with st := .drain, since := now }
    | .retrain => s.setPort p { t with st := .drain, since := now }
    | .drain => s.setPort p t
    | _ => s.setPort p { t with st := .off, since := now }

/-- A start enables the ports whose turn has come (R470). -/
def State.portStarts (s : State) : State :=
  (s.links.starts.filter (fun x => decide (x.1 ≤ s.beat.devt.toNat))).foldl (fun s x => s.lpEn x.2 true) s

/-- Ports are enabled in the order given, 10 µs apart, the first at once (R470). -/
def State.enablePorts (s : State) (ps : List Nat) : State :=
  { s with links := { s.links with starts := ps.zipIdx.map (fun (x : Nat × Nat) => (s.beat.devt.toNat + 22500 * x.2, x.1)) } }.portStarts

/-- LP_EN_WRITE (R405). -/
def execLpEnWrite (p : PortId) (en : Bool) (s : State) : Out := .next (s.lpEn p en)

/-- LP_RETR (R411). -/
def execLpRetr (p : PortId) (s : State) : Out := s.onPort p .active 0 (fun s _ => s.toRetrain p 0)

/-! ## Retry (R398) -/

/-- A replay from sequence number `seq` is due: after the frame in progress the port resends every frame from it onwards (R398); the eighth replay in a row from one SEQ sends an ACTIVE port to RETRAIN (R398, R414). -/
def State.replay (s : State) (p : Nat) (seq : BitVec 12) : State :=
  let t := s.port p
  let n := if t.rplCnt ≠ 0 ∧ t.rplSeq = seq then t.rplCnt + 1 else 1
  let now := s.beat.devt.toNat
  let s := (s.setPort p { t with rplSeq := seq, rplCnt := n, rplAt := none, rplPos := some seq, retry := t.retry.map (fun f => { f with sent := now }) }).count (0x5100 + p) 6
  if 8 ≤ n ∧ t.st = .active then s.toRetrain p 4 else s

/-- RETRY_TIMER_EXPIRY (R398): the oldest unacknowledged frame has waited 4,096 cc. -/
def execRetryTimerExpiry (p : PortId) (s : State) : Out :=
  let t := s.port p
  match t.retry with
  | [] => .next s
  | f :: _ =>
    if t.framed ∧ f.sent + 4096 ≤ s.beat.devt.toNat then .next (s.replay p f.seq) else .next s

/-! ## Received packets (R233, R255, R409) -/

/-- A packet arrives at the rim unit of port `n` (R409), which holds it in its receive buffer until it forwards it (R399): one for another device goes on under R408; a request for the control class is answered by the rim unit; while the own ID is unassigned no packet is carried (R402). -/
def State.linkPacket (s : State) (n : Nat) (p : Packet) : State :=
  let p := { p.bare with via := some n }
  match p.kind with
  | .res _ => ((s.freeRx p).count 0x4030 5).logEv 0x0A01 true p.ends
  | _ =>
    if s.own = 0x3FF then (s.freeRx p).discard406 true n p
    else if p.ddev = s.own ∧ (targetOf (localOf p.addr)).cls = .control ∧ p.answered ∧ p.kind ≠ .sem then (s.freeRx p).inject ((p.errReply s.own 4).fromPort n)
    else if p.ddev ≠ s.own ∧ (s.portFor p).1 = none then (s.freeRx p).inject p
    else s.inject p

/-- One slot of a good frame is delivered (R396, R397). -/
def State.slotIn (s : State) (pt : Nat) (x : Slot) : State :=
  let t := s.port pt
  match x with
  | .idle => s
  | .control _ => s
  | .hdr p =>
    if p.flits = 0 then s.linkPacket pt p
    else s.setPort pt { t with part := some ({ p with data := 0 }, 0) }
  | .dat d =>
    match t.part with
    | none => s
    | some (p, n) =>
      let p := { p with data := p.data ||| BitVec.ofNat 4096 (d.toNat <<< (512 * n)) }
      if n + 1 = p.flits then (s.setPort pt { t with part := none }).linkPacket pt p
      else s.setPort pt { t with part := some (p, n + 1) }

/-- What a good trailer does (R397-R399, R414): acknowledged frames are freed, a NAK starts a replay, credits return, for the cycles after this one. -/
def State.trailer (s : State) (p : Nat) (f : Frame) : State :=
  let now := s.beat.devt.toNat
  let t := (s.port p).freed f.ack
  let s := s.setPort p { t with nf0 := f.cr0, nf1 := f.cr1, nf2 := f.cr2 }
  let deaf := decide (t.rplCnt ≠ 0) && decide (t.rplSeq = f.ack) && (match t.rplAt with | none => true | some a => decide (now < a + 2 * t.dataLat.toNat + 90))
  if f.nak && !deaf && !t.retry.isEmpty then s.replay p f.ack else s

/-- LINK_FRAME_RECEIVE (R396-R399, R409): a bad frame is discarded and replayed on request; a good one gives its trailer, and, where its SEQ is the one expected, its packets. -/
def execLinkFrameReceive (p : PortId) (f : Frame) (s : State) : Out :=
  let t := s.port p
  if t.framed = false then .next s
  else
    let s := (s.countN (0x5100 + p) 8 f.unc).countN (0x5100 + p) 9 f.corr
    if f.unc ≠ 0 ∨ f.fcrc = false then .next (s.setPort p { t with nak := true })
    else
      let s := s.trailer p f
      let t := s.port p
      if f.seq ≠ t.rxSeq ∨ (t.st ≠ .active ∧ t.st ≠ .drain ∧ f.body.any Slot.data) then .next (s.setPort p { t with nak := true })
      else
        let s := s.setPort p { t with rxSeq := t.rxSeq + 1, nak := false }
        .next (f.body.foldl (fun s x => s.slotIn p x) s)

/-! ## Route table (R407, Table 17.7) -/

/-- A write of a route entry; `none` where it names a port above 17. -/
def State.routeWrite (s : State) (dev : Nat) (v : Word) : Option State :=
  if 17 < bitsOf v.toNat 4 0 ∨ 17 < bitsOf v.toNat 12 8 then none
  else some { s with links := { s.links with routes := Table.put s.links.routes dev (v &&& 0x80001F1F) } }

/-- ROUTE_ENTRY_WRITE (R407, R411). -/
def execRouteEntryWrite (dev : BitVec 10) (v : Word) (s : State) : Out :=
  match s.routeWrite dev.toNat v with
  | some t => .next t
  | none => .next s

end Sys2Proof.Machine
end

