-- ==== Sys2Proof/Machine/Access.lean ====
section
/-! DEFINITION. Accesses that the management subsystem makes to local addresses (R233, R238): device control (Tables 15.4, 17.6, 17.7), the Newt regions (Table 10.6), and every other class as a packet of its would meet it. -/

namespace Sys2Proof.Machine

/-- What a management access comes to: done, or an error reply of a status of Table 11.5, or the machine stops. -/
inductive MAcc where
  | ok (s : State)
  | err (st : Nat) (s : State)
  | fault (f : Fault)

/-! ## Device control -/

/-- BT_CTL as read (Table 15.5). -/
def Beat.ctl (b : Beat) : Word :=
  BitVec.ofNat 32 (bnat b.en * 2 ^ 31 + bnat b.sten * 2 ^ 30 + b.role.toNat * 2 ^ 28 + b.port.toNat * 2 ^ 23 + b.grace.toNat)
/-- Code of a lock state (Table 15.6). -/
def Lock.code : Lock → Nat
  | .nolock => 0 | .locked => 1 | .flywheel => 2 | .lost => 3
/-- BT_STAT as read (Table 15.6). -/
def Beat.stat (b : Beat) : Word :=
  BitVec.ofNat 32 (b.lock.code * 2 ^ 30 + bnat b.frz * 2 ^ 29 + bnat b.bhold * 2 ^ 28 + bnat b.tout * 2 ^ 27
    + min 255 b.reqs.length * 2 ^ 8 + min 16 b.fly)
/-- BT_CFG as read (Table 15.7). -/
def Beat.cfg (b : Beat) : Word := BitVec.ofNat 32 (b.comp.toNat * 2 ^ 16 + b.period.toNat)
/-- BT_LIM as read (Table 15.8). -/
def Beat.lim (b : Beat) : Word := BitVec.ofNat 32 (b.lagmax.toNat * 2 ^ 24 + b.hcut.toNat * 2 ^ 16 + b.strmax.toNat)
/-- Code of a port state (Table 17.5). -/
def PortSt.code : PortSt → Nat
  | .off => 0 | .train => 1 | .align => 2 | .ident => 3 | .active => 4 | .drain => 5 | .retrain => 6 | .failed => 7
/-- LP_STAT as read (Table 17.6). -/
def Port.stat (t : Port) : Word :=
  BitVec.ofNat 32 (t.st.code * 2 ^ 29 + t.cause.toNat * 2 ^ 25 + t.peer.toNat * 2 ^ 15 + t.pport.toNat * 2 ^ 10)

/-- A read of device control (R238, R368, R411): offset and width; `none` is refused with status 0x4. -/
def State.devRead (s : State) (o n : Nat) : Option (List Byte) :=
  let b := s.beat
  let w4 (v : Nat) : Option (List Byte) := if n = 4 then some (leBytes 4 v) else none
  let w8 (v : Nat) : Option (List Byte) := if n = 8 then some (leBytes 8 v) else none
  if o = 0x100000 then w4 b.ctl.toNat
  else if o = 0x100004 then w4 b.stat.toNat
  else if o = 0x100008 then w4 b.cfg.toNat
  else if o = 0x10000C then w4 b.lim.toNat
  else if o = 0x100010 then w8 b.slack.toNat
  else if o = 0x100018 then w4 b.lag.toNat
  else if o = 0x10001C then w4 b.stallb.toNat
  else if o = 0x100020 then w8 b.bcnt.toNat
  else if o = 0x100028 then w8 b.devt.toNat
  else if o = 0x100030 then w8 b.rsb.toNat
  else if o = 0x100038 then w4 b.stout.toNat
  else if 0x101000 ≤ o ∧ o < 0x103000 ∧ o % 8 = 0 then w8 (Table.get 0 b.due ((o - 0x101000) / 8)).toNat
  else if 0x200000 ≤ o ∧ o < 0x201200 ∧ o % 256 = 0 then w4 (bnat (s.port ((o - 0x200000) / 256)).en * 2 ^ 31)
  else if 0x200000 ≤ o ∧ o < 0x201200 ∧ o % 256 = 4 then w4 (s.port ((o - 0x200000) / 256)).stat.toNat
  else if 0x280000 ≤ o ∧ o < 0x281000 ∧ o % 4 = 0 then w4 (Table.get 0 s.links.routes ((o - 0x280000) / 4)).toNat
  else none

/-- A write of BT_CTL (Table 15.5): refused whole where R357 or Table 15.5 refuses a field. -/
def State.btCtl (s : State) (v : Word) : Option State :=
  let b := s.beat
  match s.roleWrite true (v.extractLsb' 28 2) (v.extractLsb' 23 5) b.period b.comp with
  | none => none
  | some s =>
    let b := (s.beat.setSten (v.getLsbD 30)).setEn (v.getLsbD 31)
    let s := { s with beat := { b with grace := v.setWidth 16 } }
    some (if v.getLsbD 22 then s.resyncWrite else s)

/-- A write of device control; `none` is refused with status 0x4. -/
def State.devWrite (s : State) (o n v : Nat) : Option State :=
  let b := s.beat
  let w : Word := BitVec.ofNat 32 v
  let put (k : Nat) (b : Beat) : Option State := if n = k then some { s with beat := b } else none
  if o = 0x100000 then (if n = 4 then s.btCtl w else none)
  else if o = 0x100004 then put 4 { b with tout := b.tout && !w.getLsbD 27 }
  else if o = 0x100008 then (if n = 4 then s.roleWrite false b.role b.port (w.extractLsb' 0 15) (w.extractLsb' 16 12) else none)
  else if o = 0x10000C then
    if bitsOf v 31 24 = 0 then none
    else put 4 { b with lagmax := w.extractLsb' 24 8, hcut := w.extractLsb' 16 8, strmax := w.extractLsb' 0 15 }
  else if o = 0x100010 then put 8 { b with slack := BitVec.ofNat 64 v }
  else if o = 0x100018 ∨ o = 0x10001C then put 4 b
  else if o = 0x100020 ∨ o = 0x100028 then put 8 b
  else if o = 0x100030 then put 8 { b with rsb := BitVec.ofNat 64 v }
  else if o = 0x100038 then put 4 { b with stout := w }
  else if 0x101000 ≤ o ∧ o < 0x103000 ∧ o % 8 = 0 then put 8 { b with due := Table.put b.due ((o - 0x101000) / 8) (BitVec.ofNat 48 v) }
  else if 0x200000 ≤ o ∧ o < 0x201200 ∧ o % 256 = 0 ∧ n = 4 then
    let p := (o - 0x200000) / 256
    let s := s.lpEn p (w.getLsbD 31)
    some (if w.getLsbD 30 ∧ (s.port p).st = .active then s.toRetrain p 0 else s)
  else if 0x200000 ≤ o ∧ o < 0x201200 ∧ o % 256 = 4 ∧ n = 4 then some s
  else if 0x280000 ≤ o ∧ o < 0x281000 ∧ o % 4 = 0 ∧ n = 4 then s.routeWrite ((o - 0x280000) / 4) w
  else none

/-! ## Newt regions -/

/-- A management write of a Newt region (R199, R220, R221); `none` is refused with status 0x4. -/
def State.newtWrite (s : State) (st o n v : Nat) : Option State :=
  let k := s.stack st
  if o = 0 ∧ n = 4 then
    let en := v.testBit 0
    some (s.setStack st { k with haltq := v.testBit 1, en := en || !k.idle && k.en, refd := k.refd || (!en && !k.idle) })
  else if o = 4 ∧ n = 4 then some (s.setStack st { k with refd := k.refd && !v.testBit 29 })
  else if (o = 0x100 ∨ o = 0x108) ∧ n = 8 then some s
  else match entryOf o with
    | .none_ => none
    | .ten _ => if n = 2 ∧ o % 2 = 0 then some (s.newtTable st o (BitVec.ofNat 32 v)) else none
    | _ => if n = 4 ∧ o % 4 = 0 then some (s.newtTable st o (BitVec.ofNat 32 v)) else none

/-- The head entry of an error FIFO enters the log: a TENANT status as a refused breach of tenant isolation (R210). [DEDUCED, log entry 48: unsafe] -/
def State.nerrPop (s : State) (st : Nat) : State :=
  let k := s.stack st
  match k.errs with
  | [] => s
  | e :: es =>
    let s := s.setStack st { k with errs := es }
    s.logEv (if e.status = nTenant then 0x1405 else 0x0D01) true
      (lf e.op.toNat ++ lf e.status.toNat ++ lf e.tag.toNat ++ lf e.ten.toNat ++ lf e.slot.toNat ++ lf e.dev.toNat ++ lf e.node.toNat ++ lf e.port.toNat)

/-- NERR1_READ (R210): the read of NERR1 removes the head entry, which the management subsystem logs with Croak. -/
def execNerr1Read (st : StackId) (s : State) : Out := .next (s.nerrPop st.toNat)

/-! ## Any address -/

/-- The answer that a packet of the management subsystem gets at its target: the state without it, its kind, status and bytes. -/
def State.answerOf (s s' : State) : State × Bool × Nat × List Byte :=
  if s'.net.length = s.net.length then (s', false, 1, [])
  else match s'.net.getLast? with
    | some q => ({ s' with net := s'.net.dropLast }, decide (q.kind ≠ .err), q.status.toNat, q.payload)
    | none => (s', false, 1, [])

/-- A read of `n` bytes at a local address; an error gives its status. [DEDUCED, log entry 140: unsafe] -/
def State.mgmtRead (s : State) (a n : Nat) : State × (Nat ⊕ List Byte) :=
  let p := { s.mkPkt .rd mgmtNode 0 0 (mkFAddr s.own a) with size := sizeCode n, ddev := s.own, sdev := s.own }
  let viaPkt (s' : State) : State × (Nat ⊕ List Byte) :=
    match s.answerOf s' with
    | (t, true, _, bs) => (t, .inr bs)
    | (t, false, st, _) => (t, .inl st)
  if s.dstOn p = false then (s, .inl 2)
  else match targetOf a with
    | .newt st o =>
      (match (s.stack st).ctlRead true o n with
       | some bs => (if o = 0x108 then s.nerrPop st else s, .inr bs)
       | none => (s, .inl 4))
    | .devCtl o => (match s.devRead o n with | some bs => (s, .inr bs) | none => (s, .inl 4))
    | .mem st sa => viaPkt (s.memRd p st sa .clean)
    | .data _ _ _ _ => viaPkt (s.rowRd p.core p .clean)
    | .side _ _ _ _ => viaPkt (s.rowRd p.core p .clean)
    | .coreCtl c o => (match s.coreCtlRead (BitVec.ofNat 10 c) o n .mgmt with | some v => (s, .inr (leBytes n v)) | none => (s, .inl 5))
    | .clusCtl cl o => (match s.cluCtlRead cl o n .mgmt false with | some v => (s, .inr (leBytes n v)) | none => (s, .inl 5))
    | .mctl _ _ => (s, .inl 4)
    | .command _ => (s, .inl 4)
    | _ => (s, .inl 1)

/-- A write of bytes at a local address. -/
def State.mgmtWrite (s : State) (a : Nat) (bs : List Byte) : MAcc :=
  let p := { s.mkPkt .wr mgmtNode 0 0 (mkFAddr s.own a) with ddev := s.own, sdev := s.own }.withPayload bs
  let n := bs.length
  let v := leNat bs
  let viaPkt (s' : State) : MAcc :=
    match s.answerOf s' with
    | (t, true, _, _) => .ok t
    | (t, false, st, _) => .err st t
  let acc (st : Nat) : Acc → MAcc
    | .ok t => .ok t
    | .refuse => .err st s
    | .fault f => .fault f
  if s.dstOn p = false then .err 2 s
  else match targetOf a with
    | .newt st o => (match s.newtWrite st o n v with | some t => .ok t | none => .err 4 s)
    | .devCtl o => (match s.devWrite o n v with | some t => .ok t | none => .err 4 s)
    | .mem st sa => viaPkt (s.memWr p st sa .clean)
    | .data _ _ _ _ => viaPkt (s.rowWr p.core p)
    | .side _ _ _ _ => viaPkt (s.rowWr p.core p)
    | .coreCtl c o => acc 5 (s.coreCtlWrite (BitVec.ofNat 10 c) o n .mgmt v)
    | .clusCtl cl o => acc 5 (s.cluCtlWrite cl o n .mgmt false v)
    | .mctl _ _ => .err 4 s
    | .command st =>
      if n = 512 ∧ (s.stack st).takesRow then
        .ok (s.rowArrivesAt st { row := p.data, dev := s.own, node := mgmtNode, port := 0, cm := false, entry := 0, slot := 0, seq := 0 })
      else .err 4 s
    | _ => .err 1 s

end Sys2Proof.Machine
end

