-- ==== Sys2Proof/Machine/Crypto.lean ====
section
/-! DEFINITION. The signature scheme of R373 and R489: SHA-512 (FIPS 180-4), and RSASSA-PSS verification under RFC 8017 with SHA-512, MGF1 with SHA-512, a 64-byte salt and exponent 65,537. -/

namespace Sys2Proof.Machine

/-- Round constants of SHA-512. -/
def shaK : List DWord :=
  [0x428A2F98D728AE22, 0x7137449123EF65CD, 0xB5C0FBCFEC4D3B2F, 0xE9B5DBA58189DBBC, 0x3956C25BF348B538, 0x59F111F1B605D019, 0x923F82A4AF194F9B, 0xAB1C5ED5DA6D8118, 0xD807AA98A3030242, 0x12835B0145706FBE, 0x243185BE4EE4B28C, 0x550C7DC3D5FFB4E2, 0x72BE5D74F27B896F, 0x80DEB1FE3B1696B1, 0x9BDC06A725C71235, 0xC19BF174CF692694] ++
  [0xE49B69C19EF14AD2, 0xEFBE4786384F25E3, 0xFC19DC68B8CD5B5, 0x240CA1CC77AC9C65, 0x2DE92C6F592B0275, 0x4A7484AA6EA6E483, 0x5CB0A9DCBD41FBD4, 0x76F988DA831153B5, 0x983E5152EE66DFAB, 0xA831C66D2DB43210, 0xB00327C898FB213F, 0xBF597FC7BEEF0EE4, 0xC6E00BF33DA88FC2, 0xD5A79147930AA725, 0x6CA6351E003826F, 0x142929670A0E6E70] ++
  [0x27B70A8546D22FFC, 0x2E1B21385C26C926, 0x4D2C6DFC5AC42AED, 0x53380D139D95B3DF, 0x650A73548BAF63DE, 0x766A0ABB3C77B2A8, 0x81C2C92E47EDAEE6, 0x92722C851482353B, 0xA2BFE8A14CF10364, 0xA81A664BBC423001, 0xC24B8B70D0F89791, 0xC76C51A30654BE30, 0xD192E819D6EF5218, 0xD69906245565A910, 0xF40E35855771202A, 0x106AA07032BBD1B8] ++
  [0x19A4C116B8D2D0C8, 0x1E376C085141AB53, 0x2748774CDF8EEB99, 0x34B0BCB5E19B48A8, 0x391C0CB3C5C95A63, 0x4ED8AA4AE3418ACB, 0x5B9CCA4F7763E373, 0x682E6FF3D6B2B8A3, 0x748F82EE5DEFB2FC, 0x78A5636F43172F60, 0x84C87814A1F0AB72, 0x8CC702081A6439EC, 0x90BEFFFA23631E28, 0xA4506CEBDE82BDE9, 0xBEF9A3F7B2C67915, 0xC67178F2E372532B] ++
  [0xCA273ECEEA26619C, 0xD186B8C721C0C207, 0xEADA7DD6CDE0EB1E, 0xF57D4F7FEE6ED178, 0x6F067AA72176FBA, 0xA637DC5A2C898A6, 0x113F9804BEF90DAE, 0x1B710B35131C471B, 0x28DB77F523047D84, 0x32CAAB7B40C72493, 0x3C9EBE0A15C9BEBC, 0x431D67C49C100D4C, 0x4CC5D4BECB3E42B6, 0x597F299CFC657E2A, 0x5FCB6FAB3AD6FAEC, 0x6C44198C4A475817]

/-- Initial hash value of SHA-512. -/
def shaInit : List DWord :=
  [0x6A09E667F3BCC908, 0xBB67AE8584CAA73B, 0x3C6EF372FE94F82B, 0xA54FF53A5F1D36F1, 0x510E527FADE682D1, 0x9B05688C2B3E6C1F, 0x1F83D9ABFB41BD6B, 0x5BE0CD19137E2179]

/-- The number that big-endian octets spell (RFC 8017 OS2IP). -/
def beNat (bs : List Byte) : Nat := bs.foldl (fun a b => a * 256 + b.toNat) 0

/-- `n` big-endian octets of a number (RFC 8017 I2OSP). -/
def beBytes (n v : Nat) : List Byte := (leBytes n v).reverse

/-- Message words of a block, extended to 80; held newest first. -/
def shaExtend : Nat → List DWord → List DWord
  | 0, w => w
  | n + 1, w =>
    let a := w.getD 1 0
    let b := w.getD 14 0
    let s1 := a.rotateRight 19 ^^^ a.rotateRight 61 ^^^ (a >>> 6)
    let s0 := b.rotateRight 1 ^^^ b.rotateRight 8 ^^^ (b >>> 7)
    shaExtend n ((s1 + w.getD 6 0 + s0 + w.getD 15 0) :: w)

/-- One round of the compression function on the eight working variables. -/
def shaRound (v : List DWord) (kw : DWord × DWord) : List DWord :=
  match v with
  | [a, b, c, d, e, f, g, h] =>
    let t1 := h + (e.rotateRight 14 ^^^ e.rotateRight 18 ^^^ e.rotateRight 41) + ((e &&& f) ^^^ (~~~e &&& g)) + kw.1 + kw.2
    let t2 := (a.rotateRight 28 ^^^ a.rotateRight 34 ^^^ a.rotateRight 39) + ((a &&& b) ^^^ (a &&& c) ^^^ (b &&& c))
    [t1 + t2, a, b, c, d + t1, e, f, g]
  | v => v

/-- The words of a 128-byte block. -/
def shaWords (bs : List Byte) : List DWord :=
  (List.range 16).map (fun i => BitVec.ofNat 64 (beNat ((bs.drop (8 * i)).take 8)))

/-- Compresses `n` blocks of a padded message. -/
def shaBlocks : Nat → List DWord → List Byte → List DWord
  | 0, h, _ => h
  | n + 1, h, bs =>
    let w := (shaExtend 64 (shaWords (bs.take 128)).reverse).reverse
    let v := (shaK.zip w).foldl shaRound h
    shaBlocks n (List.zipWith (· + ·) h v) (bs.drop 128)

/-- SHA-512 of a byte string: 64 bytes. [DESIGN CHOICE, log entry 30: unsafe] -/
def sha512 (m : List Byte) : List Byte :=
  let n := m.length
  let pad := (239 - n % 128) % 128
  let p := m ++ 0x80 :: List.replicate pad 0 ++ beBytes 16 (8 * n)
  (shaBlocks (p.length / 128) shaInit p).flatMap (fun w => beBytes 8 w.toNat)

/-- MGF1 with SHA-512: `n` mask blocks. -/
def mgf1 (seed : List Byte) (n : Nat) : List Byte :=
  (List.range n).flatMap (fun i => sha512 (seed ++ beBytes 4 i))

/-- RSASSA-PSS verification (R373, R489): a 512-byte modulus of 4,096 bits, the message, a 512-byte signature. -/
def pssVerify (modulus msg sig : List Byte) : Bool :=
  let n := beNat modulus
  let s := beNat sig
  if modulus.length ≠ 512 ∨ sig.length ≠ 512 ∨ n < 2 ^ 4095 ∨ n ≤ s then false
  else
    let sq := (List.range 16).foldl (fun x _ => x * x % n) s
    let em := beBytes 512 (sq * s % n)
    let h := (em.drop 447).take 64
    let db := List.zipWith (· ^^^ ·) (em.take 447) (mgf1 h 7)
    let db := db.set 0 (db.getD 0 0 &&& 0x7F)
    let salt := db.drop 383
    decide ((em.getD 0 0).toNat < 128) && decide (em.getD 511 0 = 0xBC) && decide (db.take 382 = List.replicate 382 0)
      && decide (db.getD 382 0 = 1) && decide (sha512 (List.replicate 8 0 ++ sha512 msg ++ salt) = h)

end Sys2Proof.Machine
end

