-- ==== Sys2Proof/Machine/Image.lean ====
section
/-! DEFINITION. Schedule images: header, sections, roles, placement, load records, relocations, latency assumptions and variants, and the rules a staged image must meet (R371-R391). -/

namespace Sys2Proof.Machine

/-- `n` little-endian bytes of a string at offset `o`, as a number. -/
def leAt (bs : List Byte) (o n : Nat) : Nat := leNat ((bs.drop o).take n)

/-- Status codes of Table 16.10. -/
inductive LStat where
  | ok | sig | format | target | param | state | range | stage | latestart | space
deriving DecidableEq, Repr

/-- Code of a status (Table 16.10). -/
def LStat.code : LStat → Nat
  | .ok => 0 | .sig => 1 | .format => 2 | .target => 3 | .param => 4 | .state => 5 | .range => 6 | .stage => 7 | .latestart => 8 | .space => 9

/-! ## Header and section table (R371, R372) -/

/-- Entry `i` of the section table. -/
def secAt (bs : List Byte) (i : Nat) : Section :=
  { type := leAt bs (0x40 + 16 * i) 1, len := leAt bs (0x44 + 16 * i) 4, off := leAt bs (0x48 + 16 * i) 8 }

/-- Step 1 of Table 16.9 on the first 64 bytes: the failure status, if any. [DEDUCED, log entry 74: unsafe] -/
def headerCheck (h : List Byte) : Option LStat :=
  let nsec := leAt h 0x16 2
  let total := leAt h 0x20 8
  if leAt h 0 4 ≠ 0x34575645 ∨ leAt h 5 1 ≠ 1 then some .target
  else if Config.minorRefused (leAt h 4 1) then some .format
  else if nsec < 6 ∨ 7 < nsec ∨ 0xFFFFFFE0 < total ∨ total < 0x40 + 16 * nsec + 512 then some .format
  else none

/-- The image that a checked byte string holds. -/
def imageOf (bs : List Byte) : Image :=
  { mapfix := (bs.getD 6 0).getLsbD 0, xmode := (bs.getD 6 0).getLsbD 1, imgid := BitVec.ofNat 64 (leAt bs 8 8), nreg := leAt bs 0x10 2,
    pb := leAt bs 0x12 2, step := bs.getD 0x14 0, keyid := leAt bs 0x18 4, total := leAt bs 0x20 8, msize := leAt bs 0x28 8,
    secs := (List.range (leAt bs 0x16 2)).map (secAt bs), bytes := bs }

/-- The section of a type. -/
def Image.sec (im : Image) (type : Nat) : Option Section := im.secs.find? (fun x => decide (x.type = type))
/-- Bytes of a section in the staged copy. -/
def Image.secBytes (im : Image) (x : Section) : List Byte := (im.bytes.drop x.off).take x.len
/-- Bytes of the section of a type; none where it is absent. -/
def Image.part (im : Image) (type : Nat) : List Byte := match im.sec type with | some x => im.secBytes x | none => []

/-- Whether two ranges share a position. -/
def overlap (a n b m : Nat) : Bool := decide (a < b + m) && decide (b < a + n) && decide (n ≠ 0) && decide (m ≠ 0)

/-- Pairs of a list in order. -/
def pairsOk {α : Type} (ok : α → α → Bool) : List α → Bool
  | [] => true
  | x :: xs => xs.all (ok x) && pairsOk ok xs

/-- The rules of R371 and R372 on the section table. -/
def Image.secsOk (im : Image) : Bool :=
  im.secs.all (fun x => decide (1 ≤ x.type) && decide (x.type ≤ 7) && decide (x.off % 32 = 0)
      && decide (0x40 + 16 * im.secs.length ≤ x.off) && decide (x.off + x.len ≤ im.total - 512))
    && pairsOk (fun x y => decide (x.type ≠ y.type) && !overlap x.off x.len y.off y.len) im.secs
    && (List.range 6).all (fun i => (im.sec (i + 1)).isSome)

/-! ## Roles and placement (R375, R376) -/

/-- A role block: its role, PBASE, number of words, and the offset of its first halfword in the section. -/
structure RoleBlk where
  role  : Nat
  pbase : Nat
  n     : Nat
  at_   : Nat
deriving DecidableEq, Repr

/-- The role blocks of a ROLE section from offset `o` on; `fuel` bounds them. -/
def roleBlks (sec : List Byte) : Nat → Nat → Option (List RoleBlk)
  | 0, o => if o = sec.length then some [] else none
  | fuel + 1, o =>
    if o = sec.length then some []
    else
      let b : RoleBlk := { role := leAt sec o 2, pbase := leAt sec (o + 2) 2 % 16384, n := leAt sec (o + 4) 4, at_ := o + 16 }
      let len := (16 + 2 * b.n + 31) / 32 * 32
      if sec.length < o + len ∨ 16384 < b.pbase + b.n ∨ (List.range b.n).any (fun i => decide (0x4000 ≤ leAt sec (b.at_ + 2 * i) 2)) then none
      else match roleBlks sec fuel (o + len) with
        | some bs => some (b :: bs)
        | none => none

/-- The role blocks of an image; `none` breaks a rule of R376. -/
def Image.roles (im : Image) : Option (List RoleBlk) :=
  let sec := im.part 1
  match roleBlks sec (sec.length / 32) 0 with
  | some bs => if pairsOk (fun x y => decide (x.role ≠ y.role)) bs then some bs else none
  | none => none

/-- A PLACE entry. -/
structure Place where
  role  : Nat
  supst : Bool
  pc    : Nat
deriving DecidableEq, Repr

/-- The PLACE entry of logical core `j`. -/
def Image.place (im : Image) (j : Nat) : Place :=
  let v := leAt (im.part 2) (4 * j) 4
  { role := v / 65536, supst := v.testBit 15, pc := v % 16384 }

/-- Logical cores of an image. -/
def Image.cores (im : Image) : Nat := im.nreg * 64

/-- The rules of R376 on the PLACE section. -/
def Image.placeOk (im : Image) (bs : List RoleBlk) : Bool :=
  decide ((im.part 2).length = 4 * im.cores)
    && (List.range im.cores).all (fun j => decide ((im.place j).role = 0xFFFF) || bs.any (fun b => decide (b.role = (im.place j).role)))

/-- Physical core of logical core `j`, with the regions that R375 maps. -/
def physCore (rmap : List Nat) (j : Nat) : Nat :=
  let p := rmap.getD (j / 64) 0
  ((p % 8) / 2 * 8 + j % 64 / 8) * 32 + (p / 8) * 16 + (p % 2) * 8 + j % 8

/-- The regions of R375; `none` is PARAM. -/
def Image.regions (im : Image) (map : BitVec 16) : Option (List Nat) :=
  let on := (List.range 16).filter (fun i => map.getLsbD i)
  if on.length < im.nreg then none
  else if im.mapfix then (if (List.range im.nreg).all (fun i => map.getLsbD i) then some (List.range im.nreg) else none)
  else some (on.take im.nreg)

/-! ## Load records (R378) -/

/-- A load record: its header and the offset of its data in the section. -/
structure LoadRow where
  tgt  : Nat
  log  : Nat
  len  : Nat
  addr : Nat
  at_  : Nat
deriving DecidableEq, Repr

/-- The load records of a section from offset `o` on. -/
def loadRows (sec : List Byte) : Nat → Nat → Option (List LoadRow)
  | 0, o => if o = sec.length then some [] else none
  | fuel + 1, o =>
    if o = sec.length then some []
    else
      let h := leAt sec o 4
      let r : LoadRow := { tgt := h / 2 ^ 28, log := h % 65536, len := leAt sec (o + 4) 4, addr := leAt sec (o + 8) 8, at_ := o + 16 }
      let n := (16 + r.len + 15) / 16 * 16
      if sec.length < o + n then none
      else match loadRows sec fuel (o + n) with
        | some rs => some (r :: rs)
        | none => none

/-- Width of the register that an image may write at an offset of a core's control region (Table 16.5). -/
def imgCreg (o : Nat) : Option Nat :=
  match cregAt o with
  | some (r, base, w) =>
    let ok : Bool := match r with
      | .cd _ => true | .inte => true | .dcCtl => true | .ssd => true | .sdLo _ => true | .sdHi _ => true
      | .ftc _ => true | .ftx _ => true | .ftinv _ => true | .ftab _ => true
      | _ => decide (0x200 ≤ o) && decide (o < 0x400)
    if base = o ∧ ok then some w else none
  | none => none

/-- Width of the register that an image may write at an offset of a cluster's control region. -/
def imgKreg (o : Nat) : Option Nat :=
  match kregAt o with
  | some (r, base, w) =>
    let ok : Bool := match r with
      | .sem _ => true | .watch _ _ => true | .dchCtl _ => true | .suctl => true | .vtbase => true | .vctx => true | _ => false
    if base = o ∧ ok then some w else none
  | none => none

/-- Width of a word that an image may write at an offset of a Newt region. -/
def imgNreg (o : Nat) : Option Nat :=
  match entryOf o with
  | .none_ => none
  | .ten _ => if o % 2 = 0 then some 2 else none
  | _ => if o % 4 = 0 then some 4 else none

/-- Width of a scratchpad row or side band that begins at a window offset. -/
def imgPad (o : Nat) : Option Nat :=
  match padTarget 0 o with
  | .data _ _ _ 0 => some 512
  | .side _ _ _ 0 => some 32
  | _ => none

/-- The accesses of a record of `len` bytes at `o`: offsets and widths; `none` where a register is divided or not named. -/
def accesses (width : Nat → Option Nat) : Nat → Nat → Nat → Option (List (Nat × Nat))
  | 0, _, len => if len = 0 then some [] else none
  | fuel + 1, o, len =>
    if len = 0 then some []
    else match width o with
      | none => none
      | some w =>
        if len < w then none
        else match accesses width fuel (o + w) (len - w) with
          | some xs => some ((o, w) :: xs)
          | none => none

/-- Width function and bases of the targets with registers. -/
def LoadRow.width (r : LoadRow) : Nat → Option Nat :=
  if r.tgt = 1 then imgPad else if r.tgt = 2 then imgCreg else if r.tgt = 3 then imgKreg else imgNreg

/-- The rules of R378 and Table 16.5 on a record; `sec` is the section's bytes. -/
def Image.rowOk (im : Image) (sec : List Byte) (r : LoadRow) : Bool :=
  decide (r.len % 4 = 0) &&
  (match r.tgt with
   | 0 => decide (r.addr + r.len ≤ im.msize)
   | 4 => decide (r.log < 8) && (accesses r.width r.len r.addr r.len).isSome
   | 5 => decide (r.log < im.cores) && decide (r.addr = 0) && decide (r.len = 8)
   | 3 => decide (r.log < im.cores)
      && (match accesses r.width r.len r.addr r.len with
          | some xs => xs.all (fun x => decide (0xC00 ≤ x.1) || decide (leAt sec (r.at_ + (x.1 - r.addr)) 4 < 2 ^ 31))
          | none => false)
   | 1 => decide (r.log < im.cores) && (accesses r.width r.len r.addr r.len).isSome
   | 2 => decide (r.log < im.cores) && (accesses r.width r.len r.addr r.len).isSome
   | _ => false)

/-- The load records of an image; `none` breaks a rule. -/
def Image.rows (im : Image) : Option (List LoadRow) :=
  let sec := im.part 3
  match loadRows sec (sec.length / 16) 0 with
  | some rs => if rs.all (im.rowOk sec) then some rs else none
  | none => none

/-! ## Relocations (R377) -/

/-- A relocation record (Table 16.3). -/
structure Reloc where
  kind  : Nat
  shift : Nat
  w     : Nat
  sec   : Nat
  vsh   : Nat
  off   : Nat
  opr   : Nat
deriving DecidableEq, Repr

/-- Record `i` of a RELOC section. -/
def relocAt (bs : List Byte) (i : Nat) : Reloc :=
  let h := leAt bs (16 * i) 4
  { kind := bitsOf h 31 28, shift := bitsOf h 27 22, w := bitsOf h 21 16 + 1, sec := bitsOf h 15 8, vsh := bitsOf h 7 0,
    off := leAt bs (16 * i + 4) 4, opr := leAt bs (16 * i + 8) 8 }

/-- The relocation records of an image. -/
def Image.relocs (im : Image) : List Reloc := (List.range ((im.part 4).length / 16)).map (relocAt (im.part 4))

/-- The format rules of R377 on one record; an operand that names no logical core, region or role of the image breaks them too. [DEDUCED, log entry 75: unsafe] -/
def Image.relocOk (im : Image) (bs : List RoleBlk) (r : Reloc) : Bool :=
  decide (1 ≤ r.kind) && decide (r.kind ≤ 7) && decide (r.shift + r.w ≤ 64) && decide (r.vsh < 64) && decide (r.off % 8 = 0)
    && (match im.secs[r.sec]? with
        | some x => decide (r.off + 8 ≤ x.len) && (decide (x.type = 1) || decide (x.type = 3) || decide (x.type = 7))
        | none => false)
    && (match r.kind with
        | 1 => decide (r.opr % 1024 < im.cores)
        | 2 => decide (r.opr % 1024 < im.cores)
        | 3 => decide (r.opr % 16 < im.nreg)
        | 7 => bs.any (fun b => decide (b.role = bitsOf r.opr 31 16))
        | _ => true)

/-- Two records' fields share no bit. -/
def Reloc.apart (x y : Reloc) : Bool := decide (x.sec ≠ y.sec) || !overlap (8 * x.off + x.shift) x.w (8 * y.off + y.shift) y.w

/-- What relocation values depend on: the regions, MBASE, the peer table, START. -/
structure RelocEnv where
  rmap  : List Nat
  mbase : Nat
  peers : List (BitVec 16)
  start : Nat

/-- V of a record (Table 16.4); `none` names a peer that the table lacks. -/
def Image.relocV (im : Image) (e : RelocEnv) (r : Reloc) : Option Nat :=
  match r.kind with
  | 1 => some (physCore e.rmap (r.opr % 1024))
  | 2 => some (clusterOf (physCore e.rmap (r.opr % 1024)))
  | 3 => some (e.rmap.getD (r.opr % 16) 0)
  | 4 => (e.peers[r.opr % 256]?).map (fun v => v.toNat)
  | 5 => some ((e.start + r.opr) % 2 ^ 64)
  | 6 => some (e.mbase + r.opr)
  | 7 => (match im.roles with
      | some bs => (bs.find? (fun b => decide (b.role = bitsOf r.opr 31 16))).map (fun b => b.pbase + r.opr % 16384)
      | none => none)
  | _ => none

/-- One record changes its field in the staged copy; `none` is RANGE. -/
def Image.relocate (im : Image) (e : RelocEnv) (r : Reloc) : Option Image :=
  match im.relocV e r, im.secs[r.sec]? with
  | some v, some x =>
    let v := v >>> r.vsh
    if r.kind ≠ 5 ∧ 2 ^ r.w ≤ v then none
    else
      let o := x.off + r.off
      let word : DWord := setBits (BitVec.ofNat 64 (leAt im.bytes o 8)) r.shift r.w v
      some { im with bytes := im.bytes.take o ++ bytesOf word 8 ++ im.bytes.drop (o + 8) }
  | _, _ => none

/-- The records of a list are applied in order. -/
def Image.relocateAll (im : Image) (e : RelocEnv) : List Reloc → Option Image
  | [] => some im
  | r :: rs => match im.relocate e r with
    | some im' => im'.relocateAll e rs
    | none => none

/-! ## Variants, latency, slots (R384-R391) -/

/-- A variant entry (Table 16.14). -/
structure Variant where
  present : Bool
  train   : Bool
  slack   : Nat
  ebeat   : Nat
  ppeak   : Nat
  freq    : Nat
deriving DecidableEq, Repr

/-- Entry Vn of the VARIANT section. -/
def Image.variant (im : Image) (n : Nat) : Variant :=
  let bs := (im.part 5).drop (16 + 32 * n)
  { present := (bs.getD 0 0).getLsbD 0, train := (bs.getD 0 0).getLsbD 1, slack := leAt bs 2 2, ebeat := leAt bs 4 4, ppeak := leAt bs 8 4, freq := leAt bs 16 8 }

/-- GRACE of the VARIANT header. -/
def Image.grace (im : Image) : Nat := leAt (im.part 5) 0 2
/-- VROFF of the VARIANT header. -/
def Image.vroff (im : Image) : Nat := leAt (im.part 5) 8 8
/-- The BT_SLACK value of the variants (R363, Table 15.4). -/
def Image.slack (im : Image) : DWord :=
  BitVec.ofNat 64 ((im.variant 0).slack + (im.variant 1).slack * 2 ^ 16 + (im.variant 2).slack * 2 ^ 32 + (im.variant 3).slack * 2 ^ 48)

/-- The variant that runs where Vn is chosen: the lowest present one from n on (R390). -/
def Image.runs (im : Image) (n : Nat) : Nat :=
  ((List.range 4).find? (fun i => decide (n ≤ i) && (im.variant i).present)).getD 3

/-- The rules of R390 on the VARIANT section. -/
def Image.variantsOk (im : Image) : Bool :=
  decide ((im.part 5).length = 144) && decide (im.vroff % 2048 = 0) && (im.variant 3).present
    && (List.range 4).all (fun n => !(im.variant n).present || (List.range 16).all (fun l => decide (bitsOf (im.variant n).freq (4 * l + 3) (4 * l) ≤ 8)))

/-- The latency assumptions: ID and ASSUMED (R385). -/
def Image.latencies (im : Image) : List (Nat × Nat) :=
  (List.range ((im.part 6).length / 4)).map (fun i => (leAt (im.part 6) (4 * i + 2) 2, leAt (im.part 6) (4 * i) 2))

/-- AITOFF, where the image has a SLOT section (R387). -/
def Image.aitoff (im : Image) : Option Nat := if (im.sec 7).isSome then some (leAt (im.part 7) 0 8) else none

/-- Step 3 of Table 16.9: every rule of the layout, the sections and the records. -/
def Image.formatOk (im : Image) : Bool :=
  im.secsOk && decide (1 ≤ im.nreg) && decide (im.nreg ≤ 16) && decide (1 ≤ im.pb)
    && (match im.roles with
        | some bs => im.placeOk bs && decide ((im.part 4).length % 16 = 0) && im.relocs.all (im.relocOk bs) && pairsOk Reloc.apart im.relocs
        | none => false)
    && im.rows.isSome && im.variantsOk && decide ((im.part 6).length % 4 = 0)
    && (match im.aitoff with
        | some o => decide ((im.part 7).length = 8200) && decide (o % 8192 = 0)
        | none => true)

/-- IDs of the device latency table (Table 16.11). -/
def latIds : List Nat := [0x01, 0x02, 0x03, 0x04, 0x10, 0x11, 0x12, 0x13, 0x14, 0x15, 0x20]

/-- Largest data one-way latency over the ACTIVE ports (R413). [DEDUCED, log entry 76: unsafe] -/
def State.linkLat (s : State) : Option Nat :=
  let xs := ((List.range 18).filter (fun n => decide ((s.port n).st = .active))).map (fun n => (s.port n).dataLat.toNat)
  if xs.isEmpty then none else some (xs.foldl max 0)

/-- The device latency table (Table 16.11); the region crossing follows 0x1010:01 as it stands. -/
def State.latency (s : State) (id : Nat) : Option Nat :=
  let ab (a b : Nat) : Option Nat := some (if s.dev.b0 then b else a)
  match id with
  | 0x01 => ab 232 208 | 0x02 => ab 140 140 | 0x03 => ab 20 20 | 0x04 => some (if s.setting 0x1010 1 0 = 1 then 4 else 1)
  | 0x10 => ab 24 24 | 0x11 => ab 260 236 | 0x12 => ab 64 64 | 0x13 => ab 16 16 | 0x14 => ab 180 140 | 0x15 => ab 4 4
  | 0x20 => s.linkLat
  | _ => none

end Sys2Proof.Machine
end

