-- ==== Sys2Proof/Machine/Loader.lean ====
section
/-! DEFINITION. The loader: dictionary values in force, erasure of what an image leaves (R499), the load steps (R380), placement, release (R382) and the variant ring (R391). -/

namespace Sys2Proof.Machine

/-! ## Persisted values -/

/-- Base of the staging area (0x9000:01). -/
def State.stageBase (s : State) : Nat := s.bootSetting 0x9000 1 0x8F00000000
/-- AXBASE (0x7050:02). -/
def State.axBase (s : State) : Nat := s.bootSetting 0x7050 2 0x8E00000000
/-- 4 GiB, the size of the staging and AXOLOTL areas. -/
def areaBytes : Nat := 2 ^ 32

/-! ## Erasure (R499) -/

/-- The hardware clear of one core (R499): scratchpads, tiles, vector registers, caches, way memory, function tables. -/
def Core.cleared (k : Core) : Core :=
  { k with pad := {}, vec := { k.vec with regs := [], ftab := [] },
           lsu := { k.lsu.dropAll with wmem := [], wfree := [] },
           mat := { k.mat with fa0 := { k.mat.fa0 with elems := [] }, fa1 := { k.mat.fa1 with elems := [] },
                               ba0 := { k.mat.ba0 with elems := [] }, ba1 := { k.mat.ba1 with elems := [] } } }

/-- On-die state of every enabled region is erased. -/
def State.clearDie (s : State) : State :=
  { s with cores := s.cores.map (fun kv => if s.coreOn kv.1 then (kv.1, kv.2.cleared) else kv) }

/-- A completed erasure is counted and logged (R501). -/
def State.erased (s : State) (what : List Byte) : State := (s.count 0x7030 1).logEv 0x1403 false what

/-! ## Loader writes -/

/-- What a part of a load comes to. -/
inductive LRes where
  | ok (s : State)
  | fail (st : LStat) (s : State)
  | fault (f : Fault)

/-- The next part of a load, where the one before it succeeded. -/
def LRes.bind (r : LRes) (f : State → LRes) : LRes :=
  match r with
  | .ok s => f s
  | .fail st s => .fail st s
  | .fault x => .fault x

/-- One write of the management subsystem; an error reply is STAGE (R380). -/
def State.loadWrite (s : State) (a : Nat) (bs : List Byte) : LRes :=
  match s.mgmtWrite a bs with
  | .ok t => .ok t
  | .err _ t => .fail .stage t
  | .fault f => .fault f

/-- Bytes into interleaved memory by the management subsystem, granule by granule, each a die-side request (R242); `false` where a write is refused (R225) or lies outside, and nothing further is written. -/
def State.putBytes (s : State) : Nat → Nat → List Byte → State × Bool
  | 0, _, bs => (s, bs.isEmpty)
  | fuel + 1, a, bs =>
    if bs.isEmpty then (s, true)
    else
      let n := 512 - a % 512
      match targetOf a with
      | .mem st sa =>
        let (s, ok) := (s.dieSide st sa).mergeWrite st sa (bs.take n)
        if ok then s.putBytes fuel (a + n) (bs.drop n) else (s, false)
      | _ => (s, false)

/-- `putBytes` with enough fuel, as a part of a load. -/
def State.loadMem (s : State) (a : Nat) (bs : List Byte) : LRes :=
  let (s, ok) := s.putBytes (bs.length / 512 + 2) a bs
  if ok then .ok s else .fail .stage s

/-- Runs a part for each member of a list. -/
def loadEach {α : Type} (f : State → α → LRes) : List α → State → LRes
  | [], s => .ok s
  | x :: xs, s => (f s x).bind (loadEach f xs)

/-- Base local address of a record's target (Table 16.5); logical cores by their place. -/
def rowBase (rmap : List Nat) (r : LoadRow) : Nat :=
  let c := physCore rmap r.log
  match r.tgt with
  | 1 => 0x100000000000 + c * 0x100000
  | 2 => 0x200000000000 + c * 0x10000
  | 3 => 0x200004000000 + clusterOf c * 0x10000
  | 4 => 0x200008000000 + r.log * 0x200000
  | _ => 0x200010101000 + 8 * c

/-- The data of an access of a record as they are written: DCH_CTL.ABT never is (R378). [DEDUCED, log entry 165: unsafe] -/
def LoadRow.written (r : LoadRow) (o : Nat) (bs : List Byte) : List Byte :=
  match kregAt o with
  | some (.dchCtl _, _, _) => if r.tgt = 3 then leBytes 4 (leNat bs % 2 ^ 31) else bs
  | _ => bs

/-- One load record is written (R378). [DEDUCED, log entry 78: unsafe] -/
def State.loadRow (s : State) (im : Image) (rmap : List Nat) (mbase : Nat) (r : LoadRow) : LRes :=
  let sec := im.part 3
  let data := (sec.drop r.at_).take r.len
  if r.tgt = 0 then s.loadMem (mbase + r.addr) data
  else if r.tgt = 5 then s.loadWrite (rowBase rmap r) data
  else match accesses r.width r.len r.addr r.len with
    | none => .fail .format s
    | some xs => loadEach (fun s x => s.loadWrite (rowBase rmap r + x.1) (r.written x.1 ((data.drop (x.1 - r.addr)).take x.2))) xs s

/-- Words of a role block from index `lo` on, `n` of them, go into a core's program memory. -/
def State.loadProg (s : State) (c : Nat) (sec : List Byte) (b : RoleBlk) (lo n : Nat) : State :=
  s.modCore (BitVec.ofNat 10 c) (fun k => { k with cpu := { k.cpu with prog := (List.range n).foldl (fun m i =>
    Table.putc 0 m (b.pbase + lo + i) (BitVec.ofNat 14 (leAt sec (b.at_ + 2 * (lo + i)) 2))) k.cpu.prog } })

/-- Logical cores that PLACE gives a role. -/
def Image.placed (im : Image) : List Nat := (List.range im.cores).filter (fun j => decide ((im.place j).role ≠ 0xFFFF))

/-- Step 7 of Table 16.9. -/
def State.loadRoles (s : State) (im : Image) (rmap : List Nat) : State :=
  match im.roles with
  | none => s
  | some bs =>
    im.placed.foldl (fun s j =>
      let p := im.place j
      let c := physCore rmap j
      let s := match bs.find? (fun b => decide (b.role = p.role)) with
        | some b => s.loadProg c (im.part 1) b 0 b.n
        | none => s
      s.modCore (BitVec.ofNat 10 c) (fun k => { k with run := { k.run with rcpc := BitVec.ofNat 14 p.pc, role := BitVec.ofNat 16 p.role, lcore := BitVec.ofNat 10 j } })) s

/-! ## The load steps (R380, Table 16.9) -/

/-- A key usable for schedule images (R490): installed and enabled. -/
def State.keyFor (s : State) (k : Nat) : Option (List Byte) :=
  if k < 32 ∧ (s.setting 0x7010 1 1).testBit k then
    (match Table.look s.mgmt.keys k with | some m => if m.isEmpty then none else some m | none => none)
  else none

/-- Step 2: the signature over bytes 0 to TOTAL - 513 (R373). -/
def State.signed (s : State) (im : Image) : Bool :=
  match s.keyFor im.keyid with
  | some m => pssVerify m (im.bytes.take (im.total - 512)) (im.bytes.drop (im.total - 512))
  | none => false

/-- Regions that are down are powered up before an image is mapped (R474). -/
def State.powerAll (s : State) : State := { s with dev := { s.dev with powered := s.dev.map } }

/-- Step 5: the latency comparison (R385): figures, a log entry for each difference, Croak where an item arrives late. -/
def State.compare (s : State) (im : Image) : State :=
  let both := im.latencies.filterMap (fun x => (s.latency x.1).map (fun d => (x.1, x.2, d)))
  let diff := both.filter (fun x => decide (x.2.1 ≠ x.2.2))
  let one := (im.latencies.filter (fun x => (s.latency x.1).isNone)).length
    + (latIds.filter (fun i => (s.latency i).isSome && im.latencies.all (fun x => decide (x.1 ≠ i)))).length
  let s := { s with loader := { s.loader with cmpN := diff.length, cmpPos := diff.foldl (fun a x => max a (x.2.2 - x.2.1)) 0,
                                              cmpNeg := diff.foldl (fun a x => max a (x.2.1 - x.2.2)) 0, cmpOne := one } }
  diff.foldl (fun s x => s.logEv 0x1002 (decide (x.2.1 < x.2.2)) (lf x.1 ++ lf x.2.1 ++ lf x.2.2)) s

/-- Steps 1 to 5 on the image staged at `base`: the state after them, and a failure or the image with its regions. `sig` runs step 2; `quiet` leaves 0x9001 as it is (R505). [DEDUCED, log entry 80: unsafe] -/
def State.loadCheck (s : State) (base mbase : Nat) (sig quiet : Bool) : State × (LStat ⊕ (Image × List Nat)) :=
  let s := s.localSee base 64
  let h := s.localRead base 64
  if s.localBad base 64 then (s, .inl .stage)
  else match headerCheck h with
  | some st => (s, .inl st)
  | none =>
    let total := leAt h 0x20 8
    let s := s.localSee base total
    if s.localBad base total then (s, .inl .stage)
    else
      let im := imageOf (s.localRead base total)
      if sig && !s.signed im then (s.logEv 0x1401 true (lf im.keyid), .inl .sig)
      else
        let s := if quiet then s else { s with loader := { s.loader with hash := sha512 im.bytes } }
        if im.formatOk = false then (s, .inl .format)
        else
          let s := s.powerAll
          match im.regions s.dev.map with
          | none => (s, .inl .param)
          | some rmap =>
            if mbase % 2 ^ 21 ≠ 0 ∨ memTop < mbase + im.msize ∨ overlap mbase im.msize s.stageBase areaBytes then (s, .inl .space)
            else (s.compare im, .inr (im, rmap))

/-- Whether a core of an enabled region still runs. -/
def State.anyRunning (s : State) : Bool := s.cores.any (fun kv => s.coreOn kv.1 && decide (kv.2.run.st = .running))

/-- Steps 7 to 9: role programs, load records in section order, index table, GRACE and BT_SLACK. -/
def State.install (s : State) (im : Image) (rmap : List Nat) (mbase : Nat) : LRes :=
  let s := s.loadRoles im rmap
  match im.rows with
  | none => .fail .format s
  | some rs =>
    (loadEach (fun s r => s.loadRow im rmap mbase r) rs s).bind (fun s =>
      (match im.aitoff with
       | some o => s.loadMem (mbase + o) ((im.part 7).drop 8)
       | none => .ok s).bind (fun s =>
        .ok { s with beat := { s.beat with grace := BitVec.ofNat 16 im.grace, slack := im.slack } }))

/-- Step 6's relocations, then steps 7 to 9 (Table 16.9); the staged copy is answered. -/
def State.placeImage (s : State) (im : Image) (rmap : List Nat) (mbase : Nat) (peers : List (BitVec 16)) : LRes × Image :=
  match im.relocateAll { rmap, mbase, peers, start := 0 } (im.relocs.filter (fun r => decide (r.kind ≠ 5))) with
  | none => (.fail .range s, im)
  | some im => (s.install im rmap mbase, im)

/-- The status of a load or release is kept; every one but OK is logged with IMGID and raises Croak (Table 16.10). -/
def State.loadStatus (s : State) (st : LStat) (imgid : DWord) : State :=
  let s := { s with loader := { s.loader with status := BitVec.ofNat 8 st.code } }
  if st = .ok then s else s.logEv 0x1001 true (lf st.code ++ lf imgid.toNat)

/-- Writes the copy that is not in force (R383, R442, R493). -/
def Twin.write {α : Type} (t : Twin α) (v : α) : Twin α :=
  match t.c0, t.c1 with
  | some (a, _), some (b, _) => if a.toNat < b.toNat then { t with c0 := some (b + 1, v) } else { t with c1 := some (a + 1, v) }
  | some (a, _), none => { t with c1 := some (a + 1, v) }
  | none, some (b, _) => { t with c0 := some (b + 1, v) }
  | none, none => { t with c0 := some (1, v) }

/-- The copy that is not in force has been written and does not read back. -/
def Twin.spoil {α : Type} (t : Twin α) : Twin α :=
  match t.c0, t.c1 with
  | some (a, _), some (b, _) => if a.toNat < b.toNat then { t with c0 := none } else { t with c1 := none }
  | _, _ => t

/-- The valid copy with the higher sequence number. -/
def Twin.read {α : Type} (t : Twin α) : Option α :=
  match t.c0, t.c1 with
  | some (a, x), some (b, y) => if a.toNat < b.toNat then some y else some x
  | some (_, x), none => some x
  | none, some (_, y) => some y
  | none, none => none

/-- A load whose cores are stopped and which no earlier image holds up: steps 6 to 10 run, and the device state follows (Table 19.7). -/
def State.finishLoad (s : State) (im : Image) (rmap : List Nat) (mbase : DWord) (peers : List (BitVec 16)) (record : Bool) : LRes × LStat :=
  let down (s : State) (st : LStat) : LRes × LStat :=
    let s := { s with loader := { s.loader with img := 0, image := none, rmap := [] } }
    let s := if s.dev.st = .ready then s.toState .preop 0 else s
    (.ok (s.loadStatus st im.imgid), st)
  match s.placeImage im rmap mbase.toNat peers with
  | (.fault f, _) => (.fault f, .stage)
  | (.fail st s, _) => down s st
  | (.ok s, im) =>
    let l : Loader := { s.loader with img := 3, imgid := im.imgid, mbase, peers, image := some im, rmap, start := 0 }
    let l := if record then { l with record := l.record.write { hash := l.hash, imgid := im.imgid, mbase, peers } } else l
    let s : State := { s with loader := l }
    let s : State := if s.dev.st = .preop then s.toState .ready 0 else s
    (.ok (s.loadStatus .ok im.imgid), .ok)

/-! ## Release (R382) -/

/-- Program words and load records that BEAT relocations change are written again. -/
def State.rewrite (s : State) (im : Image) (rmap : List Nat) (mbase : Nat) (r : Reloc) : LRes :=
  match im.secs[r.sec]? with
  | none => .ok s
  | some x =>
    if x.type = 1 then
      match im.roles with
      | none => .ok s
      | some bs =>
        .ok (im.placed.foldl (fun s j =>
          match bs.find? (fun b => decide (b.role = (im.place j).role)) with
          | some b =>
            let lo := (max r.off b.at_ - b.at_) / 2
            let hi := min b.n ((r.off + 8 - b.at_) / 2)
            if b.at_ ≤ r.off + 7 ∧ lo < hi then s.loadProg (physCore rmap j) (im.part 1) b lo (hi - lo) else s
          | none => s) s)
    else if x.type = 3 then
      match im.rows with
      | none => .ok s
      | some rs => loadEach (fun s y => s.loadRow im rmap mbase y) (rs.filter (fun y => overlap y.at_ y.len r.off 8)) s
    else match im.aitoff with
      | some o => s.loadMem (mbase + o + (max r.off 8 - 8)) (((im.part 7).drop (max r.off 8)).take 8)
      | none => .ok s

/-- The 256 entries of the variant ring with V3 for the beats from `b` on (R382). [DEDUCED, log entry 77: unsafe] -/
def State.ringAll (s : State) (a b : Nat) : LRes :=
  loadEach (fun s i => s.loadMem (a + 8 * ((b + i) % 256)) (leBytes 4 ((b + i) % 2 ^ 32) ++ leBytes 4 3)) (List.range 256) s

/-- Every cluster may change VM (R316). -/
def State.vmQuietAll (s : State) : Bool := (List.range 64).all (fun cl => !s.cluOn cl || s.vmQuiet cl)

/-- SUCTL.VM of every cluster (R316). -/
def State.setVm (s : State) (v : Bool) : State :=
  forN 64 (fun s cl => if s.cluOn cl then s.modSync cl (fun y => { y with vm := v }) else s) s

/-- SUCTL.VM of every cluster before a release of cores (R316): a change while a cluster is not quiet has no defined outcome. [DEDUCED, log entry 161: safe] -/
def State.vmBefore (s : State) (v : Bool) : LRes :=
  if (List.range 64).any (fun cl => s.cluOn cl && ((s.clu cl).sync.vm != v) && !s.vmQuiet cl) then .fault .vmChangedLive else .ok (s.setVm v)

/-- RUN to a core at the level that its PLACE entry names (R379, R382); a role that begins at task level has TSBP and ESP not valid (R380). -/
def Core.startRole (k : Core) (supst : Bool) : Core :=
  if k.run.st = .running ∨ supst then k.start supst
  else ({ k with cpu := { k.cpu with tsV := false, espV := false } }).start supst

/-- RUN to the core that a logical core is placed on. -/
def State.runCore (s : State) (im : Image) (rmap : List Nat) (j : Nat) : State :=
  s.modCore (BitVec.ofNat 10 (physCore rmap j)) (fun k => k.startRole (im.place j).supst)

/-- A release up to its first RUN (R382): BEAT relocations, the variant ring, VM and STEN; `sten` false for a recovery image (R505), which runs in virtual mode (R316). -/
def State.releaseWrites (s : State) (im : Image) (rmap : List Nat) (mbase start : Nat) (sten : Bool) : LRes × Image :=
  let rs := im.relocs.filter (fun r => decide (r.kind = 5))
  match im.relocateAll { rmap, mbase, peers := [], start } rs with
  | none => (.fail .range s, im)
  | some im =>
    let r := (loadEach (fun s r => s.rewrite im rmap mbase r) rs s).bind (fun s =>
      ((s.ringAll (mbase + im.vroff) start).bind (fun s => s.vmBefore (!sten))).bind (fun s =>
        .ok (if sten then { s with beat := s.beat.setSten true } else s)))
    (r, im)

/-- The release of a recovery image (R505), which no beat bounds. -/
def State.releaseImage (s : State) (im : Image) (rmap : List Nat) (mbase start : Nat) : LRes × Image :=
  match s.releaseWrites im rmap mbase start false with
  | (r, im) => (r.bind (fun s => .ok (im.placed.foldl (fun s j => s.runCore im rmap j) s)), im)

/-- RELEASE begins (R382, Table 16.10): it ends at once with a status other than OK, or RUN follows for each placed core. [DESIGN CHOICE, log entry 166: unsafe] -/
def State.release (s : State) (start : DWord) : LRes :=
  let no (s : State) (st : LStat) : LRes := .fail st (s.loadStatus st s.loader.imgid)
  if s.dev.st ≠ .ready ∨ s.loader.busy then no s .state
  else match s.loader.image with
    | none => no s .latestart
    | some im =>
      if s.loader.img ≠ 3 ∨ start.toNat ≤ s.beat.bcnt.toNat + 1 then no s .latestart
      else match s.releaseWrites im s.loader.rmap s.loader.mbase.toNat start.toNat true with
        | (.fault f, _) => .fault f
        | (.fail st s, _) => no s st
        | (.ok s, im) => .ok { s with loader := { s.loader with image := some im, busy := true, runs := im.placed } }

/-- Cores that the placed image uses. -/
def State.placedCores (s : State) : List Nat :=
  match s.loader.image with
  | some im => im.placed.map (physCore s.loader.rmap)
  | none => []

/-- A release has ended with a status. -/
def State.releaseEnd (s : State) (st : LStat) : State :=
  { s with loader := { s.loader with busy := false, runs := [] } }.loadStatus st s.loader.imgid

/-- The last RUN of a release is written: the device enters RUN, or HOLD where a cause holds (R382, R451, Table 19.7); a device that has gone to FAULT meanwhile stays there. -/
def State.released (s : State) (start : DWord) : State :=
  let l : Loader := { s.loader with img := 4, start, var := 3, since := 0, ring := [], outs := [], noFreq := false }
  let s : State := { s with loader := l, power := { s.power with bucket := 0, hist := [], emeas := 0, lowB := false, freq := [] } }
  let s : State := { s with cnt := Table.erase (Table.erase (Table.erase (Table.erase s.cnt 0x900202) 0x900203) 0x900204) 0x900205 }
  (if s.dev.st = .fault then s else s.toState (if s.dev.holds = 0 then .run else .hold) s.dev.holds.toNat).releaseEnd .ok

/-- A release in progress (R382): each placed core's RUN at a time of the loader's, and LATESTART where BCNT reaches START first; the status once it has ended. -/
def State.releaseStep (s : State) (start : DWord) : State × Option LStat :=
  match s.loader.runs, s.loader.image with
  | j :: js, some im =>
    if start.toNat ≤ s.beat.bcnt.toNat then
      ((s.placedCores.foldl (fun s c => s.stopReq (BitVec.ofNat 10 c)) s).releaseEnd .latestart, some .latestart)
    else if Config.runWrite s.beat.devt.toNat then
      let s := { s.runCore im s.loader.rmap j with loader := { s.loader with runs := js } }
      if js = [] then (s.released start, some .ok) else (s, none)
    else (s, none)
  | _, _ => (s.released start, some .ok)

/-! ## Variant ring (R391) -/

/-- A fresh transaction ID of the management subsystem. -/
def State.mgmtTid (s : State) : State × BitVec 12 := ({ s with mgmt := { s.mgmt with tid := s.mgmt.tid + 1 } }, s.mgmt.tid)

/-- The power controller writes the ring entry of a beat: one 8-byte write to MBASE + VROFF + 8 (b mod 256). -/
def State.ringWrite (s : State) (beat var : Nat) : State :=
  match s.loader.image with
  | none => s
  | some im =>
    let (s, tid) := s.mgmtTid
    let b := beat % 2 ^ 32
    let p := (s.mkPkt .wr mgmtNode 0 tid (mkFAddr s.own (s.loader.mbase.toNat + im.vroff + 8 * (b % 256)))).withPayload (leBytes 4 b ++ leBytes 4 var)
    { s with loader := { s.loader with ring := Table.put s.loader.ring b var, outs := s.loader.outs ++ [(tid, b)] } }.inject p

end Sys2Proof.Machine
end

