-- ==== Sys2Proof/Machine/Power.lean ====
section
/-! DEFINITION. Power, clocks and thermal control (chapter 20), the sensors (R481, R482), region power (R474), the imbalance monitor (R242) and the choice of variant (R466). -/

namespace Sys2Proof.Machine

/-! ## Hold causes and regulator stops (R451, R459) -/

/-- Sets or clears a hold cause: 0 power, 1 thermal, 2 beat; a cause that sets moves RUN to HOLD (R451, Table 19.7). -/
def State.setHold (s : State) (bit : Nat) (on : Bool) : State :=
  let h := setBits s.dev.holds bit 1 (bnat on)
  let s := { s with dev := { s.dev with holds := h } }
  if on ∧ s.dev.st = .run then s.toState .hold (2 ^ bit) else s

/-- The selection record in force (R493). -/
def Mgmt.selection (m : Mgmt) : Selection := m.sel.read.getD {}

/-- A slot of firmware takes an image. -/
def Mgmt.putFw (m : Mgmt) (b : Bool) (v : FwImg) : Mgmt := if b then { m with slotB := v } else { m with slotA := v }

/-- The slot that an update writes: the one that is not ACTIVE. -/
def Mgmt.spare (m : Mgmt) : Bool := !m.selection.active

/-- A transfer that has not come to its end leaves a slot that does not verify (Table 21.13). -/
def Mgmt.broken (m : Mgmt) : Mgmt := if m.pldm = .download then m.putFw m.spare (.bytes []) else m

/-- What the management subsystem keeps without power: the module flash and the fuses (Tables 21.2, 21.7), with the values it loaded last. -/
def Mgmt.flash (m : Mgmt) : Mgmt :=
  let m := m.broken
  { store := m.store, vals := m.vals, boot := m.boot, clear := m.clear, kind := m.kind, colds := m.colds, writes := m.writes, slotA := m.slotA,
    slotB := m.slotB, sel := m.sel, slot := m.slot, minsvn := m.minsvn, uds := m.uds, udsLock := false, wrapped := m.wrapped, keyStore := [], keys := m.keys, root := m.root,
    pend := m.pend, sessId := m.sessId, eraseId := m.eraseId }

/-- Everything that loses power with the regulators: all but the flash, the fuses and the latch (R459). -/
def State.dark (s : State) : State :=
  { s with cores := [], clus := [], stks := [], mem := [], badMem := [], softMem := [], net := [], beat := {}, links := { devId := s.links.devId, board := s.links.board },
           host := { mem := s.host.mem }, imb := {}, mgmt := s.mgmt.flash, mon := { s.mon with unlocked := false, nonce := none, rx := [], part := [], ovf := false, job := none },
           log := { s.log with recs := s.log.recs.filter (·.flash) },
           dev := { s.dev with st := .off, prev := s.dev.st, powered := 0, holds := 0 } }

/-- The transitions that no record tells yet, with the rise of a supply whose start has not begun (R449). -/
def State.unlogged (s : State) : List Unlogged := s.power.lost ++ if s.mgmt.risen then [{ src := .off, dst := .tadpole }] else []

/-- The regulators stop and the device goes to OFF; the cause is latched (R459, R469), and with it the transition for the log (R449). [DEDUCED, log entry 110: unsafe] -/
def State.regStop (s : State) (cause : Nat) : State :=
  { s.dark with power := { latch := cause, lost := s.unlogged ++ [{ src := s.dev.st, dst := .off, cause, beat := s.beat.bcnt }] } }

/-! ## Sensors (R481, R482, Table 21.3) -/

/-- Sensor number `i`. [DESIGN CHOICE, log entry 102: unsafe] -/
def State.sensor (s : State) (i : Nat) : Sensor := Table.get {} s.mgmt.sensors i

/-- Valid range of a sensor. -/
def sensorRange (i : Nat) : Int × Int :=
  if i < 64 then (-40, 150) else if i < 128 then (-40, 125) else if i = 128 then (0, 70) else if i = 129 then (0, 60) else (0, 2)

/-- An integer as a value. -/
def ofInt (z : Int) : FVal := ofSigned z 0

/-- A conversion lies within its range. -/
def sensorOk (i : Nat) (v : Word) : Bool :=
  let x := fp32.decode v.toNat
  let (lo, hi) := sensorRange i
  match x with
  | .fin _ _ _ => !(x.lt (ofInt lo)) && !((ofInt hi).lt x)
  | _ => false

/-- The rails that a warm start keeps (Table 23.4): VPCI, VMGT, VNB, VDRAM, VDDQ and VAUX. -/
def railKept (rail : Nat) : Bool := [7, 8, 10, 11, 12, 13].contains rail

/-- A kept rail outside ±3 % while a warm start waits before the end of S9: the stacks have lost their contents, and S9 will fail (R523). -/
def State.keptOut (s : State) (rail : Nat) : State :=
  match s.mgmt.paused with
  | some (r, n) =>
    if s.mgmt.kind = 2 ∧ n ≤ 9 ∧ railKept rail then { s with mgmt := { s.mgmt with kind := 3, paused := some ({ r with srFail := List.finRange 8 }, n) } } else s
  | none => s

/-- A rail outside its window in this tick (R482); ten ticks in a row move the device to FAULT. -/
def State.railOut (s : State) (rail : Nat) : State :=
  let s := s.keptOut rail
  let t := s.beat.devt.toNat / 2250
  let (t0, n0) := Table.get (0, 0) s.mgmt.rails rail
  let n := if n0 = 0 then 1 else if t0 = t then n0 else if t0 + 1 = t then n0 + 1 else 1
  let s := { s with mgmt := { s.mgmt with rails := Table.put s.mgmt.rails rail (t, n) } }
  if 10 ≤ n then s.deviceFault 5 else s

/-- A rail monitor's conversion lies within `pc` hundredths of nominal (R482, R523). -/
def railIn (pc : Nat) (v : Word) : Bool :=
  let x := fp32.decode v.toNat
  !(x.lt ((ofInt (100 - pc)).div (ofInt 100))) && !(((ofInt (100 + pc)).div (ofInt 100)).lt x)

/-- What a sensor's reading comes to: an invalid rail monitor, or a rail outside ±5 %, is the event of R482 (Table 21.3); one outside ±3 % counts for a kept rail of a warm start (R523). -/
def State.railSeen (s : State) (id : Nat) (conv : Option Word) : State :=
  let out (pc : Nat) : Bool := (s.sensor id).bad || (match conv with | some v => !railIn pc v | none => false)
  if id < 130 then s
  else if out 5 then s.railOut (id - 130)
  else if out 3 then s.keptOut (id - 130)
  else s

/-- SENSOR_SAMPLE (R481): a conversion, or none in this tick; an invalid sensor is replaced until 64 valid conversions in a row. Rail monitors are sensors 130 to 143. [DESIGN CHOICE, log entry 174: unsafe] -/
def execSensorSample (id : Nat) (conv : Option (BitVec 32)) (s : State) : Out :=
  if 144 ≤ id ∨ s.dev.st = .off then .next s
  else
    let x := s.sensor id
    let put (s : State) (x : Sensor) : Out := .next ({ s with mgmt := { s.mgmt with sensors := Table.put s.mgmt.sensors id x } }.railSeen id conv)
    let invalid (s : State) (x : Sensor) : Out :=
      let s := if x.bad then s else s.logEv 0x1305 true (lf id)
      put s { x with bad := true, good := 0 }
    match conv with
    | none => if x.missed + 1 < 4 then put s { x with missed := x.missed + 1 } else invalid s { x with missed := x.missed + 1 }
    | some v =>
      let x := { x with missed := 0, bits := v }
      if sensorOk id v = false then invalid s x
      else if x.bad then put s (if 64 ≤ x.good + 1 then { x with bad := false, good := 0 } else { x with good := x.good + 1 })
      else put s x

/-- RAIL_EVENT (R482): a rail outside its window in this tick. -/
def execRailEvent (rail : Fin 14) (s : State) : Out :=
  if s.dev.st = .off then .next s else .next (s.railOut rail.val)

/-! ## Input power, throttle -/

/-- Sensed input power in mW: p_peak while the current sensor is invalid (R481). -/
def State.inputMw (s : State) : Nat := if (s.sensor 129).bad then s.power.ppeak * 1000 else s.power.mw

/-- The duty in force follows the excesses and R460; every change is logged, one below 8 with Croak (R461). -/
def State.setDuty (s : State) : State :=
  let d := min s.power.exDuty (if s.power.warnThr then 2 else 8)
  if d = s.power.duty then s
  else { s with power := { s.power with duty := d } }.logEv 0x1302 (decide (d < 8)) (lf d)

/-! ## The supply (R459, R460) -/

/-- Code of a supply state (Table 20.1). -/
def Supply.code : Supply → Nat
  | .good => 0 | .sag => 1 | .warn => 2 | .under => 3

/-- The supply state of a code. -/
def Supply.of (c : Nat) : Supply := if c = 0 then .good else if c = 1 then .sag else if c = 2 then .warn else .under

/-- Whether WARN's condition holds: the pin is low, or rose less than 1 ms ago (Table 20.1). -/
def State.warnOn (s : State) : Bool :=
  s.power.low || decide (s.beat.devt.toNat < s.power.warnTo)

/-- The supply state after a tick (R459): the state in force, the highest code whose condition is met, and the end of WARN. [DEDUCED, log entry 98: unsafe] -/
def State.supplyNext (s : State) : Supply :=
  let p := s.power
  if 10 ≤ p.nUnder ∨ (s.sensor 128).bad then .under
  else if s.warnOn then .warn
  else if p.supply = .warn then (if 10 ≤ p.nSag then .sag else .good)
  else if 10 ≤ p.nSag then .sag
  else if 10 ≤ p.nGood then .good
  else p.supply

/-- Entry to SAG, WARN or UNDER is logged with BCNT and raises Croak; SAG and UNDER are counted (R459, Table 20.10). -/
def State.supplyEntry (s : State) (n : Supply) : State :=
  if n = .good then s
  else
    let s := s.logEv 0x1301 true (lf n.code ++ lf s.beat.bcnt.toNat)
    if n = .warn then s else s.count 0x2005 3

/-- SUPPLY_TICK (R459, R464): the mean voltage in mV, the input power in mW and the level of PWR_WARN_N over one µs. [DEDUCED, log entry 111: unsafe] -/
def execSupplyTick (mv mw : Nat) (low : Bool) (s : State) : Out :=
  if s.dev.st = .off then .next s
  else
    let p := s.power
    let run (n : Nat) (c : Bool) : Nat := if c then n + 1 else 0
    let p := { p with mv, mw, low, warnTo := if p.low && !low then s.beat.devt.toNat + 2250000 else p.warnTo,
                      nGood := run p.nGood (decide (44000 ≤ mv) && decide (mv ≤ 60000)), nSag := run p.nSag (decide (mv < 44000)),
                      nUnder := run p.nUnder (decide (mv < 40000)), nLow := run p.nLow (decide (mv < 38000)), nOver := run p.nOver (decide (60000 < mv)) }
    if 100 ≤ p.nLow ∨ mv < 36000 then .next (s.regStop 1)
    else if 1000 ≤ p.nOver ∨ 63000 < mv then .next (s.regStop 2)
    else
      let s := { s with power := p }
      let n := s.supplyNext
      let s := if n = p.supply then s else s.supplyEntry n
      let exceeds := if p.ppeak * 1000 < s.inputMw then p.overPk + 1 else 0
      let inUnder := if n = .under then p.inUnder + 1 else 0
      let s : State := { s with power := { s.power with supply := n, inUnder, emeas := p.emeas + 2250 * s.inputMw, overPk := exceeds } }
      .next (if s.power.inUnder = 10000 then s.deviceFault 5 else s)

/-- The time at which the next boundary is due, without a stretch. -/
def Beat.nextDue (b : Beat) : Nat := b.lastApp + b.period.toNat

/-- PWR_WARN_FALL (R460): counted; V3 goes into the entry of every beat that can still be written. -/
def execPwrWarnFall (s : State) : Out :=
  if s.dev.st = .off then .next s
  else
    let t := s.beat.devt.toNat
    let s : State := { s.count 0x2005 1 with power := { s.power with low := true, falls := s.power.falls ++ [t] } }
    if s.loader.img = 4 then
      let b := s.beat.bcnt.toNat
      let s := if t + 456 ≤ s.beat.nextDue then s.ringWrite (b + 1) 3 else s
      .next (s.ringWrite (b + 2) 3)
    else .next s

/-- WARN_THROTTLE (R460): 4,500 cc after a fall, duty 2 where V3 is not in force. -/
def execWarnThrottle (s : State) : Out :=
  let now := s.beat.devt.toNat
  let (due, later) := s.power.falls.partition (fun t => decide (t + 4500 ≤ now))
  if due.isEmpty then .next s
  else .next { s with power := { s.power with falls := later, warnThr := s.power.warnThr || decide (s.loader.var ≠ 3) } }.setDuty

/-- REFCLK_LOSS (R462): REF_CLK has been absent for more than 100 µs. -/
def execRefclkLoss (s : State) : Out :=
  if s.dev.st = .off then .next s else .next ({ s with power := { s.power with noRef := true } }.deviceFault 5)

/-- THERMAL_TRIP (R469): the hardware comparator stops every regulator. -/
def execThermalTrip (s : State) : Out := if s.dev.st = .off then .next s else .next (s.regStop 3)

/-! ## Thermal model and excesses (R465, R467, R468) -/

/-- One °C in the model's unit. -/
def degree : Int := 200000 * 2 ^ 149
/-- TJMAX (0x2003:02). -/
def tjmax : Int := 105 * degree

/-- A temperature reading in the model's unit, exactly; a value that is no number counts as 0. -/
def tempOf (v : Word) : Int :=
  match fp32.decode v.toNat with
  | .fin neg m e =>
    let x : Int := (m * 2 ^ (e + 149).toNat : Nat) * 200000
    if neg then -x else x
  | _ => 0

/-- A sensor's temperature, or its replacement while invalid (Table 21.3). [DEDUCED, log entry 99: unsafe] -/
def State.temp (s : State) (i : Nat) : Int :=
  let x := s.sensor i
  if x.bad then (if i < 64 then tjmax else 95 * degree) else tempOf x.bits

/-- The hottest of `n` sensors from number `i` on. -/
def State.hottest (s : State) (i n : Nat) : Int := (List.range n).foldl (fun a k => max a (s.temp (i + k))) (s.temp i)

/-- Rate in eighths that a stack temperature permits (Table 20.3). -/
def rateFor (t : Int) : Nat := if 95 * degree ≤ t then 2 else if 93 * degree ≤ t then 4 else if 90 * degree ≤ t then 6 else 8

/-- Temperature from which a rate below 8 is in force. -/
def rateFrom (r : Nat) : Int := (if r = 2 then 95 else if r = 4 then 93 else 90) * degree

/-- A lower guarantee gives way to a higher one (R26, R475): logged with the row of Table 20.8, with Croak. [DESIGN CHOICE, log entry 168: unsafe] -/
def State.breach (s : State) (row : Nat) (unit : List Byte) : State := s.logEv 0x1306 true (lf row ++ unit)

/-- Stack `i`'s rate after a tick (R468): down at once, one row up after 64 ticks 3 °C below the row; above 85 °C the refresh rate doubles (R226). -/
def State.stackRate (s : State) (i : Nat) : State :=
  let t := s.hottest (64 + 8 * i) 8
  let k := s.stack i
  let want := rateFor t
  let n := if k.rate < 8 ∧ t ≤ rateFrom k.rate - 3 * degree then Table.get 0 s.power.cool i + 1 else 0
  let rate := if want < k.rate then want else if 64 ≤ n then k.rate + 2 else k.rate
  let s := { s with power := { s.power with cool := Table.put s.power.cool i (if 64 ≤ n then 0 else n) } }
  let s := s.setStack i { k with rate, hotRef := decide (85 * degree < t) }
  if rate < k.rate then s.breach 3 (lf i ++ lf rate) else s

/-- A power excess exists (R467). -/
def State.powerExcess (s : State) : Bool := s.power.lowB || decide (64 ≤ s.power.overPk) || decide (s.power.supply = .under)
/-- A thermal excess exists (R467). -/
def State.thermalExcess (s : State) : Bool := decide (tjmax ≤ s.power.jm)

/-- Hold bit 1 follows the thermal excess and a stack at 2/8 (R467, R468). -/
def State.thermalHold (s : State) : State :=
  s.setHold 1 (s.power.exHold || (List.range 8).any (fun i => decide ((s.stack i).rate = 2)))

/-- THERMAL_TICK (R465, R467, R468): the estimate, the excesses with their throttle and hold bits, and the stack rates. [DEDUCED, log entry 100: unsafe] -/
def execThermalTick (s : State) : Out :=
  if s.dev.st = .off then .next s
  else
    let jm := s.hottest 0 64 + (s.inputMw * 2 ^ 149 : Nat)
    let a := tjmax - (4 * s.beat.devt.toNat * 2 ^ 149 / 9 : Nat)
    let s := { s with power := { s.power with jm, that := max jm a } }
    let exP := s.powerExcess
    let exT := s.thermalExcess
    let p := s.power
    let absP := if !exP && decide (0 ≤ p.bucket) then p.absP + 1 else 0
    let absT := if jm ≤ tjmax - 3 * degree then p.absT + 1 else 0
    let p := { p with absP, absT }
    let n := min absP absT
    let p := if exP || exT then
        { p with exRun := p.exRun + 1, exDuty := if (p.exRun + 1) % 64 = 0 then max 1 (p.exDuty / 2) else p.exDuty }
      else { p with exRun := 0, exDuty := if n ≠ 0 ∧ n % 64 = 0 then min 8 (2 * p.exDuty) else p.exDuty }
    let p := { p with exHold := exT || (p.exHold && !(decide (p.exDuty = 8) && decide (64 ≤ absT))) }
    let s := { s with power := p }
    let s := if exP then s.setHold 0 true
      else if p.exDuty = 8 ∧ 64 ≤ absP then s.setHold 0 false else s
    let s := forN 8 (fun s i => s.stackRate i) s
    let s := s.thermalHold.setDuty
    let s := if s.power.duty < 8 then s.count 0x2005 2 else s
    let hot := if s.power.duty = 1 ∧ tjmax + 5 * degree ≤ jm then s.power.hotRun + 1 else 0
    let s := { s with power := { s.power with hotRun := hot } }
    .next (if hot = 10000 then s.deviceFault 5 else s)

/-! ## Choice of variant (R464-R467) -/

/-- The thermal floor (R465). -/
def State.thermalFloor (s : State) : Nat :=
  let m := tjmax - s.power.that
  if 10 * degree ≤ m then 0 else if 5 * degree ≤ m then 1 else if 2 * degree ≤ m then 2 else 3

/-- Energy that the sustained budget adds in one beat, in mW·cc. -/
def State.beatBudget (s : State) : Nat := s.power.psus * 1000 * s.beat.period.toNat

/-- Whether the predicted energy of variant `n` exceeds the bucket and the beat's budget (R464, R466). -/
def State.tooMuch (s : State) (n : Nat) (v : Variant) : Bool :=
  let lim : Int := s.power.bucket + s.beatBudget
  let h := Table.get [] s.power.hist n
  if 16 ≤ h.length then decide (16 * lim < (h.foldl (· + ·) 0 : Nat)) else decide (lim < (v.ebeat * 1000 * s.beat.period.toNat : Nat))

/-- The variant of the next beat (R466). -/
def State.choose (s : State) (im : Image) : Nat :=
  if s.loader.since < 64 ∨ s.warnOn ∨ s.power.supply = .warn ∨ s.power.supply = .under ∨ s.powerExcess ∨ s.thermalExcess then 3
  else
    let lo := max (if s.power.supply = .sag then 2 else 0) s.thermalFloor
    ((List.range 3).find? (fun n =>
      let v := im.variant n
      decide (lo ≤ n) && v.present && decide (v.ppeak ≤ s.power.ppeak) && !s.tooMuch n v)).getD 3

/-- VARIANT_CHOICE (R391, R466): during a beat of a released image, no later than 256 cc before the next boundary is due. -/
def execVariantChoice (s : State) : Out :=
  match s.loader.image with
  | some im =>
    if s.loader.img = 4 ∧ s.beat.devt.toNat + 256 ≤ s.beat.nextDue then .next (s.ringWrite (s.beat.bcnt.toNat + 1) (s.choose im)) else .next s
  | none => .next s

/-- What the power controller does at an applied boundary (R391, R463, R464): the beat that ends is accounted, the variant of the beat that begins applies. [DESIGN CHOICE, log entry 177: unsafe] -/
def State.powerBoundary (s : State) : State :=
  let p := s.power
  let per := s.beat.period.toNat
  let e := p.emeas
  let hist := if p.per = per then p.hist else []
  let hist := if s.loader.img = 4 then Table.put hist s.loader.var ((e :: Table.get [] hist s.loader.var).take 16) else hist
  let psus := s.setting 0x2000 1 1800
  let ppeak := s.setting 0x2000 2 2000
  let bmax : Int := ((ppeak - psus) * 2250000000 : Nat)
  let b := min (p.bucket + (psus * 1000 * per : Nat) - e) bmax
  let s := { s with power := { p with per, hist, psus, ppeak, emeas := 0, bucket := b, lowB := decide (b < -bmax) } }
  match s.loader.image with
  | none => s
  | some im =>
    if s.loader.img ≠ 4 then s
    else
      let now := s.beat.bcnt.toNat % 2 ^ 32
      let late := s.loader.outs.any (fun o => decide (o.2 = now))
      let v := if late then 3 else im.runs (Table.get 3 s.loader.ring now)
      let s := if late then s.logEv 0x1003 true (lf now) else s
      let code (l : Nat) : Nat := bitsOf (im.variant v).freq (4 * l + 3) (4 * l)
      let l := { s.loader with var := v, since := s.loader.since + 1, ring := Table.erase s.loader.ring now,
                               noFreq := s.loader.noFreq || !s.dev.async }
      let s := { s.count 0x9002 (2 + v) with loader := l }
      let s := if s.dev.async then
          { s with power := { s.power with freq := (List.range im.nreg).foldl (fun t l => Table.put t (s.loader.rmap.getD l 0) (code l)) [] } }
        else s
      if v = 3 then { s with power := { s.power with warnThr := false, falls := [] } }.setDuty else s

/-! ## Imbalance monitor (R242) -/

/-- IMBALANCE_WINDOW_END (R242): the ratio of the window, and the beginning or end of an episode; changed settings take effect here and end an episode in progress. [DESIGN CHOICE, log entry 196: unsafe] -/
def execImbalanceWindowEnd (s : State) : Out :=
  let m := s.imb
  if s.setting 0x3010 1 1 = 0 ∨ s.beat.bcnt.toNat < m.begun.toNat + m.w then .next s
  else
    let total := m.n.foldl (fun a x => a + x.2) 0
    let (ch, top) := m.n.foldl (fun (a : Nat × Nat) x => if a.2 < x.2 then x else a) (0, 0)
    let ratio : Word := if total < 65536 then 0 else toFp32 ((ofInt (top * 256 : Nat)).div (ofInt (total : Nat)))
    let r := fp32.decode ratio.toNat
    let t := fp32.decode m.t.toNat
    let w' := s.setting 0x3010 2 1024
    let t' : Word := BitVec.ofNat 32 (s.setting 0x3010 3 0x41000000)
    let n' := s.setting 0x3010 4 4
    let above := if r.lt t then 0 else m.above + 1
    let below := if r.lt (t.scale (-1)) then m.below + 1 else 0
    let starts := !m.episode && decide (m.runs ≤ above)
    let ends := m.episode && decide (m.runs ≤ below)
    let changed := decide (w' ≠ m.w) || decide (t' ≠ m.t) || decide (n' ≠ m.runs)
    let m' : Imbalance := { n := [], begun := s.beat.bcnt, w := w', t := t', runs := n', above := if changed then 0 else above,
                            below := if changed then 0 else below, episode := (starts || (m.episode && !ends)) && !changed, hot := ch, ratio }
    let s := { s with imb := m' }
    .next (if starts then (s.count 0x3010 7).logEv 0x0C02 true (lf (ch / 32) ++ lf (ch % 32) ++ bytesOf ratio 4 ++ lf s.beat.bcnt.toNat) else s)

/-! ## Region power (R474) -/

/-- A region is idle: no core runs, no channel is QUEUED, RUN or WAIT, no tile is BUSY. -/
def State.regionIdle (s : State) (r : Nat) : Bool :=
  s.cores.all (fun kv => decide (regionOf kv.1 ≠ r)
      || (decide (kv.2.run.st ≠ .running) && !kv.2.mat.fa0.busy && !kv.2.mat.fa1.busy && !kv.2.mat.ba0.busy && !kv.2.mat.ba1.busy))
    && s.clus.all (fun kv => decide (regionOfCluster kv.1 ≠ r)
      || kv.2.chans.all (fun c => decide (c.2.st ≠ .queued) && decide (c.2.st ≠ .run) && decide (c.2.st ≠ .wait)))

/-- A region's contents are lost. -/
def State.regionLost (s : State) (r : Nat) : State :=
  { s with cores := s.cores.filter (fun kv => decide (regionOf kv.1 ≠ r)), clus := s.clus.filter (fun kv => decide (regionOfCluster kv.1 ≠ r)) }

/-- A write of 0x2020:01 (R474): each bit that changes to 0 powers its region down where that is idle, and each that changes to 1 powers it up. [DEDUCED, log entry 101: unsafe] -/
def State.regionPower (s : State) (v : BitVec 16) : State :=
  let old := s.power.req
  let s := { s with power := { s.power with req := v, busyR := 0 } }
  forN 16 (fun s r =>
    if s.dev.map.getLsbD r = false ∨ old.getLsbD r = v.getLsbD r then s
    else if v.getLsbD r = false then
      if s.dev.powered.getLsbD r = false then s
      else if s.regionIdle r then { s.regionLost r with dev := { s.dev with powered := setBits s.dev.powered r 1 0 } }
      else { s with power := { s.power with busyR := setBits s.power.busyR r 1 1 } }.breach 4 (lf r)
    else if s.dev.powered.getLsbD r then s
    else { s.regionLost r with dev := { s.dev with powered := setBits s.dev.powered r 1 1 } }) s

/-- REGION_POWER_REQUEST (R474): taken in PREOP only. -/
def execRegionPowerRequest (v : BitVec 16) (s : State) : Out :=
  if s.dev.st = .preop then .next (s.regionPower v) else .next s

end Sys2Proof.Machine
end

