-- ==== Sys2Proof/Machine/Erase.lean ====
section
/-! DEFINITION. Erasure of released slots and tenants and of discarded images by SCRUB commands (R498-R503), and the completion of Newt commands. -/

namespace Sys2Proof.Machine

/-! ## SCRUB commands of the management subsystem (R500) -/

/-- A SCRUB descriptor: tenant, slot, tag, first granule, granules. -/
def scrubDesc (ten slot tag first n : Nat) : BitVec 512 :=
  BitVec.ofNat 512 (15 * 2 ^ 24 + tag % 2 ^ 16 + (ten % 2 ^ 12 * 2 ^ 20 + slot % 2 ^ 9 * 2 ^ 11) * 2 ^ 32 + first % 2 ^ 32 * 2 ^ 384 + n % 2 ^ 32 * 2 ^ 416)

/-- Up to eight descriptors as one command row; the other slots are empty (R200). -/
def packRow (ds : List (BitVec 512)) : BitVec 4096 :=
  BitVec.ofNat 4096 ((List.range 8).foldl (fun a i => a + (match ds[i]? with | some d => d.toNat | none => 0xFF000000) * 2 ^ (512 * i)) 0)

/-- A list in groups of eight; `fuel` bounds them. -/
def eights {α : Type} : Nat → List α → List (List α)
  | 0, _ => []
  | fuel + 1, xs => if xs.isEmpty then [] else xs.take 8 :: eights fuel (xs.drop 8)

/-- Descriptors go to an engine's command window as message rows from the management subsystem (R200, R500). -/
def State.sendScrubs (s : State) (st : Nat) (ds : List (BitVec 512)) : State :=
  (eights ds.length ds).foldl (fun s r =>
    let (s, tid) := s.mgmtTid
    s.inject { s.mkPkt .msg mgmtNode 0 tid (mkFAddr s.own (0x200008010000 + st * 0x200000)) with size := 6, data := packRow r }) s

/-- SLOT and TEN that the descriptors of an erasure name. -/
def ErWhat.names : ErWhat → Nat × Nat
  | .slot n => (0, n) | .tenant t => (t, 0) | .image _ => (0, 0)

/-- The slot, tenant or image, for the log (R501). -/
def ErWhat.field : ErWhat → List Byte
  | .slot n => lf n | .tenant t => lf t | .image i => lf i.toNat

/-- The SCRUB of one extent of an erasure. [DEDUCED, log entry 114: unsafe] -/
def Erasure.desc (e : Erasure) (first n : Nat) : BitVec 512 := scrubDesc e.what.names.1 e.what.names.2 e.id first n

/-- Directory entries of a tenant get V = 0, by table writes (Table 21.10). [DEDUCED, log entry 116: unsafe] -/
def State.dropTenant (s : State) (t : Nat) : State :=
  forN 8 (fun s st =>
    (s.stack st).dir.foldl (fun s e =>
      if eV e.2 && decide (eTen e.2 = t) then s.newtTable st (0x80000 + 128 * e.1) (BitVec.ofNat 32 (eF e.2 0 4) &&& 0xFFFF7FFF) else s) s) s

/-- What the pending-erasure record in force holds. -/
def Mgmt.pending (m : Mgmt) : List Erasure := m.pend.read.getD []

/-- Newt context buffers and working store are zero (R499): the rows that commands in progress hold. -/
def State.clearContexts (s : State) : State :=
  { s with stks := s.stks.map (fun k => (k.1, { k.2 with cmds := k.2.cmds.map (fun c => { c with src := c.src.map (fun r => (r.1, {})) }) })) }

/-- An erasure whose extents are all done: counted as completed or failed (R501, R502); a tenant's entries lose V, and with an image go what the engines hold. -/
def State.erasureEnd (s : State) (e : Erasure) : State :=
  let others (xs : List Erasure) : List Erasure := xs.filter (fun x => decide (x.id ≠ e.id))
  let s := { s with mgmt := { s.mgmt with erase := others s.mgmt.erase, pend := s.mgmt.pend.write (others s.mgmt.pending) } }
  let s := match e.what with | .tenant t => s.dropTenant t | .image _ => s.clearContexts | .slot _ => s
  if e.failed then s.count 0x7030 2 else s.erased e.what.field

/-- An erasure begins: its extents (stack, first granule, granules) are recorded and their SCRUBs sent (R500, R503). -/
def State.eraseBegin (s : State) (what : ErWhat) (xs : List (Nat × Nat × Nat)) : State :=
  let xs := xs.filter (fun x => decide (x.2.2 ≠ 0))
  let e : Erasure := { id := s.mgmt.eraseId, what, outs := xs.map (fun x => (x.1, x.2.1, x.2.2, false)) }
  let s := { s with mgmt := { s.mgmt with eraseId := e.id + 1, erase := s.mgmt.erase ++ [e], pend := s.mgmt.pend.write (s.mgmt.pending ++ [e]) } }
  if xs.isEmpty then s.erasureEnd e
  else forN 8 (fun s st => s.sendScrubs st ((xs.filter (fun x => decide (x.1 = st))).map (fun x => e.desc x.2.1 x.2.2))) s

/-- Extents of a slot on a stack: of every layer and head up to the append high-water, the pages from 0 (R498). -/
def State.slotExtents (s : State) (st slot : Nat) : List (Nat × Nat × Nat) :=
  let k := s.stack st
  match Table.look k.hw slot with
  | none => []
  | some (layer, pos) =>
    let v := k.kvOf slot
    (List.range (layer + 1)).flatMap (fun l => (List.range (kvHkv v)).map (fun h =>
      let a := kvPage v l h 0
      (st, a / 512, (a + (pos / 16 + 1) * kvPgsz v + 511) / 512 - a / 512)))

/-- Extents of a tenant: both version buffers, the master copy and both moments of each of its entries (Tables 9.3, 21.10). -/
def State.tenantExtents (s : State) (t : Nat) : List (Nat × Nat × Nat) :=
  (List.range 8).flatMap (fun st =>
    ((s.stack st).dir.filter (fun e => decide (eTen e.2 = t))).flatMap (fun e =>
      let ext (a n : Nat) : Nat × Nat × Nat := (st, a / 512, (a + n + 511) / 512 - a / 512)
      let e := e.2
      [ext (eVa e false) (partA e + partB e), ext (eVa e true) (partA e + partB e), ext (eF e 0x20 8) (4 * eNpar e),
       ext (eF e 0x28 8) (8 * eNpar e), ext (eF e 0x30 8) (8 * eNpar e)]))

/-- The stack granules of an interleaved range (R239, R240): runs of a whole 128 KiB are one extent on each stack, and the rest go granule by granule. -/
def interExtents (a n : Nat) : List (Nat × Nat × Nat) :=
  let lo := a / 512
  let hi := (a + n + 511) / 512
  let w0 := (lo + 255) / 256
  let w1 := hi / 256
  let each (g m : Nat) : List (Nat × Nat × Nat) := (List.range m).map (fun i => let (st, sa) := memOfLocal ((g + i) * 512); (st, sa / 512, 1))
  if n = 0 then []
  else if w0 < w1 then each lo (w0 * 256 - lo) ++ (List.range 8).map (fun st => (st, 32 * w0, 32 * (w1 - w0))) ++ each (w1 * 256) (hi - w1 * 256)
  else each lo (hi - lo)

/-- An image erasure is in progress, for which a state transition or a load waits (R501). -/
def State.erasingImage (s : State) : Bool := s.mgmt.erase.any (fun e => match e.what with | .image _ => true | _ => false)

/-- The placed image is discarded and 0x9001:01 is 0: the on-die state is cleared, and the erasure of its memory begins (Table 21.10). [DEDUCED, log entry 117: unsafe] -/
def State.discardImage (s : State) : State :=
  match s.loader.image with
  | none => { s with loader := { s.loader with img := 0, rmap := [] } }
  | some im =>
    let s := { s.clearDie with loader := { s.loader with img := 0, image := none, rmap := [] } }
    s.eraseBegin (.image im.imgid) (interExtents s.loader.mbase.toNat im.msize)

/-- Every burst of the granules that a failed SCRUB leaves with an uncorrectable burst becomes uncorrectable (R502). -/
def State.badGranules (s : State) (st first n : Nat) : State :=
  let lo := memKey st (first * 512) / 64
  let hit := s.badMem.filter (fun b => decide (lo ≤ b) && decide (b < lo + 8 * n))
  hit.foldl (fun s b => (List.range 8).foldl (fun s i =>
    let x := b / 8 * 8 + i
    if s.badMem.contains x then s else { s with badMem := (s.badMem.filter (· < x)) ++ x :: (s.badMem.filter (x < ·)) }) s) s

/-- A slot is quarantined until the next start (R502). -/
def State.quarantine (s : State) (e : Erasure) : State :=
  match e.what with
  | .slot n => if s.mgmt.quar.contains n then s else { s with mgmt := { s.mgmt with quar := s.mgmt.quar ++ [n] } }
  | _ => s

/-- A completed SCRUB of the management subsystem: one that ends in ECC is repeated once; a second failure, or another status, is a failure of the erasure (R501, R502). [DEDUCED, log entry 115: unsafe] -/
def State.scrubDone (s : State) (st : Nat) (c : NCmd) : State :=
  let p0 := dP c.desc 0
  let p1 := dP c.desc 1
  let mine (o : Nat × Nat × Nat × Bool) : Bool := decide (o.1 = st) && decide (o.2.1 = p0) && decide (o.2.2.1 = p1)
  if dOp c.desc ≠ 15 ∨ c.dev ≠ s.own ∨ c.node ≠ mgmtNode then s
  else match s.mgmt.erase.find? (fun e => decide (e.id % 2 ^ 16 = dTag c.desc) && e.outs.any mine) with
  | none => s
  | some e =>
    let again := e.outs.any (fun o => mine o && o.2.2.2)
    let put (s : State) (e : Erasure) : State := { s with mgmt := { s.mgmt with erase := s.mgmt.erase.map (fun x => if x.id = e.id then e else x) } }
    let fin (s : State) (e : Erasure) : State :=
      let e := { e with outs := e.outs.filter (fun o => !mine o) }
      if e.outs.isEmpty then s.erasureEnd e else put s e
    if c.status = 0 then fin s e
    else if c.status = nEcc ∧ again = false then
      (put s { e with outs := e.outs.map (fun o => if mine o then (o.1, o.2.1, o.2.2.1, true) else o) }).sendScrubs st [e.desc p0 p1]
    else
      let s := (s.badGranules st p0 p1).logEv 0x1404 true (e.what.field ++ lf st ++ lf p0 ++ lf c.status.toNat)
      fin (s.quarantine e) { e with failed := true }

/-- Erasures that a start interrupts are completed by it from the pending-erasure record (R503). -/
def State.finishErasures (s : State) : State :=
  s.mgmt.pending.foldl (fun s e =>
    let s := e.outs.foldl (fun s o =>
      let lo := memKey o.1 (o.2.1 * 512)
      let hi := lo + o.2.2.1 * 512
      ({ s with mem := s.mem.filter (fun c => decide (c.1 < lo) || decide (hi ≤ c.1)) }).cleanBursts lo (hi - lo)) s
    s.erasureEnd e) s

/-! ## Completion of Newt commands (R206) -/

/-- NEWT_COMMAND_COMPLETE (R206): with every result row and stack write acknowledged, the record is written where CRE = 1, and the semaphore add is sent after its acknowledgement, or at once without a record. -/
def execNewtCommandComplete (st : StackId) (id : Nat) (s : State) : Out :=
  match (s.stack st.toNat).cmds.find? (fun c => decide (c.id = id)) with
  | none => .next s
  | some c =>
    if c.phase = .write ∧ c.outs.isEmpty ∧ s.redsGone st.toNat c then
      if dCre c.desc then
        let (s, tid) := s.newtTid st.toNat
        let s := s.modCmd st.toNat id (fun c => { c with phase := .record, outs := [(tid, 0)] })
        .next (s.inject ((s.mkPkt .wr (stackNode st.toNat) 1 tid (BitVec.ofNat 56 (dCra c.desc))).withPayload (c.record (s.beat.bcnt.setWidth 32))))
      else .next ((s.newtDone st.toNat c).scrubDone st.toNat c)
    else .next s

/-! ## Tenant release (R499) -/

/-- A half binds a tenant. -/
def boundTo (half t : Nat) : Bool := half.testBit 31 && decide (half % 2 ^ 12 = t)

/-- Whether an entry of the adapter index table still binds a tenant (R499): its NEW half, or its OLD half while EFF lies ahead. -/
def State.tenantBound (s : State) (t : Nat) : Bool :=
  match s.loader.image with
  | none => false
  | some im => match im.aitoff with
    | none => false
    | some o => (List.range 512).any (fun i =>
        let e := s.localRead (s.loader.mbase.toNat + o + 16 * i) 16
        boundTo (leNat (e.drop 12)) t
          || (boundTo (leNat ((e.drop 8).take 4)) t && decide (0 < (BitVec.ofNat 32 (leNat (e.take 4)) - s.beat.bcnt.setWidth 32).toInt)))

/-- The reads of the adapter index table for that test. -/
def State.sawIndex (s : State) : State :=
  match s.loader.image.bind (·.aitoff) with
  | some o => s.localSee (s.loader.mbase.toNat + o) 8192
  | none => s

/-- Whether 0x7031:01 takes a value: 1 to 4,095, and no slot bound to it. -/
def State.mayRelease (s : State) (t : Nat) : Bool := decide (1 ≤ t) && decide (t ≤ 4095) && !s.tenantBound t

/-- A tenant's adapter regions are erased on every stack. -/
def State.tenantRelease (s : State) (t : Nat) : State := s.sawIndex.eraseBegin (.tenant t) (s.tenantExtents t)

end Sys2Proof.Machine
end

