-- ==== Sys2Proof/Machine/Recovery.lean ====
section
/-! DEFINITION. AXOLOTL: entry with the saving of contexts, recovery images, and the way back (R316, R318, R504-R506); placement of a kept image (R383). -/

namespace Sys2Proof.Machine

/-! ## Placing a kept image (R383) -/

/-- The staged image is read: whether the TOTAL bytes in the staging area have the hash `h`. -/
def State.stagedHash (s : State) (h : List Byte) : State × Bool :=
  let base := s.stageBase
  let s := s.localSee base 64
  let total := leAt (s.localRead base 64) 0x20 8
  if s.localBad base 64 ∨ 0xFFFFFFE0 < total then (s, false)
  else
    let s := s.localSee base total
    (s, !s.localBad base total && decide (sha512 (s.localRead base total) = h))

/-- Steps 1 and 3 to 9 of Table 16.9 with the record's MBASE and peer table, and step 10 without the record (R383). -/
def State.replace (s : State) : LRes :=
  match s.loader.record.read with
  | none => .fail .stage s
  | some r =>
    match s.loadCheck s.stageBase r.mbase.toNat false true with
    | (s, .inl st) => .fail st s
    | (s, .inr (im, rmap)) =>
      match s.placeImage im rmap r.mbase.toNat r.peers with
      | (.fault f, _) => .fault f
      | (.fail st s, _) => .fail st s
      | (.ok s, im) =>
        .ok { s with loader := { s.loader with img := 3, hash := r.hash, imgid := r.imgid, mbase := r.mbase, peers := r.peers, start := 0, image := some im, rmap } }

/-! ## Entry (R504) -/

/-- Writes into the AXOLOTL area; every such write covers whole bursts. -/
def State.areaWrite (s : State) (off : Nat) (bs : List Byte) : State := (s.putBytes (bs.length / 512 + 2) (s.axBase + off) bs).1

/-- The header of the AXOLOTL area (Table 21.12). -/
def State.axoHeader (s : State) (complete : Bool) : State :=
  s.areaWrite 0 (leBytes 8 0x4C4F5841 ++ leBytes 8 s.beat.bcnt.toNat ++ leBytes 8 s.loader.imgid.toNat ++ leBytes 8 (bnat complete) ++ leBytes 32 0)

/-- The AXOLOTL area overlaps the placed image's memory or the staging area (R504). -/
def State.axoOverlap (s : State) : Bool :=
  overlap s.axBase areaBytes s.stageBase areaBytes
    || (match s.loader.image with | some im => overlap s.axBase areaBytes s.loader.mbase.toNat im.msize | none => false)

/-- Recovery can start from the state in force (Table 19.7). -/
def State.axoFrom (s : State) : Bool :=
  (decide (s.dev.st = .ready) || decide (s.dev.st = .run) || decide (s.dev.st = .hold)) && s.mgmt.axo.isNone

/-- Cores of enabled regions that run. -/
def State.runningCores (s : State) : List Nat :=
  (s.cores.filter (fun kv => s.coreOn kv.1 && decide (kv.2.run.st = .running))).map (·.1)

/-- Steps 1 and 2 of R504. [DEDUCED, log entry 119: unsafe] -/
def State.axoStart (s : State) : State :=
  let run := s.runningCores
  let s := { s with beat := s.beat.setSten false, host := { s.host with slIn := false, slRt := false } }
  let s := run.foldl (fun s c => s.modCore (BitVec.ofNat 10 c) (fun k => { k with cpu := { k.cpu with intp := k.cpu.intp ||| 1 } })) s
  { s with mgmt := { s.mgmt with axo := some (.cores (s.beat.devt.toNat + 2250000) run) } }.axoHeader false

/-- Step 4: DIS on every channel, HALTQ on every engine. -/
def State.quiesce (s : State) : State :=
  let s := forN 64 (fun s cl => forN 8 (fun s ch => s.disableChan cl ch) s) s
  forN 8 (fun s i => s.setStack i { s.stack i with haltq := true }) s

/-- Every core of an enabled region has stopped, after what a fence with all scopes waits for (R318). -/
def State.coresDrained (s : State) : Bool :=
  !s.anyRunning && (List.range 1024).all (fun c => !s.coreOn c ||
    s.fenceClear (BitVec.ofNat 10 c) 7)

/-- No channel of an enabled cluster is QUEUED, RUN or WAIT (R318). -/
def State.chansEnded (s : State) : Bool :=
  (List.range 64).all (fun cl => !s.cluOn cl || (List.range 8).all (fun ch =>
    !(decide ((s.chan cl ch).st = .queued) || decide ((s.chan cl ch).st = .run) || decide ((s.chan cl ch).st = .wait))))

/-- No semaphore packet or answer to one is on its way, and no message row or contribution that its core can take (R318). -/
def State.senderQuiet (s : State) : Bool :=
  s.net.zipIdx.all (fun x => decide (x.1.kind ≠ .sem) && decide (x.1.kind ≠ .sack)
    && !((decide (x.1.kind = .msg) || decide (x.1.kind = .cmb)) && x.1.isRow && s.mayArrive x.2 x.1))

/-- Every sender that can reach a context's semaphores has stopped (R318, R504 steps 3 to 5). [DEDUCED, log entry 160: unsafe] -/
def State.contextsQuiet (s : State) : Bool :=
  s.coresDrained && s.chansEnded && s.senderQuiet && s.vmQuietAll && (List.range 8).all (fun i => (s.stack i).idle)

/-- RC_STAT of a core (Table 16.7). -/
def Core.rcStat (k : Core) : Nat := k.run.st.code * 2 ^ 30 + k.run.spc.toNat

/-- Step 5: semaphore values, watch entries and core states into the area (R318, Table 21.12). -/
def State.saveContexts (s : State) (unsaved : List Nat) : State :=
  let s := forN 1024 (fun s c =>
    if s.coreOn c then
      s.areaWrite (0x1000 + 192 * c) ((List.range 48).flatMap (fun i => leBytes 4 (s.semVal (clusterOf c) (kOf c * 48 + i)).toNat))
    else s) s
  let s := forN 64 (fun s cl =>
    if s.cluOn cl then
      s.areaWrite (0x31000 + 2048 * cl) ((List.range 64).flatMap (fun w => leBytes 32 (Table.get 0 (s.clu cl).sync.watches w).toNat))
    else s) s
  let s := s.areaWrite 0x51000 ((List.range 1024).flatMap (fun c =>
    if s.coreOn c then
      let k := s.core (BitVec.ofNat 10 c)
      leBytes 4 k.rcStat ++ leBytes 4 k.cpu.intp.toNat ++ leBytes 8 (bnat (!unsaved.contains c))
    else leBytes 16 0))
  s.axoHeader true

/-- What entry to AXOLOTL waits for, looked at again (R504, Table 21.13). -/
def State.axoPoll (s : State) : State :=
  match s.mgmt.axo with
  | none => s
  | some x =>
    if s.dev.st = .fault then { s with mgmt := { s.mgmt with axo := none } }
    else match x with
    | .cores due asked =>
      let left := asked.filter (fun c => decide ((s.core (BitVec.ofNat 10 c)).run.st = .running))
      let go (s : State) (un : List Nat) : State := { s with mgmt := { s.mgmt with axo := some (.engines un) } }.quiesce
      if left.isEmpty then go s []
      else if due ≤ s.beat.devt.toNat then
        go (left.foldl (fun s c => s.stopReq (BitVec.ofNat 10 c)) s) left
      else s
    | .engines un =>
      if s.contextsQuiet = false then s
      else
        let s := { s with mgmt := { s.mgmt with axo := none } }
        ((s.saveContexts un).setVm true).toState .axolotl 0

/-! ## Back to READY (R506) -/

/-- The value words and watch entries that the area holds, by core and by cluster; a block that cannot be read is left out. -/
def State.savedContexts (s : State) : List (Nat × List Byte) × List (Nat × List Byte) :=
  let get (off n : Nat) : Option (List Byte) := if s.localBad (s.axBase + off) n then none else some (s.localRead (s.axBase + off) n)
  (((List.range 1024).filter s.coreOn).filterMap (fun c => (get (0x1000 + 192 * c) 192).map (fun b => (c, b))),
   ((List.range 64).filter s.cluOn).filterMap (fun cl => (get (0x31000 + 2048 * cl) 2048).map (fun b => (cl, b))))

/-- The reads of the saved contexts. -/
def State.sawContexts (s : State) : State :=
  let s := ((List.range 1024).filter s.coreOn).foldl (fun s c => s.localSee (s.axBase + 0x1000 + 192 * c) 192) s
  ((List.range 64).filter s.cluOn).foldl (fun s cl => s.localSee (s.axBase + 0x31000 + 2048 * cl) 2048) s

/-- Step 4: value words first, then watch entries (R318); a word beyond 2^31 - 1 is refused and leaves its semaphore as it is (R301). -/
def State.restoreContexts (s : State) (sems watches : List (Nat × List Byte)) : State :=
  let s := sems.foldl (fun s x => (List.range 48).foldl (fun s i =>
    let idx := kOf x.1 * 48 + i
    let v := leAt x.2 (4 * i) 4
    if 2 ^ 31 ≤ v then s else (s.putSem (clusterOf x.1) idx (BitVec.ofNat 32 v)).semChanged (clusterOf x.1) idx) s) s
  watches.foldl (fun s x => (List.range 64).foldl (fun s w =>
    [3, 2, 1, 0].foldl (fun s j => s.writeWatch x.1 w j (leAt x.2 (32 * w + 8 * j) 8)) s) s) s

/-- HALTQ, which the entry to AXOLOTL set on every engine, goes, so that SCRUB rows are taken. -/
def State.admitScrubs (s : State) : State := forN 8 (fun s i => s.setStack i { s.stack i with haltq := false }) s

/-- The recovery image is discarded, with what else goes then: the on-die state is cleared, and the erasure of the memory begins (Table 21.10). -/
def State.dropRecovery (s : State) (id : DWord) (more : List (Nat × Nat × Nat)) : State :=
  let mine := match s.mgmt.rimage with | some (im, _, mb) => interExtents mb.toNat im.msize | none => []
  { s.clearDie.admitScrubs with mgmt := { s.mgmt with rimage := none } }.eraseBegin (.image id) (more ++ mine)

/-- The way out of AXOLOTL begins, with what is to be restored: the area, the recovery image's memory and the on-die state are erased (R506, Table 21.10). -/
def State.axoLeave (s : State) (ctx : List (Nat × List Byte) × List (Nat × List Byte)) : State :=
  let s := (s.setVm false).dropRecovery s.loader.imgid (interExtents s.axBase areaBytes)
  { s with mgmt := { s.mgmt with leaving := some ctx } }

/-- AXOLOTL is left for a state. -/
def State.axoOut (s : State) (d : DevSt) : State := { s with mgmt := { s.mgmt with leaving := none } }.toState d 0

/-- Steps 3 and 4 of R506, once what is left behind is erased; an image that is not placed again is discarded. -/
def State.axoPlace (s : State) (ctx : List (Nat × List Byte) × List (Nat × List Byte)) : LRes :=
  match s.stagedHash s.loader.hash with
  | (s, false) => .fail .state s.discardImage
  | (s, true) =>
    match s.replace with
    | .fault f => .fault f
    | .fail st t => .fail st t.discardImage
    | .ok t => .ok ((t.restoreContexts ctx.1 ctx.2).axoOut .ready)

/-! ## Recovery images (R505) -/

/-- The status of a recovery load (Table 16.10); one that is not OK is logged and raises Croak. -/
def State.recoveryStatus (s : State) (st : LStat) (imgid : Nat) : State :=
  let s := { s with mgmt := { s.mgmt with rlStat := BitVec.ofNat 8 st.code, rwait := none } }
  if st = .ok then s else s.logEv 0x1001 true (lf st.code ++ lf imgid)

/-- Steps 6 to 9 and the release of a recovery image that has passed steps 1 to 5 (R505, R501). -/
def State.recoveryStore (s : State) (im : Image) (rmap : List Nat) (mbase : DWord) (id : Nat) : Out :=
  match s.placeImage im rmap mbase.toNat [] with
  | (.fault f, _) => .fault f
  | (.fail st s, _) => .next (s.recoveryStatus st id)
  | (.ok s, im) =>
    match s.releaseImage im rmap mbase.toNat (s.beat.bcnt.toNat + 2) with
    | (.fault f, _) => .fault f
    | (.fail st s, _) => .next (s.recoveryStatus st id)
    | (.ok s, im) => .next ({ s with mgmt := { s.mgmt with rimage := some (im, rmap, mbase) } }.recoveryStatus .ok id)

/-- What follows steps 1 to 5 of a recovery load, on their answer: an earlier recovery image `old` is erased before the new one is placed (R505, R501). -/
def recoveryAfter (old : Option (Image × List Nat × DWord)) (mbase : DWord) (id : Nat) : State × (LStat ⊕ (Image × List Nat)) → Out
  | (s, .inl st) => .next (s.recoveryStatus st id)
  | (s, .inr (im, rmap)) =>
    match old with
    | none => s.recoveryStore im rmap mbase id
    | some (old, _, _) =>
      let s := s.dropRecovery old.imgid []
      .next { s with mgmt := { s.mgmt with rwait := some mbase } }

/-- Steps 1 to 9 and the release of a recovery load, once every core has stopped (R505). -/
def State.recoveryPlace (s : State) (mbase : DWord) : Out :=
  let base := s.axBase + 0x100000
  recoveryAfter s.mgmt.rimage mbase (leAt (s.localRead base 64) 8 8) (s.loadCheck base mbase.toNat true true)

/-- A recovery load (R505): steps 1 to 5 are tried first, then every core is stopped. [DEDUCED, log entry 121: unsafe] -/
def State.recoveryLoad (s : State) (mbase : DWord) : Out :=
  if s.anyRunning then
    match s.loadCheck (s.axBase + 0x100000) mbase.toNat true true with
    | (t, .inl st) => .next (t.recoveryStatus st (leAt (s.localRead (s.axBase + 0x100000) 64) 8 8))
    | (_, .inr _) => .next ({ s with mgmt := { s.mgmt with rwait := some mbase } }.stopAll)
  else s.recoveryPlace mbase

/-- A recovery load that waits for cores to stop, or for an erasure, looked at again. -/
def State.recoveryPoll (s : State) : Out :=
  match s.mgmt.rwait with
  | none => .next s
  | some mb =>
    if s.dev.st ≠ .axolotl then .next { s with mgmt := { s.mgmt with rwait := none } }
    else if s.anyRunning || s.erasingImage then .next s
    else s.recoveryPlace mb

end Sys2Proof.Machine
end

