-- ==== Sys2Proof/Machine/Dict.lean ====
section
/-! DEFINITION. The object dictionary (chapter 19): its entries and their values, the access checks of Table 19.3, and what a write does. -/

namespace Sys2Proof.Machine

/-! ## Types and classes (Tables 19.1, 19.2) -/

/-- Entry types. -/
inductive DType where
  | bool | u8 | u16 | u32 | u64 | i32 | f32 | str | blob
deriving DecidableEq, Repr

/-- Type codes (Table 19.1). -/
def DType.code : DType → Nat
  | .bool => 1 | .u8 => 2 | .u16 => 3 | .u32 => 4 | .u64 => 5 | .i32 => 6 | .f32 => 7 | .str => 8 | .blob => 9

/-- Bytes of a type of fixed size. -/
def DType.size : DType → Option Nat
  | .bool => some 1 | .u8 => some 1 | .u16 => some 2 | .u32 => some 4 | .u64 => some 8 | .i32 => some 4 | .f32 => some 4
  | .str => none | .blob => none

/-- Access classes. -/
inductive DClass where
  | const | ro | rw | rwp | wo
deriving DecidableEq, Repr

/-- An entry: type, class, the value a read returns, and the fixed length of a BLOB that states one. -/
structure DEnt where
  type  : DType
  cls   : DClass
  value : List Byte
  fixed : Option Nat := none
deriving DecidableEq, Repr

/-- Status codes of Table 18.7. -/
def stOk : Nat := 0x00
def stBadop : Nat := 0x20
def stBadlen : Nat := 0x21
def stState : Nat := 0x22
def stAccess : Nat := 0x23
def stRange : Nat := 0x24
def stLate : Nat := 0x25
def stTenant : Nat := 0x26
def stMemerr : Nat := 0x27
def stHosterr : Nat := 0x28
def stSemerr : Nat := 0x29
def stNoentry : Nat := 0x2A
def stBusy : Nat := 0x2B

/-! ## Firmware images (R492) -/

/-- Last 1,024 bytes of an image: the root modulus and the signature. -/
def fwTail (bs : List Byte) : List Byte × List Byte :=
  ((bs.drop (bs.length - 1024)).take 512, bs.drop (bs.length - 512))

/-- VERSION of an image. -/
def FwImg.version : FwImg → Nat
  | .made v _ => v.toNat
  | .bytes bs => leAt bs 4 4

/-- SVN of an image. -/
def FwImg.svn : FwImg → Nat
  | .made _ n => n
  | .bytes bs => leAt bs 8 1

/-- An image verifies (R492): its modulus has the hash FWROOT, its signature is good, its SVN is at least MINSVN. [DEDUCED, log entry 122: unsafe] -/
def FwImg.verifies (minsvn : Nat) : FwImg → Bool
  | .made _ n => decide (minsvn ≤ n)
  | .bytes bs =>
    let (m, sig) := fwTail bs
    decide (64 + 1024 ≤ bs.length) && decide (minsvn ≤ leAt bs 8 1) && decide (sha512 m = Config.fwRoot) && pssVerify m (bs.take (bs.length - 512)) sig

/-- The image of a slot; `true` is slot B. -/
def Mgmt.fwOf (m : Mgmt) (b : Bool) : FwImg := if b then m.slotB else m.slotA

/-! ## Values -/

/-- The F32 value of a ratio of two integers. -/
def f32Ratio (a : Int) (b : Int) : List Byte := bytesOf (toFp32 ((ofInt a).div (ofInt b))) 4

/-- An entry of an unsigned type. [DEDUCED, log entry 136: unsafe] -/
def dNum (t : DType) (c : DClass) (v : Nat) : Option DEnt :=
  some { type := t, cls := c, value := leBytes ((t.size).getD 1) v }

/-- A counter of the dictionary (R443). -/
def State.dCount (s : State) (index sub : Nat) : Option DEnt := dNum .u64 .ro (Table.get 0 s.cnt (index * 256 + sub))

/-- An RWP number with its default. -/
def State.dSet (s : State) (t : DType) (index sub dflt : Nat) : Option DEnt := dNum t .rwp (s.setting index sub dflt)

/-- Printable text. -/
def ascii (t : String) : List Byte := t.toList.map (fun c => BitVec.ofNat 8 c.toNat)

/-- Part number (R2): an EV4-M432-B has two regions disabled. -/
def State.partNo (s : State) : String := if s.dev.map = 0xFFFF then "EV4-M576-A" else "EV4-M432-B"

/-- The number of enabled regions. -/
def State.regionCount (s : State) : Nat := ((List.range 16).filter s.dev.map.getLsbD).length

/-- A sensor's F32 value, or its replacement while invalid (Table 21.3). -/
def State.sensorVal (s : State) (i : Nat) (bad : Word) : List Byte :=
  let x := s.sensor i
  bytesOf (if x.bad then bad else x.bits) 4

/-- Sense current, A: p_peak over the voltage while the sensor is invalid. -/
def State.current (s : State) : List Byte :=
  let x := s.sensor 129
  if x.bad then bytesOf (toFp32 ((ofInt s.power.ppeak).div (fp32.decode (s.sensor 128).bits.toNat))) 4 else bytesOf x.bits 4

/-- Range 0x0000 (Table 19.10). -/
def State.dict0 (s : State) (index sub : Nat) : Option DEnt :=
  match index, sub with
  | 0x0001, 1 => some { type := .str, cls := .const, value := ascii s.partNo }
  | 0x0001, 2 => dNum .u8 .const (if s.dev.b0 then 0x10 else 0)
  | 0x0001, 3 => some { type := .str, cls := .const, value := (List.range 16).map (fun i => BitVec.ofNat 8 (0x20 + (Config.serialChar i).toNat % 95)) }
  | 0x0001, 4 => dNum .u64 .const Config.dieId.toNat
  | 0x0001, 5 => dNum .u32 .ro (s.mgmt.fwOf s.mgmt.slot).version
  | 0x0001, 6 => dNum .u8 .ro (bnat s.mgmt.slot)
  | 0x0001, 7 => dNum .u16 .const 0x0100
  | 0x0002, 1 => dNum .u8 .ro s.dev.st.code
  | 0x0002, 2 => dNum .u8 .ro s.dev.holds.toNat
  | 0x0002, 3 => dNum .u8 .ro s.dev.cause.toNat
  | 0x0002, 4 => dNum .u64 .ro s.dev.lastB.toNat
  | 0x0002, 5 => dNum .u8 .ro s.dev.prev.code
  | 0x0003, 1 => dNum .u8 .wo 0
  | 0x0003, 2 => dNum .u8 .wo 0
  | 0x0003, 3 => dNum .u8 .ro s.mgmt.kind
  | 0x0003, 4 => dNum .u32 .ro s.mgmt.colds
  | 0x0003, 5 => dNum .u32 .ro s.mgmt.writes
  | _, _ => none

/-- Range 0x1000 (Tables 15.9, 11.10). -/
def State.dict1 (s : State) (index sub : Nat) : Option DEnt :=
  match index, sub with
  | 0x1000, 1 => s.dSet .u8 index sub 0
  | 0x1000, 2 => s.dSet .u8 index sub 0
  | 0x1000, 3 => s.dSet .u16 index sub 2250
  | 0x1000, 4 => s.dSet .u16 index sub 0
  | 0x1001, 1 => dNum .u64 .ro s.beat.bcnt.toNat
  | 0x1001, 2 => dNum .u8 .ro s.beat.lock.code
  | 0x1002, 1 => s.dSet .u16 index sub 1125
  | 0x1002, 2 => s.dSet .u16 index sub 256
  | 0x1002, 3 => s.dSet .u8 index sub 4
  | 0x1002, 4 => s.dSet .u32 index sub 1048576
  | 0x1003, 1 => dNum .u32 .ro s.beat.lag.toNat
  | 0x1003, n => if 2 ≤ n ∧ n ≤ 9 then s.dCount index sub else none
  | 0x1010, 1 => s.dSet .u8 index sub 0
  | _, _ => none

/-- Range 0x2000 (Tables 19.11, 20.10). -/
def State.dict2 (s : State) (index sub : Nat) : Option DEnt :=
  let f (c : DClass) (v : List Byte) : Option DEnt := some { type := .f32, cls := c, value := v }
  match index, sub with
  | 0x2000, 1 => s.dSet .u16 index sub 1800
  | 0x2000, 2 => s.dSet .u16 index sub 2000
  | 0x2001, 1 => f .ro (bytesOf (s.sensor 128).bits 4)
  | 0x2001, 2 => f .ro s.current
  | 0x2001, 3 => f .ro (f32Ratio s.inputMw 1000)
  | 0x2002, 1 => dNum .u8 .ro s.power.supply.code
  | 0x2002, 2 => f .ro (f32Ratio s.power.bucket 2250000000000)
  | 0x2003, 1 => f .ro (f32Ratio s.power.that degree)
  | 0x2003, 2 => f .const (leBytes 4 0x42D20000)
  | 0x2004, 1 => dNum .u8 .ro s.power.duty
  | 0x2005, n => if 1 ≤ n ∧ n ≤ 3 then s.dCount index sub else none
  | 0x2010, n => if 1 ≤ n ∧ n ≤ 64 then f .ro (s.sensorVal (n - 1) 0x42D20000) else none
  | 0x2011, n => if 1 ≤ n ∧ n ≤ 64 then f .ro (s.sensorVal (64 + (n - 1)) 0x42BE0000) else none
  | 0x2020, 1 => dNum .u16 .rw s.power.req.toNat
  | 0x2020, 2 => dNum .u16 .ro s.dev.powered.toNat
  | 0x2020, 3 => dNum .u16 .ro s.power.busyR.toNat
  | 0x2030, n => if 1 ≤ n ∧ n ≤ 14 then dNum .u32 .ro (Table.get 0 s.power.durs n).toNat else none
  | _, _ => none

/-- Range 0x3000 (Table 10.8, R210, R221). -/
def State.dict3 (s : State) (index sub : Nat) : Option DEnt :=
  match index, sub with
  | 0x3000, 1 => dNum .u8 .const 8
  | 0x3000, 2 => dNum .u64 .const memTop
  | 0x3001, 1 => dNum .bool .ro (bnat ((List.range 8).all (fun i => (s.stack i).kept)))
  | 0x3002, n => if 1 ≤ n ∧ n ≤ 8 then s.dCount index sub else none
  | 0x3003, n => if 1 ≤ n ∧ n ≤ 8 then s.dCount index sub else none
  | 0x3004, n => if 1 ≤ n ∧ n ≤ 8 then dNum .u8 .ro (s.stack (n - 1)).rate else none
  | 0x3010, 1 => s.dSet .bool index sub 1
  | 0x3010, 2 => s.dSet .u32 index sub 1024
  | 0x3010, 3 => s.dSet .f32 index sub 0x41000000
  | 0x3010, 4 => s.dSet .u8 index sub 4
  | 0x3010, 5 => dNum .u16 .ro s.imb.hot
  | 0x3010, 6 => dNum .f32 .ro s.imb.ratio.toNat
  | 0x3010, 7 => s.dCount index sub
  | 0x3020, 1 => s.dSet .u16 index sub 24
  | _, n =>
    if 0x3100 ≤ index ∧ index < 0x3108 then
      let k := s.stack (index - 0x3100)
      if 1 ≤ n ∧ n ≤ 4 then s.dCount index sub
      else if n = 5 then dNum .bool .rw (bnat k.en)
      else if n = 6 then dNum .bool .rw (bnat k.haltq)
      else if n = 7 then dNum .bool .ro (bnat k.idle)
      else none
    else none

/-- Range 0x4000 (R2, R126, R133, Tables 11.10, 12.14, 13.18, 14.10). -/
def State.dict4 (s : State) (index sub : Nat) : Option DEnt :=
  let upto (n : Nat) : Option DEnt := if 1 ≤ sub ∧ sub ≤ n then s.dCount index sub else none
  match index, sub with
  | 0x4001, 1 => dNum .u16 .const s.dev.map.toNat
  | 0x4001, 2 => dNum .u16 .const (64 * s.regionCount)
  | 0x4020, _ => upto 3
  | 0x4030, _ => upto 5
  | 0x4040, _ => upto 5
  | 0x4050, _ => upto 4
  | 0x4060, _ => upto 3
  | _, _ => none

/-- The module's static address on I3C: 0x30 plus its board position (Table 23.2). -/
def State.i3cAddr (s : State) : BitVec 7 := 0x30 + s.links.board.setWidth 7

/-- Range 0x5000 (Table 17.10). -/
def State.dict5 (s : State) (index sub : Nat) : Option DEnt :=
  match index, sub with
  | 0x5000, 1 => dNum .u16 .rwp s.links.devId.toNat
  | 0x5000, 2 => dNum .u8 .ro s.links.board.toNat
  | 0x5000, 3 => s.dSet .u32 index sub 0x3FFFF
  | 0x5001, 1 => some { type := .blob, cls := .rwp, value := (Table.look s.mgmt.vals 0x500101).getD (leBytes 4096 0), fixed := some 4096 }
  | _, n =>
    if 0x5100 ≤ index ∧ index < 0x5112 then
      let t := s.port (index - 0x5100)
      if n = 1 then dNum .u8 .ro t.st.code
      else if n = 2 then dNum .u16 .ro t.peer.toNat
      else if n = 3 then dNum .u8 .ro t.pport.toNat
      else if n = 4 then dNum .u16 .ro t.ctlLat.toNat
      else if n = 5 then dNum .u16 .ro t.dataLat.toNat
      else if 6 ≤ n ∧ n ≤ 11 then s.dCount index sub
      else none
    else none

/-- Range 0x6000 (Table 18.9). -/
def State.dict6 (s : State) (index sub : Nat) : Option DEnt :=
  match index, sub with
  | 0x6000, 1 => dNum .u16 .const Config.vendorId.toNat
  | 0x6000, 2 => dNum .u16 .const (if s.dev.map = 0xFFFF then 0xE401 else 0xE402)
  | 0x6001, 1 => dNum .u8 .ro s.host.speed.toNat
  | 0x6001, 2 => dNum .u8 .ro s.host.width.toNat
  | 0x6002, n => if 1 ≤ n ∧ n ≤ 8 then s.dCount index sub else none
  | 0x6003, 1 => s.dSet .u8 index sub 6
  | _, _ => none

/-- Range 0x7000 (Tables 19.12, 21.14, 22.2). -/
def State.dict7 (s : State) (index sub : Nat) : Option DEnt :=
  let m := s.mgmt
  let blob (c : DClass) (v : List Byte) (n : Option Nat) : Option DEnt := some { type := .blob, cls := c, value := v, fixed := n }
  match index, sub with
  | 0x7000, 1 => blob .const ((List.range 512).map Config.identityByte) (some 512)
  | 0x7000, 2 => blob .ro (Config.certChain.take 4096) none
  | 0x7001, 1 => dNum .u8 .ro (m.fwOf m.slot).svn
  | 0x7001, 2 => dNum .u8 .ro m.minsvn
  | 0x7001, 3 => dNum .u8 .wo 0
  | 0x7002, 1 => blob .ro m.root (some 64)
  | 0x7002, 2 => blob .wo [] (some 64)
  | 0x7010, 1 => s.dSet .u32 index sub 1
  | 0x7011, n => if 1 ≤ n ∧ n ≤ 32 then blob .ro (Table.get [] m.keys (n - 1)) none else none
  | 0x7012, n => if 1 ≤ n ∧ n ≤ 32 then blob .wo [] none else none
  | 0x7020, 1 =>
    let r := m.selection
    dNum .u8 .ro (bnat r.active + 2 * bnat r.trial.isSome + 4 * (r.tries % 2))
  | 0x7020, 2 =>
    let o := m.fwOf (!m.slot)
    dNum .u32 .ro (if o.verifies m.minsvn then o.version else 0)
  | 0x7030, 1 => s.dCount index sub
  | 0x7030, 2 => s.dCount index sub
  | 0x7030, 3 => dNum .u16 .ro m.quar.length
  | 0x7031, 1 => dNum .u16 .wo 0
  | 0x7040, 1 => s.dSet .bool index sub 0
  | 0x7040, 2 => blob .ro s.mon.modulus none
  | 0x7040, 3 => blob .wo [] none
  | 0x7040, 4 => dNum .u8 .ro (bnat s.mon.unlocked)
  | 0x7040, 5 => dNum .u32 .ro s.mon.unlocks
  | 0x7050, 1 => dNum .u8 .wo 0
  | 0x7050, 2 => s.dSet .u64 index sub 0x8E00000000
  | 0x7050, 3 => dNum .u64 .wo 0
  | 0x7050, 4 => dNum .u8 .ro m.rlStat.toNat
  | _, _ => none

/-- Range 0x8000 (Tables 19.12, 21.14). -/
def State.dict8 (s : State) (index sub : Nat) : Option DEnt :=
  match index, sub with
  | 0x8000, 1 => dNum .u64 .ro (match s.log.recs.getLast? with | some r => r.seq | none => 0)
  | 0x8000, 2 => dNum .u64 .ro (match s.log.recs with | r :: _ => r.seq | [] => 0)
  | 0x8000, 3 => dNum .u64 .ro s.log.ackSeq
  | 0x8000, 4 => dNum .u32 .ro s.log.attn
  | 0x8001, 1 => s.dCount index sub
  | 0x8001, 2 => s.dCount index sub
  | _, _ => none

/-- Range 0x9000 (Table 16.16). -/
def State.dict9 (s : State) (index sub : Nat) : Option DEnt :=
  let l := s.loader
  match index, sub with
  | 0x9000, 1 => s.dSet .u64 index sub 0x8F00000000
  | 0x9000, 2 => dNum .u32 .const 0xFFFFFFE0
  | 0x9001, 1 => dNum .u8 .ro l.img.toNat
  | 0x9001, 2 => dNum .u8 .ro l.status.toNat
  | 0x9001, 3 => some { type := .blob, cls := .ro, value := l.hash, fixed := some 64 }
  | 0x9001, 4 => dNum .u64 .ro l.imgid.toNat
  | 0x9001, 5 => dNum .u64 .ro l.start.toNat
  | 0x9001, 6 => dNum .u64 .ro l.mbase.toNat
  | 0x9001, 7 => some { type := .blob, cls := .ro, value := l.peers.flatMap (fun p => bytesOf p 2) }
  | 0x9002, 1 => dNum .u8 .ro l.var
  | 0x9002, 6 => dNum .bool .ro (bnat l.noFreq)
  | 0x9002, n => if 2 ≤ n ∧ n ≤ 5 then s.dCount index sub else none
  | 0x9010, n =>
    if n = 0x20 then dNum .u16 .ro ((s.latency n).getD 0)
    else match s.latency n with
      | some v => dNum .u16 (if n = 4 then .ro else .const) v
      | none => none
  | 0x9011, 1 => dNum .u16 .ro l.cmpN
  | 0x9011, 2 => dNum .u16 .ro l.cmpPos
  | 0x9011, 3 => dNum .u16 .ro l.cmpNeg
  | 0x9011, 4 => dNum .u16 .ro l.cmpOne
  | _, _ => none

/-- Highest subindex of an index (R438); 0 where the index does not exist. -/
def dictMax (index : Nat) : Nat :=
  match index with
  | 0x0001 => 7 | 0x0002 => 5 | 0x0003 => 5
  | 0x1000 => 4 | 0x1001 => 2 | 0x1002 => 4 | 0x1003 => 9 | 0x1010 => 1
  | 0x2000 => 2 | 0x2001 => 3 | 0x2002 => 2 | 0x2003 => 2 | 0x2004 => 1 | 0x2005 => 3 | 0x2010 => 64 | 0x2011 => 64 | 0x2020 => 3 | 0x2030 => 14
  | 0x3000 => 2 | 0x3001 => 1 | 0x3002 => 8 | 0x3003 => 8 | 0x3004 => 8 | 0x3010 => 7 | 0x3020 => 1
  | 0x4001 => 2 | 0x4020 => 3 | 0x4030 => 5 | 0x4040 => 5 | 0x4050 => 4 | 0x4060 => 3
  | 0x5000 => 3 | 0x5001 => 1
  | 0x6000 => 2 | 0x6001 => 2 | 0x6002 => 8 | 0x6003 => 1
  | 0x7000 => 2 | 0x7001 => 3 | 0x7002 => 2 | 0x7010 => 1 | 0x7011 => 32 | 0x7012 => 32 | 0x7020 => 2 | 0x7030 => 3 | 0x7031 => 1 | 0x7040 => 5 | 0x7050 => 4
  | 0x8000 => 4 | 0x8001 => 2
  | 0x9000 => 2 | 0x9001 => 7 | 0x9002 => 6 | 0x9010 => 0x20 | 0x9011 => 4
  | n => if 0x3100 ≤ n ∧ n < 0x3108 then 7 else if 0x5100 ≤ n ∧ n < 0x5112 then 11 else 0

/-- The entry at index:subindex (R438); the vendor test range 0xF000 holds none that the spec gives. -/
def State.entry (s : State) (index sub : Nat) : Option DEnt :=
  if sub = 0 then (if dictMax index = 0 then none else dNum .u8 .const (dictMax index))
  else match index / 0x1000 with
    | 0 => s.dict0 index sub
    | 1 => s.dict1 index sub
    | 2 => s.dict2 index sub
    | 3 => s.dict3 index sub
    | 4 => s.dict4 index sub
    | 5 => s.dict5 index sub
    | 6 => s.dict6 index sub
    | 7 => s.dict7 index sub
    | 8 => s.dict8 index sub
    | 9 => s.dict9 index sub
    | _ => none

/-! ## Access (R441, R445, R447) -/

/-- The paths of Table 19.4; MCTP with the number of the secured session that carries it, if one does. -/
inductive DPath where
  | mailbox | window | varan
  | mctp (session : Option Nat)
deriving DecidableEq, Repr

/-- Whether a session may write range 0x7000 (R447, R491). -/
def State.maySecure (s : State) (session : Option Nat) : Bool :=
  match session with
  | none => false
  | some i => match s.mgmt.sess.find? (fun x => decide (x.id = i) && x.done) with
    | none => false
    | some x => if s.mgmt.root.all (fun b => decide (b = 0)) then true else decide (x.root = some s.mgmt.root)

/-- Check 1: the entry, where it exists and is visible on the path. -/
def State.visible (s : State) (path : DPath) (index sub : Nat) : Option DEnt :=
  if 0xF000 ≤ index ∧ (path ≠ .varan ∨ s.mon.unlocked = false) then none else s.entry index sub

/-- No dictionary path answers: in OFF, and where only the Tadpole ROM's monitor runs (R448, Table 20.6). -/
def State.silent (s : State) : Bool := decide (s.dev.st = .off) || s.mgmt.romOnly

/-- A dictionary read (Table 19.3), a value of more than 1,024 bytes by the host window alone (R422): its status, and the type code, total length and bytes from OFFSET on, at most `most`. [DESIGN CHOICE, log entry 195: unsafe] -/
def State.dictGet (s : State) (path : DPath) (index sub off most : Nat) : Nat × Nat × Nat × List Byte :=
  match s.visible path index sub with
  | none => (stNoentry, 0, 0, [])
  | some e =>
    if e.cls = .wo then (stAccess, 0, 0, [])
    else if path ≠ .window ∧ 1024 < e.value.length then (stRange, 0, 0, [])
    else if off < e.value.length ∨ (off = 0 ∧ e.value = []) then (stOk, e.type.code, e.value.length, (e.value.drop off).take most)
    else (stRange, 0, 0, [])

/-- Check 3 for a write: the state that its chapter asks for. -/
def State.stateOk (s : State) (index sub : Nat) : Bool :=
  match index, sub with
  | 0x5000, 1 => decide (s.dev.st = .preop)
  | 0x2020, 1 => decide (s.dev.st = .preop)
  | 0x7050, 1 => s.axoFrom
  | 0x7050, 3 => decide (s.dev.st = .axolotl)
  | _, _ => true

/-- Check 4 for a write. -/
def DEnt.lenOk (e : DEnt) (n : Nat) : Bool :=
  match e.type.size with
  | some m => decide (n = m)
  | none => match e.fixed with
    | some m => decide (n = m)
    | none => decide (n ≤ 4096)

/-- Check 5: the type's rule (Table 19.1). -/
def DEnt.typeOk (e : DEnt) (bs : List Byte) : Bool :=
  match e.type with
  | .bool => decide (leNat bs ≤ 1)
  | .f32 => decide (bitsOf (leNat bs) 30 23 ≠ 255)
  | .str => bs.all (fun b => decide (0x20 ≤ b.toNat) && decide (b.toNat ≤ 0x7E))
  | _ => true

/-- Check 5: every range that a chapter states. [DEDUCED, log entry 97: unsafe] -/
def State.rangeOk (s : State) (index sub : Nat) (bs : List Byte) : Bool :=
  let v := leNat bs
  let within (a b : Nat) : Bool := decide (a ≤ v) && decide (v ≤ b)
  match index, sub with
  | 0x0003, 1 => within 1 2
  | 0x0003, 2 => decide (v = 0x5A)
  | 0x1000, 1 => within 0 3
  | 0x1000, 2 => within 0 17
  | 0x1000, 3 => within 1125 18000
  | 0x1000, 4 => within 0 4095
  | 0x1002, 2 => within 0 4080 && decide (v % 16 = 0)
  | 0x1002, 3 => within 1 255
  | 0x1010, 1 => within 0 1
  | 0x2000, 1 => within 200 1800 && decide (v ≤ s.setting 0x2000 2 2000)
  | 0x2000, 2 => within 200 2000 && decide (s.setting 0x2000 1 1800 ≤ v)
  | 0x3010, 2 => within 16 65536
  | 0x3010, 3 => within 0x40000000 0x43800000
  | 0x3010, 4 => within 1 64
  | 0x3020, 1 => within 1 168
  | 0x5000, 1 => within 0 0x3FF
  | 0x5001, 1 => (List.range 1024).all (fun d => decide (bitsOf (leAt bs (4 * d) 4) 4 0 ≤ 17) && decide (bitsOf (leAt bs (4 * d) 4) 12 8 ≤ 17))
  | 0x6003, 1 => within 0 6
  | 0x7001, 3 => within s.mgmt.minsvn (s.mgmt.fwOf s.mgmt.slot).svn
  | 0x7012, _ => decide (bs.length = 0) || decide (bs.length = 512)
  | 0x7031, 1 => s.mayRelease v
  | 0x7040, 3 => decide (bs.length = 0) || decide (bs.length = 512)
  | 0x7050, 1 => decide (v = 1) && !s.axoOverlap
  | 0x7050, 2 => decide (v % 2 ^ 32 = 0)
  | _, _ => true

/-- Check 6: a write of 0 to an engine's enable needs an idle engine (R221). -/
def State.busyOk (s : State) (index sub : Nat) (bs : List Byte) : Bool :=
  !(decide (0x3100 ≤ index) && decide (index < 0x3108) && decide (sub = 5) && decide (leNat bs = 0) && !(s.stack (index - 0x3100)).idle)

/-- The status that checks 1 to 6 of Table 19.3 give a write. -/
def State.dictCheck (s : State) (path : DPath) (index sub : Nat) (bs : List Byte) : Nat :=
  match s.visible path index sub with
  | none => stNoentry
  | some e =>
    if e.cls = .const ∨ e.cls = .ro then stAccess
    else if index / 0x1000 = 7 ∧ (match path with | .mctp i => s.maySecure i | _ => false) = false then stAccess
    else if s.stateOk index sub = false then stAccess
    else if e.lenOk bs.length = false then stBadlen
    else if e.typeOk bs = false ∨ s.rangeOk index sub bs = false then stRange
    else if s.busyOk index sub bs = false then stBusy
    else stOk

/-! ## Writes -/

/-- An unlocked monitor relocks, logged with its cause (R514). -/
def State.relock (s : State) (cause : Nat) : State :=
  if s.mon.unlocked then { s with mon := { s.mon with unlocked := false } }.logEv 0x1205 false (lf 0 ++ lf cause) else s

/-- An RWP write goes into the persisted store (R442). -/
def State.persist (s : State) (index sub : Nat) (bs : List Byte) : State :=
  let m := s.mgmt
  let key := index * 256 + sub
  { s with mgmt := { m with store := m.store.write (Table.put (m.store.read.getD []) key bs), vals := Table.put m.vals key bs, writes := m.writes + 1 } }

/-- An RWP write that does not read back (R442): the other copy stays in force, and the value as it was. -/
def State.spoil (s : State) : State := { s with mgmt := { s.mgmt with store := s.mgmt.store.spoil, writes := s.mgmt.writes + 1 } }

/-- A port under a new device ID: an IDENT pass starts over (R414), and packets queued keep the device as theirs. -/
def Port.renamed (t : Port) (re : DevId → DevId) : Port :=
  let own (p : Packet) : Packet := { p with ddev := re p.ddev, sdev := re p.sdev }
  let t := if t.st = .ident then { t with trips := 0, maxTrip := 0, idSent := [] } else t
  { t with queue := t.queue.map own, curP := t.curP.map own, line := t.line.map (fun l => { l with ends := l.ends.map own }),
           retry := t.retry.map (fun f => { f with ends := f.ends.map own }) }

/-- A port without an ID to carry packets under (R402): what it holds of them is gone; its frames keep their numbers. -/
def Port.silenced (t : Port) : Port :=
  let idle (x : Slot) : Slot := if x.data then .idle else x
  { t with queue := [], cur := [], curP := none, retry := t.retry.map (fun f => { f with slots := f.slots.map idle, ends := [] }),
           line := t.line.map (fun l => { l with kept := l.kept.map (fun xs => xs.map idle), ends := [] }) }

/-- While the ID is unassigned the ports carry no packets, and R406 answers those that they hold (R402). -/
def State.silence (s : State) : State :=
  (List.range 18).foldl (fun s n => let t := s.port n; if t.st = .off then s else t.holds.foldl (fun s q => s.discard406 true n q) (s.setPort n t.silenced)) s

/-- The device ID takes effect at once (R402); packets and commands of this device that are under way stay its own, and while the ID is unassigned no packet leaves by a port. [DEDUCED, log entry 84: unsafe] -/
def State.setId (s : State) (v : BitVec 10) : State :=
  let re (d : DevId) : DevId := if d = s.own then v else d
  let own (p : Packet) : Packet := { p with ddev := re p.ddev, sdev := re p.sdev }
  let s := { s with links := { s.links with devId := v, ports := s.links.ports.map (fun e => (e.1, e.2.renamed re)), asked := s.links.asked.map own }, net := s.net.map own,
                    stks := s.stks.map (fun e => (e.1, { e.2 with ring := e.2.ring.map (fun r => { r with dev := re r.dev }),
                                                                      cmds := e.2.cmds.map (fun c => { c with dev := re c.dev }) })) }
  if v = 0x3FF then s.silence else s

/-- A start request (R453). -/
def State.startRequest (s : State) (kind : Nat) : State := { s with mgmt := { s.mgmt with startRq := kind } }

/-- 0x0003:02 (R455). -/
def State.storeClear (s : State) : State := { s with mgmt := { s.mgmt with clear := true } }

/-- 0x7001:03 (R495). -/
def State.raiseMinsvn (s : State) (v : Nat) : State := { s with mgmt := { s.mgmt with minsvn := v } }

/-- 0x7002:02 (R491). -/
def State.setRoot (s : State) (h : List Byte) : State := { s with mgmt := { s.mgmt with root := h } }

/-- 0x7012 (R490). -/
def State.installKey (s : State) (k : Nat) (m : List Byte) : State :=
  { s with mgmt := { s.mgmt with keys := if m.isEmpty then Table.erase s.mgmt.keys k else Table.put s.mgmt.keys k m } }

/-- 0x7040:03 (Table 22.2). -/
def State.installUnlock (s : State) (m : List Byte) : State := { s with mon := { s.mon with modulus := m } }

/-- What an accepted write does (R440, R442). [DESIGN CHOICE, log entry 151: unsafe] -/
def State.dictApply (s : State) (index sub : Nat) (bs : List Byte) : Out :=
  let v := leNat bs
  match index, sub with
  | 0x0003, 1 => .next (s.startRequest v)
  | 0x0003, 2 => .next s.storeClear
  | 0x2020, 1 => .next (s.regionPower (BitVec.ofNat 16 v))
  | 0x3010, 1 =>
    .next (if s.setting 0x3010 1 1 = 0 ∧ v ≠ 0 then { s.persist index sub bs with imb := { s.imb with n := [], begun := s.beat.bcnt, above := 0, below := 0 } } else s.persist index sub bs)
  | 0x5000, 1 => .next ((s.persist index sub bs).setId (BitVec.ofNat 10 v))
  | 0x7001, 3 => .next (s.raiseMinsvn v)
  | 0x7002, 2 => .next (s.setRoot bs)
  | 0x7012, n => .next (s.installKey (n - 1) bs)
  | 0x7031, 1 => .next (s.tenantRelease v)
  | 0x7040, 1 => .next (if v = 0 then (s.persist index sub bs).relock 4 else s.persist index sub bs)
  | 0x7040, 3 => .next (s.installUnlock bs)
  | 0x7050, 1 => .next s.axoStart
  | 0x7050, 3 => s.recoveryLoad (BitVec.ofNat 64 v)
  | _, _ =>
    if 0x3100 ≤ index ∧ index < 0x3108 then
      let i := index - 0x3100
      let k := s.stack i
      .next (s.setStack i (if sub = 5 then { k with en := decide (v ≠ 0) } else { k with haltq := decide (v ≠ 0) }))
    else .next (s.persist index sub bs)

/-- What an access comes to: the state after it and a status, or the machine stops. -/
inductive DRes where
  | ok (s : State) (status : Nat)
  | fault (f : Fault)

/-- Check 7 (Table 19.3): the entry is RWP and the store does not take the value. [DESIGN CHOICE, log entry 172: safe] -/
def State.storeFails (s : State) (path : DPath) (index sub : Nat) : Bool :=
  (match s.visible path index sub with | some e => decide (e.cls = .rwp) | none => false) && Config.storeBad s.mgmt.writes

/-- A dictionary write over a path (R441): a write that checks 1 to 6 refuse changes nothing. -/
def State.dictPut (s : State) (path : DPath) (index sub : Nat) (bs : List Byte) : DRes :=
  let st := s.dictCheck path index sub bs
  if st ≠ stOk then .ok s st
  else if s.storeFails path index sub then .ok s.spoil stMemerr
  else match s.dictApply index sub bs with
    | .next t => .ok t stOk
    | .fault f => .fault f
    | .refused _ => .ok s stOk

/-! ## Commands that are such writes -/

/-- WARM_START_REQUEST (R453): 0x0003:01 takes 1. -/
def execWarmStartRequest (s : State) : Out := if s.silent then .next s else .next (s.startRequest 1)
/-- COLD_START_REQUEST (R453): 0x0003:01 takes 2. -/
def execColdStartRequest (s : State) : Out := if s.silent then .next s else .next (s.startRequest 2)
/-- STORE_CLEAR_REQUEST (R455): 0x5A into 0x0003:02; other values are refused with RANGE. -/
def execStoreClearRequest (v : Byte) (s : State) : Out := if s.silent ∨ v ≠ 0x5A then .next s else .next s.storeClear
/-- A session may write range 0x7000 now (R491). [DESIGN CHOICE, log entry 123: safe] -/
def State.secured (s : State) (session : Nat) : Bool := !s.silent && s.maySecure (some session)

/-- TENANT_RELEASE (R499): 0x7031:01 takes a tenant that no slot is bound to. -/
def execTenantRelease (w : Secured (BitVec 16)) (s : State) : Out :=
  if s.secured w.session ∧ s.mayRelease w.value.toNat then .next (s.tenantRelease w.value.toNat) else .next s
/-- RECOVERY_START (R504): 1 into 0x7050:01. -/
def execRecoveryStart (w : Secured Byte) (s : State) : Out :=
  if s.secured w.session ∧ w.value = 1 ∧ s.axoFrom ∧ s.axoOverlap = false then .next s.axoStart else .next s

/-- RECOVERY_LOAD (R505): MBASE into 0x7050:03, in AXOLOTL. -/
def execRecoveryLoad (w : Secured DWord) (s : State) : Out :=
  if s.secured w.session ∧ s.dev.st = .axolotl then s.recoveryLoad w.value else .next s

/-- MINSVN_RAISE (R495): between MINSVN and the running SVN. -/
def execMinsvnRaise (w : Secured Byte) (s : State) : Out :=
  if s.secured w.session ∧ s.mgmt.minsvn ≤ w.value.toNat ∧ w.value.toNat ≤ (s.mgmt.fwOf s.mgmt.slot).svn then .next (s.raiseMinsvn w.value.toNat) else .next s

/-- SET_ROOT_HASH (R491): 64 bytes into 0x7002:02 within a secured session. -/
def execSetRootHash (session : Nat) (hash : List Byte) (s : State) : Out :=
  if s.secured session ∧ hash.length = 64 then .next (s.setRoot hash) else .next s
/-- KEY_INSTALL (R490): a modulus of 512 bytes, or none, into 0x7012 within a secured session. -/
def execKeyInstall (session : Nat) (k : Fin 32) (modulus : List Byte) (s : State) : Out :=
  if s.secured session ∧ (modulus.length = 0 ∨ modulus.length = 512) then .next (s.installKey k.val modulus) else .next s
/-- UNLOCK_MODULUS_INSTALL (R514): a modulus of 512 bytes, or none, into 0x7040:03 within a secured session. -/
def execUnlockModulusInstall (session : Nat) (modulus : List Byte) (s : State) : Out :=
  if s.secured session ∧ (modulus.length = 0 ∨ modulus.length = 512) then .next (s.installUnlock modulus) else .next s

/-- Type code and total value length of an entry that a path sees (Table 19.5). [DEDUCED, log entry 173: unsafe] -/
def State.dictHead (s : State) (path : DPath) (index sub : Nat) : Nat × Nat :=
  match s.visible path index sub with
  | some e => (e.type.code, e.value.length)
  | none => (0, 0)

/-- A response over MCTP (R446, Table 19.5), kept as the last one sent: the vendor ID leads it. -/
def State.mctpReply (s : State) (cmd tag : Byte) (st : Nat) (head : Nat × Nat) (sub : Byte) (off : Word) (bs : List Byte) : State :=
  { s with mgmt := { s.mgmt with resp := bytesOf Config.vendorId 2 ++ [cmd ||| 0x80, tag, BitVec.ofNat 8 st, BitVec.ofNat 8 head.1, sub, 0]
                                           ++ leBytes 2 head.2 ++ leBytes 4 off.toNat ++ bs } }

/-- MCTP_DICT_READ (R446): command 0x01; a command that Table 19.5 does not list, or another vendor ID, has BADOP. -/
def execMctpDictRead (secured : Option Nat) (vendor : BitVec 16) (tag : MctpTag) (index : BitVec 16) (sub : Byte) (off : Word) (s : State) : Out :=
  let path : DPath := .mctp secured
  if s.silent ∨ tag.cmd = 2 then .next s
  else if vendor ≠ Config.vendorId ∨ tag.cmd ≠ 1 then .next (s.mctpReply tag.cmd tag.tag stBadop (0, 0) sub off [])
  else
    let (st, _, _, bs) := s.dictGet path index.toNat sub.toNat off.toNat 232
    .next (s.mctpReply tag.cmd tag.tag st (s.dictHead path index.toNat sub.toNat) sub off bs)

/-- MCTP_DICT_WRITE (R446): command 0x02 with OFFSET 0 and at most 232 bytes. -/
def execMctpDictWrite (secured : Option Nat) (vendor : BitVec 16) (tag : Byte) (index : BitVec 16) (sub : Byte) (off : Word) (value : List Byte) (s : State) : Out :=
  let path : DPath := .mctp secured
  let reply (s : State) (st : Nat) : Out := .next (s.mctpReply 2 tag st (s.dictHead path index.toNat sub.toNat) sub off [])
  if s.silent then .next s
  else if vendor ≠ Config.vendorId then .next (s.mctpReply 2 tag stBadop (0, 0) sub off [])
  else if 232 < value.length then reply s stBadlen
  else if off ≠ 0 then reply s stRange
  else match s.dictPut path index.toNat sub.toNat value with
    | .ok t st => reply t st
    | .fault f => .fault f

end Sys2Proof.Machine
end

