-- ==== Sys2Proof/Machine/HostOps.lean ====
section
/-! DEFINITION. The host interface's machines (chapter 18): headers and replies, device memory accesses, host DMA, binding, input pulls and retire passes. -/

namespace Sys2Proof.Machine

/-! ## Host memory and headers (R426, R427) -/

/-- The link is degraded (R419): trained below 64 GT/s or x16. -/
def HostIf.degraded (h : HostIf) : Bool := decide (h.speed ≠ 0) && (decide (h.speed.toNat < 6) || decide (h.width.toNat < 16))

/-- COND (Table 18.5). -/
def State.cond (s : State) : Nat :=
  if s.dev.st = .fault then 0xA3
  else if s.dev.st = .axolotl then 0xA2
  else if s.dev.st = .hold then 0xA1
  else if s.host.ovr then 0xA0
  else if s.log.attn ≠ 0 then 0x5C
  else 0

/-- PEND (Table 18.4). -/
def State.pend (s : State) : Nat :=
  bnat (decide (s.log.attn ≠ 0)) + 2 * bnat s.host.ovr + 4 * bnat (decide (s.dev.st = .hold)) + 8 * bnat (decide (s.dev.st = .axolotl))
    + 16 * bnat (decide (s.dev.st = .fault)) + 32 * bnat s.host.degraded

/-- A reply or record header (Table 18.4). -/
def State.header (s : State) (type status tag beat index log2 : Nat) : List Byte :=
  let ph := 1 - index / 2 ^ log2 % 2
  [BitVec.ofNat 8 (ph * 128 + type), BitVec.ofNat 8 s.cond, BitVec.ofNat 8 status, BitVec.ofNat 8 s.pend]
    ++ leBytes 4 tag ++ leBytes 4 beat ++ leBytes 2 index ++ leBytes 2 (min 0xFFFF s.log.attn)

/-- The device writes host memory. -/
def State.hostWrite (s : State) (a : Nat) (bs : List Byte) : State := { s with host := { s.host with mem := memPut s.host.mem a bs } }

/-- A reply (R425, R426): bytes 16 to 255 first, then the header; the request is counted. [DEDUCED, log entry 96: unsafe] -/
def State.reply (s : State) (index : BitVec 16) (tag : Word) (status : Nat) (payload : List Byte) : State :=
  let s := s.count 0x6002 1
  let a := s.host.rbase.toNat + 256 * (index.toNat % 2 ^ s.host.mbLog.toNat)
  let s := s.hostWrite (a + 16) (payload ++ List.replicate (240 - payload.length) 0)
  s.hostWrite a (s.header 1 status tag.toNat (s.beat.bcnt.toNat % 2 ^ 32) index.toNat s.host.mbLog.toNat)

/-- The reply to a fetched request that has ended; muted ones are not written (R419, R436). -/
def State.finish (s : State) (q : HReq) (status : Nat) (payload : List Byte) : State :=
  let s := { s with host := { s.host with reqs := s.host.reqs.filter (fun x => decide (x ≠ q)) } }
  if q.mute then s.count 0x6002 1 else s.reply q.index q.tag status payload

/-- A request is replaced by its next stage. -/
def State.setReq (s : State) (q q' : HReq) : State :=
  { s with host := { s.host with reqs := s.host.reqs.map (fun x => if x = q then q' else x) } }

/-! ## Device memory accesses of the host interface -/

/-- A range of local addresses in pieces: whole granules, and parts of bursts otherwise; `fuel` bounds them. -/
def hostPieces : Nat → Nat → Nat → List (Nat × Nat)
  | 0, _, _ => []
  | fuel + 1, a, n =>
    if n = 0 then []
    else if a % 512 = 0 ∧ 512 ≤ n then (a, 512) :: hostPieces fuel (a + 512) (n - 512)
    else
      let k := min n (64 - a % 64)
      (a, k) :: hostPieces fuel (a + k) (n - k)

/-- A fresh transaction ID of the host interface. -/
def State.hostTid (s : State) : State × BitVec 12 := ({ s with host := { s.host with nextTid := s.host.nextTid + 1 } }, s.host.nextTid)

/-- The write packet of a piece: a whole granule, or a burst with byte enables (R130). -/
def piecePkt (s : State) (node : NodeId) (tid : BitVec 12) (a : Nat) (bs : List Byte) : Packet :=
  let n := bs.length
  if n = 512 then (s.mkPkt .wr node 0 tid (mkFAddr s.own a)).withPayload bs
  else
    let o := a % 64
    let m := if n = 64 then 0 else (2 ^ n - 1) * 2 ^ o
    { s.mkPkt .wr node 0 tid (mkFAddr s.own (a - o)) with
      size := 5, data := BitVec.ofNat 4096 (leNat bs * 2 ^ (8 * o)), op6 := BitVec.ofNat 32 m, op7 := BitVec.ofNat 32 (m / 2 ^ 32) }

/-- Bytes go to device memory in pieces from the host interface; the outstanding writes as TID, offset and bytes. -/
def State.devPut (s : State) (a : Nat) (bs : List Byte) (off : Nat) : State × List (BitVec 12 × Nat × Nat) :=
  (hostPieces (bs.length + 1) a bs.length).foldl (fun (acc : State × List (BitVec 12 × Nat × Nat)) x =>
    let (s, tid) := acc.1.hostTid
    (s.inject (piecePkt s hostNode tid x.1 ((bs.drop (x.1 - a)).take x.2)), acc.2 ++ [(tid, off + (x.1 - a), x.2)])) (s, [])

/-- Reads of device memory in pieces: a granule, or the burst that holds the piece. -/
def State.devGet (s : State) (a n off : Nat) : State × List (BitVec 12 × Nat × Nat) :=
  (hostPieces (n + 1) a n).foldl (fun (acc : State × List (BitVec 12 × Nat × Nat)) x =>
    let (s, tid) := acc.1.hostTid
    let al := if x.2 = 512 then x.1 else x.1 - x.1 % 64
    (s.inject { s.mkPkt .rd hostNode 0 tid (mkFAddr s.own al) with size := if x.2 = 512 then 6 else 5 }, acc.2 ++ [(tid, off + (x.1 - a), x.2)])) (s, [])

/-- Whether `n` bytes from a local address lie within the interleaved range or within one stack window (R434). -/
def inMemory (a n : Nat) : Bool :=
  decide (a + n ≤ memTop)
    || (decide (0x10000000000 ≤ a) && decide (a + n ≤ 0x20000000000) && decide (a % 0x2000000000 + n ≤ 0x1200000000))

/-! ## Host DMA (R434) -/

/-- The next 4 KiB of a transfer begins: a host read, or reads of device memory. [DEDUCED, log entry 88: unsafe] -/
def State.hdmaChunk (s : State) (x : Hdma) : State × Hdma :=
  let n := min (x.len - x.done) (4096 - (if x.toHost then x.daddr + x.done else x.haddr + x.done) % 4096)
  let x := { x with reqd := x.done + n }
  if x.toHost then
    let (s, outs) := s.devGet (x.daddr + x.done) n x.done
    (s, { x with outs })
  else ({ s with host := { s.host with nextTag := s.host.nextTag + 1 } }, { x with tag := some s.host.nextTag })

/-- Transfers run, at most 8 of them. -/
def HostIf.running (h : HostIf) : Nat :=
  (h.reqs.filter (fun q => match q.what with | .inl x => x.active | .inr _ => false)).length

/-- Waiting transfers begin in request order while fewer than 8 run; in FAULT none does (Table 18.8). -/
def State.hdmaStart (s : State) : State :=
  if s.dev.st = .fault then s
  else s.host.reqs.foldl (fun s q =>
    match q.what with
    | .inl x =>
      if x.active ∨ 8 ≤ s.host.running then s
      else
        let (s, x) := s.hdmaChunk { x with active := true }
        s.setReq q { q with what := .inl x }
    | .inr _ => s) s

/-- A transfer whose 4 KiB has drained: it ends, or the next 4 KiB begins. -/
def State.hdmaNext (s : State) (q : HReq) (x : Hdma) : State :=
  let moved := if x.status = 0 then x.reqd else x.errAt
  let s := s.countN 0x6002 7 (moved - x.done)
  let x := { x with done := moved }
  if x.status ≠ 0 ∨ x.ending ∨ x.len ≤ moved then
    ((s.setReq q { q with what := .inl x }).finish { q with what := .inl x } x.status (leBytes 4 moved)).hdmaStart
  else
    let (s, x) := s.hdmaChunk x
    s.setReq q { q with what := .inl x }

/-- An error at an offset: the first one, in address order, counts. -/
def Hdma.fail (x : Hdma) (off st : Nat) : Hdma :=
  { x with status := if x.status = 0 ∨ off < x.errAt then st else x.status, errAt := if x.status = 0 then off else min x.errAt off }

/-- An answer to a packet of a transfer. -/
def State.hdmaAnswer (s : State) (q : HReq) (x : Hdma) (o : BitVec 12 × Nat × Nat) (p : Packet) (ok : Bool) : State :=
  let x' := { x with outs := x.outs.filter (fun y => decide (y.1 ≠ o.1)) }
  let x' := if ok = false then x'.fail o.2.1 stMemerr
    else if x.toHost then { x' with buf := Table.put x'.buf o.2.1 (if o.2.2 = 512 then p.payload else (p.payload.drop ((x.daddr + o.2.1) % 64)).take o.2.2) }
    else x'
  if x'.outs.isEmpty then
    let good := if x'.status = 0 then x'.reqd else x'.errAt
    let s := if x.toHost then
        (x'.buf.filter (fun b => decide (b.1 < good))).foldl (fun s b => s.hostWrite (x.haddr + b.1) b.2) s
      else s
    let x' := { x' with buf := [] }
    (s.setReq q { q with what := .inl x' }).hdmaNext { q with what := .inl x' } x'
  else s.setReq q { q with what := .inl x' }

/-- A host read of a transfer completes: its bytes are written to the device, or HOSTERR. -/
def State.hdmaHost (s : State) (q : HReq) (x : Hdma) (ok : Bool) (bs : List Byte) : State :=
  let x := { x with tag := none }
  if ok then
    let (s, outs) := s.devPut (x.daddr + x.done) bs x.done
    s.setReq q { q with what := .inl { x with outs } }
  else
    let x := x.fail x.done stHosterr
    (s.setReq q { q with what := .inl x }).hdmaNext { q with what := .inl x } x

/-! ## Binding (R389, R431) -/

/-- AITOFF of the placed image's table, as a local address. -/
def State.aitBase (s : State) : Option Nat :=
  match s.loader.image with
  | some im => im.aitoff.map (fun o => s.loader.mbase.toNat + o)
  | none => none

/-- a - b as a signed 32-bit number. [DEDUCED, log entry 137: unsafe] -/
def sdiff (a b : Word) : Int := (a - b).toInt

/-- BCNT bits [31:0]. -/
def State.bcnt32 (s : State) : Word := s.beat.bcnt.setWidth 32

/-- Step 3 of R431: RANGE, TENANT or OK. [DEDUCED, log entry 92: unsafe] -/
def State.bindCheck (s : State) (slot : Nat) (half : Word) (unbind : Bool) : Nat :=
  let h := half.toNat
  let ast := bitsOf h 30 28
  let kst := bitsOf h 27 25
  if 512 ≤ slot then stRange
  else if unbind then stOk
  else if h < 2 ^ 31 ∨ h.testBit 24 ∨ h % 2 ^ 12 = 0 ∨ s.mgmt.quar.contains slot then stRange
  else
    let e := (s.stack ast).adir (bitsOf h 23 12)
    if eV e = false ∨ kvV ((s.stack kst).kvOf slot) = false then stRange
    else if eTen e ≠ h % 2 ^ 12 then stTenant
    else stOk

/-- An earlier change of the slot has EFF ahead of BCNT (R431, step 2). -/
def State.bindAhead (s : State) (slot : Nat) : Bool :=
  match Table.look s.host.lastEff slot with
  | some e => decide (0 < sdiff e s.bcnt32)
  | none => false

/-- Steps 1, 3 and 4 of R431: a status, or the entry write sent with its TID. [DEDUCED, log entry 91: unsafe] [DEDUCED, log entry 93: unsafe] -/
def State.bindGo (s : State) (slot : Nat) (eff half : Word) (unbind : Bool) : State × (Nat ⊕ BitVec 12) :=
  if sdiff eff s.bcnt32 ≤ 1 then (s, .inl stLate)
  else match s.aitBase with
  | none => (s, .inl stState)
  | some base =>
    let c := s.bindCheck slot half unbind
    if c ≠ stOk then (if c = stTenant then s.logEv 0x1405 true (lf slot ++ lf (half.toNat % 2 ^ 12)) else s, .inl c)
    else
      let a := base + 16 * slot
      let s := s.localSee a 16
      if s.localBad a 16 then (s, .inl stMemerr)
      else
        let e := s.localRead a 16
        let w (i : Nat) : Word := BitVec.ofNat 32 (leAt e (4 * i) 4)
        let old := if 0 ≤ sdiff (eff - 1) (w 0) then w 3 else w 2
        let new : Word := if unbind then 0 else half
        let (s, tid) := s.mgmtTid
        let s := s.inject (piecePkt s mgmtNode tid a (bytesOf eff 4 ++ leBytes 4 0 ++ bytesOf old 4 ++ bytesOf new 4))
        ({ s with host := { s.host with binds := s.host.binds ++ [{ eff, slot, old, new, unbind }], lastEff := Table.put s.host.lastEff slot eff } }, .inr tid)

/-- A binding request that has been fetched, or that waits (R431). -/
def State.bindTry (s : State) (q : HReq) (slot : BitVec 16) (eff half : Word) (unbind : Bool) : State :=
  match s.bindGo slot.toNat eff half unbind with
  | (s, .inl st) => s.finish q st []
  | (s, .inr tid) => s.setReq q { q with what := .inr (.bindAck slot tid) }

/-- Step 5 of R431 for a change whose beat has come: tenant table writes, and the erasure that an UNBIND asks for (R500). An UNBIND clears the entry on the stacks of the OLD half. -/
def State.bindEffect (s : State) (b : BindDue) : State :=
  let half := if b.unbind then b.old.toNat else b.new.toNat
  let ast := bitsOf half 30 28
  let kst := bitsOf half 27 25
  let bound := decide (2 ^ 31 ≤ half)
  let xs := if b.unbind && bound then s.slotExtents kst b.slot else []
  let v : Word := if b.unbind then 0 else BitVec.ofNat 32 (0x8000 + half % 2 ^ 12)
  let put (s : State) (st : Nat) : State := s.newtTable st (0x104000 + 2 * b.slot) v
  let s := if bound then (if ast = kst then put s ast else put (put s ast) kst) else s
  if b.unbind && bound then s.eraseBegin (.slot b.slot) xs else s

/-- Requests that wait for an earlier change of their slot are tried again, in index order; in FAULT none is (Table 18.8). -/
def State.bindWaits (s : State) : State :=
  if s.dev.st = .fault then s
  else s.host.reqs.foldl (fun s q =>
    match q.what with
    | .inr (.bind slot eff half) => if s.bindAhead slot.toNat then s else s.bindTry q slot eff half false
    | .inr (.unbind slot eff) => if s.bindAhead slot.toNat then s else s.bindTry q slot eff 0 true
    | _ => s) s

/-- What an applied boundary does to bindings (R431, R500). -/
def State.bindBoundary (s : State) : State :=
  let (now, later) := s.host.binds.partition (fun b => decide (0 ≤ sdiff s.bcnt32 b.eff))
  let s := { s with host := { s.host with binds := later, lastEff := s.host.lastEff.filter (fun e => decide (0 < sdiff e.2 s.bcnt32)) } }
  (now.foldl (fun s b => s.bindEffect b) s).bindWaits

/-! ## Input pulls (R432) -/

/-- A released image has a SLOT section. -/
def State.slots (s : State) : Option Nat := if s.loader.img = 4 then s.aitBase else none

/-- A pull that ends without its header is logged and raises Croak (R432). [DEDUCED, log entry 94: unsafe] -/
def State.pullFail (s : State) (b : DWord) : State := { s with host := { s.host with pull := none } }.logEv 0x1103 true (lf b.toNat)

/-- At the applied boundary of beat `b`: four host reads of 4 KiB. -/
def State.pullBoundary (s : State) : State :=
  let b := s.beat.bcnt
  match s.slots with
  | none => s
  | some _ =>
    if s.host.slIn = false then s
    else match s.host.pull with
      | some _ => (s.count 0x6002 4).logEv 0x1103 true (lf b.toNat)
      | none =>
        let t := s.host.nextTag
        { s with host := { s.host with nextTag := t + 4, pull := some { beat := b, tags := (List.range 4).map (fun i => (t + i, i)), bad := 0, outs := [], hdr := false } } }

/-- The header follows once every entry write is acknowledged; its own acknowledgement ends the pull. -/
def State.pullGo (s : State) (x : Pull) : State :=
  match s.aitBase with
  | none => { s with host := { s.host with pull := none } }
  | some base =>
    if x.tags.isEmpty && x.outs.isEmpty then
      if x.hdr then { s with host := { s.host with pull := none } }
      else
        let a := base + 8192 + x.beat.toNat % 2 * 16896
        let (s, outs) := s.devPut a (leBytes 8 x.beat.toNat ++ leBytes 4 x.bad ++ leBytes 500 0) 0
        { s with host := { s.host with pull := some { x with hdr := true, outs := outs.map (·.1) } } }
    else { s with host := { s.host with pull := some x } }

/-- A quarter of the input table arrives: each entry as one 32-byte write, an inconsistent one replaced. -/
def State.pullHost (s : State) (x : Pull) (tag quarter : Nat) (ok : Bool) (bs : List Byte) : State :=
  match s.aitBase with
  | none => { s with host := { s.host with pull := none } }
  | some base =>
    if ok = false then s.pullFail x.beat
    else
      let x := { x with tags := x.tags.filter (fun t => decide (t.1 ≠ tag)) }
      let (s, x) := (List.range 128).foldl (fun (acc : State × Pull) i =>
        let e := (bs.drop (32 * i)).take 32
        let good := decide (e.take 4 = e.drop 28)
        let w := if good then e else leBytes 4 0xFFFFFFFF ++ leBytes 24 0 ++ leBytes 4 0xFFFFFFFF
        let a := base + 8704 + x.beat.toNat % 2 * 16896 + 32 * (128 * quarter + i)
        let (s, tid) := acc.1.hostTid
        let s := s.inject ((s.mkPkt .wr hostNode 0 tid (mkFAddr s.own a)).withPayload w)
        (if good then s else s.count 0x6002 5, { acc.2 with outs := acc.2.outs ++ [tid], bad := acc.2.bad + bnat (!good) })) (s, x)
      s.pullGo x

/-! ## Retire passes (R433) -/

/-- At the applied boundary of beat b + 1: the 32 granules of output buffer b mod 2 are read. -/
def State.retireBoundary (s : State) : State :=
  match s.slots with
  | none => s
  | some base =>
    if s.host.slRt = false then s
    else
      let b := s.beat.bcnt - 1
      let (s, outs) := s.devGet (base + 41984 + b.toNat % 2 * 16384) 16384 0
      { s with host := { s.host with passes := s.host.passes ++ [{ beat := b, outs := outs.map (fun o => (o.1, o.2.1 / 512)), rows := [] }] } }

/-- One retire record, where the ring has room (R433). -/
def State.retireRecord (s : State) (b slot : Nat) (e : List Byte) : State :=
  let h := s.host
  let n := 2 ^ h.rtLog.toNat
  let a := h.rtBase.toNat + 32 * (h.pi.toNat % n)
  let s := s.hostWrite (a + 16) ((e.drop 8).take 16)
  let s := s.hostWrite a (s.header 2 0 slot b h.pi.toNat h.rtLog.toNat)
  { s with host := { s.host with pi := h.pi + 1, rtFull := decide (h.pi + 1 = h.ci) } }.count 0x6002 2

/-- PI − CI has reached 2^RTLOG2 (R433). -/
def HostIf.ringFull (h : HostIf) : Bool := h.rtFull || decide (2 ^ h.rtLog.toNat ≤ (h.pi - h.ci).toNat)

/-- A pass whose granules have all come: its entries in ascending order. -/
def State.retireAll (s : State) (x : Retire) : State :=
  let b := x.beat.toNat % 2 ^ 32
  let buf := (List.range 32).flatMap (fun i => Table.get [] x.rows i)
  let (s, dropped) := (List.range 512).foldl (fun (acc : State × Nat) i =>
    let e := (buf.drop (32 * i)).take 32
    if leAt e 0 4 = b ∧ (leAt e 7 1).testBit 7 then
      if acc.1.host.ringFull then (acc.1.count 0x6002 3, acc.2 + 1)
      else (acc.1.retireRecord b i e, acc.2)
    else acc) (s, 0)
  if dropped = 0 then s else s.logEv 0x1103 true (lf b ++ lf dropped)

/-- An answer to a read of a pass. -/
def State.retireAnswer (s : State) (x : Retire) (o : BitVec 12 × Nat) (p : Packet) (ok : Bool) : State :=
  let put (s : State) (y : Option Retire) : State :=
    { s with host := { s.host with passes := (s.host.passes.map (fun z => if z = x then y else some z)).filterMap id } }
  if ok = false then (put s none).logEv 0x1103 true (lf (x.beat.toNat % 2 ^ 32))
  else
    let y := { x with outs := x.outs.filter (fun z => decide (z.1 ≠ o.1)), rows := Table.put x.rows o.2 p.payload }
    if y.outs.isEmpty then (if s.host.slRt then (put s none).retireAll y else put s none) else put s (some y)

/-! ## Answers to the host interface -/

/-- A BAR2 write is acknowledged, or dropped by its controller (R423, R424). -/
def State.bar2Answer (s : State) (tid : BitVec 12) (ok : Bool) : State :=
  let f (l : List (BitVec 12)) : List (BitVec 12) := l.filter (fun t => decide (t ≠ tid))
  let s := { s with host := { s.host with bar2W := f s.host.bar2W, bells := s.host.bells.map (fun b => (b.1, f b.2)), bar2R := s.host.bar2R.map (fun (off, a, n, w) => (off, a, n, f w)) } }
  if ok then s else s.logEv 0x1102 true (lf tid.toNat)

/-- The transfer that awaits a TID. -/
def HostIf.hdmaOf (h : HostIf) (tid : BitVec 12) : Option (HReq × Hdma × (BitVec 12 × Nat × Nat)) :=
  h.reqs.findSome? (fun q => match q.what with
    | .inl x => (x.outs.find? (fun o => decide (o.1 = tid))).map (fun o => (q, x, o))
    | .inr _ => none)

/-- RDR, WACK or ERR for the host interface. -/
def State.hostAnswer (s : State) (p : Packet) (ok : Bool) : State :=
  let h := s.host
  if h.bar2W.contains p.tid then s.bar2Answer p.tid ok
  else match h.hdmaOf p.tid with
    | some (q, x, o) => s.hdmaAnswer q x o p ok
    | none =>
      match h.passes.findSome? (fun x => (x.outs.find? (fun o => decide (o.1 = p.tid))).map (fun o => (x, o))) with
      | some (x, o) => s.retireAnswer x o p ok
      | none => match h.pull with
        | some x =>
          if x.outs.contains p.tid then
            if ok then s.pullGo { x with outs := x.outs.filter (fun t => decide (t ≠ p.tid)) } else s.pullFail x.beat
          else s
        | none => s

end Sys2Proof.Machine
end

