-- ==== Sys2Proof/Machine/Host.lean ====
section
/-! DEFINITION. The host interface's commands: PCIe link, BAR0, BAR2 and the mailbox (chapter 18), with STATE (R450) and LOAD (R380). -/

namespace Sys2Proof.Machine

/-! ## The log as read (R483, R485) -/

/-- SEV of a record; R514 gives it for monitor records. -/
def LogRec.sev (r : LogRec) : Nat := if r.code = 0x1205 then bnat r.att else (Config.logSev r.code.toNat).toNat

/-- Bytes `n` long, zero-filled. -/
def padTo (n : Nat) (bs : List Byte) : List Byte := bs.take n ++ List.replicate (n - bs.length) 0

/-- The entries of a record (Tables 21.4, 21.5). -/
def LogRec.bytes (r : LogRec) : List Byte :=
  let n := logEntries r.fields.length - 1
  leBytes 8 r.seq ++ leBytes 6 r.tus ++ bytesOf r.code 2 ++ bytesOf r.beat 4
    ++ [BitVec.ofNat 8 (bnat r.att * 128 + n % 4 * 32 + bnat r.more * 16 + r.sev), 0] ++ leBytes 2 r.rep ++ padTo 8 r.fields
    ++ (List.range n).flatMap (fun i => leBytes 8 (r.seq + 1 + i) ++ padTo 24 (r.fields.drop (8 + 24 * i)))

/-- Records from the one that holds entry `q` on. -/
def Log.since (l : Log) (q : Nat) : List LogRec := l.recs.dropWhile (fun r => decide (r.seq + logEntries r.fields.length ≤ q))

/-- Whole records while they fit. -/
def fitRecs : Nat → List LogRec → List Byte
  | _, [] => []
  | n, r :: rs => if r.bytes.length ≤ n then r.bytes ++ fitRecs (n - r.bytes.length) rs else []

/-! ## PCIe link (R419) -/

/-- PCIE_LINK_TRAINED (R419): rate and width below nominal, or the first training after a reset, are logged with Croak. -/
def execPcieLinkTrained (speed : BitVec 4) (width : BitVec 5) (s : State) : Out :=
  if s.dev.st = .off then .next s
  else
    let was := s.host.wasRst
    let s := { s with host := { s.host with speed, width, wasRst := false } }
    .next (if was || s.host.degraded then s.logEv 0x1101 true (lf speed.toNat ++ lf width.toNat) else s)

/-- PCIE_RESET (R419): BAR0 registers reset; requests run on without replies, a transfer ends after its 4 KiB, a pull without its header. -/
def execPcieReset (s : State) : Out :=
  if s.dev.st = .off then .next s
  else
    let h := s.host
    let mute (q : HReq) : HReq :=
      { q with mute := true, what := match q.what with | .inl x => .inl { x with ending := true } | .inr w => .inr w }
    let h' : HostIf := { reqs := h.reqs.map mute, bar2Log := h.bar2Log, aer := h.aer, nextTag := h.nextTag, nextTid := h.nextTid, bar2W := h.bar2W,
                         passes := h.passes, binds := h.binds, lastEff := h.lastEff, mem := h.mem, wasRst := true }
    .next (({ s with host := h' }.count 0x6002 8).logEv 0x1101 false [])

/-! ## BAR0 registers (R420, R421) -/

/-- A BAR0 access that is refused or dropped is counted. -/
def State.barDrop (s : State) : State := s.count 0x6002 6

/-- A write of MB_CTL. [DEDUCED, log entry 85: unsafe] [DEDUCED, log entry 86: unsafe] -/
def State.mbCtl (s : State) (v : Word) : State :=
  let h := s.host
  let log := v.extractLsb' 0 4
  if h.mbEn ∧ log ≠ h.mbLog then s.barDrop
  else if v.getLsbD 31 then { s with host := { h with mbEn := true, mbLog := log, head := 0, tail := 0, bells := [] } }
  else { s with host := { h with mbEn := false, mbLog := log, bells := [], reqs := h.reqs.map (fun q => { q with mute := true }) } }

/-- A write of MB_DB (R425). -/
def State.bell (s : State) (tail : BitVec 16) : State :=
  let h := s.host
  if 2 ^ h.mbLog.toNat < (tail - h.head).toNat then { s with host := { h with ovr := true } }
  else if tail = h.tail then s
  else { s with host := { h with tail, bells := h.bells ++ [(tail, h.bar2W)] } }

/-- A write of SL_CTL. -/
def State.slCtl (s : State) (v : Word) : State :=
  let h := s.host
  let log := v.extractLsb' 0 5
  if h.slRt ∧ log ≠ h.rtLog then s.barDrop
  else
    let rt := v.getLsbD 30
    { s with host := { h with slIn := v.getLsbD 31, slRt := rt, rtLog := log, pi := if rt then 0 else h.pi, rtFull := h.rtFull && !rt } }

/-- A write of OD_CMD (R422): with GO the access of the dictionary window begins, and it is dropped while one is in progress. [DESIGN CHOICE, log entry 169: safe] -/
def State.odCmd (s : State) (v : Word) : State :=
  let h := s.host
  let go := v.getLsbD 31
  if go ∧ h.odBusy then s
  else { s with host := { h with odWr := v.getLsbD 30, odIndex := v.extractLsb' 8 16, odSub := v.extractLsb' 0 8, odBusy := h.odBusy || go } }

/-- The access of the dictionary window is done (R422): BUSY falls, with STATUS, and for a read OD_DATA and LEN. -/
def State.odRun (s : State) : Out :=
  let h := s.host
  let s := { s with host := { h with odBusy := false } }
  if h.odBusy = false ∨ s.silent then .next s
  else if h.odWr then
    if 4096 < h.odLen.toNat then .next { s with host := { s.host with odStat := BitVec.ofNat 8 stBadlen } }
    else match s.dictPut .window h.odIndex.toNat h.odSub.toNat ((List.range h.odLen.toNat).map (Table.get 0 h.odData)) with
      | .ok t st => .next { t with host := { t.host with odStat := BitVec.ofNat 8 st } }
      | .fault f => .fault f
  else
    let (st, _, _, bs) := s.dictGet .window h.odIndex.toNat h.odSub.toNat 0 4096
    let d := if st = stOk then ((List.range bs.length).foldl (fun m k => Table.putc 0 m k (bs.getD k 0)) h.odData) else h.odData
    .next { s with host := { s.host with odStat := BitVec.ofNat 8 st, odLen := if st = stOk then BitVec.ofNat 16 bs.length else h.odLen, odData := d } }

/-- No BAR is decoded: in OFF, and in D3hot (R416). -/
def State.barsOff (s : State) : Bool := decide (s.dev.st = .off) || s.host.d3

/-- A write of BAR0 (Table 18.3): offset, bytes and value. [DEDUCED, log entry 95: unsafe] -/
def State.bar0Write (s : State) (o n v : Nat) : Out :=
  let h := s.host
  let w : Word := BitVec.ofNat 32 v
  let addr (low : Nat) : DWord := BitVec.ofNat 64 (v / 2 ^ low * 2 ^ low)
  let put (h : HostIf) : Out := .next { s with host := h }
  if s.barsOff then .next s
  else match o, n with
  | 0x000, 4 => .next (s.mbCtl w)
  | 0x008, 8 => if h.mbEn ∧ addr 12 ≠ h.qbase then .next s.barDrop else put { h with qbase := addr 12 }
  | 0x010, 8 => if h.mbEn ∧ addr 12 ≠ h.rbase then .next s.barDrop else put { h with rbase := addr 12 }
  | 0x018, 4 => .next (s.bell (w.setWidth 16))
  | 0x01C, 4 => put { h with ovr := h.ovr && !w.getLsbD 30 }
  | 0x100, 4 => .next (s.slCtl w)
  | 0x108, 8 => put { h with inAddr := addr 14 }
  | 0x110, 8 => if h.slRt ∧ addr 12 ≠ h.rtBase then .next s.barDrop else put { h with rtBase := addr 12 }
  | 0x118, 4 => put { h with ci := w.setWidth 16, rtFull := h.rtFull && decide (w.setWidth 16 = h.ci) }
  | 0x11C, 4 => .next s
  | 0x200, 8 =>
    let b := v / 2 ^ 30 % 2 ^ 16
    if b % 2 ^ h.bar2Log = 0 then put { h with hbBase := BitVec.ofNat 16 b } else .next s.barDrop
  | 0x208, 4 => .next s
  | 0x1000, 4 => .next (s.odCmd w)
  | 0x1004, 4 => put { h with odLen := w.setWidth 16 }
  | _, _ =>
    if 0x2000 ≤ o ∧ o + n ≤ 0x3000 ∧ o % n = 0 then
      put { h with odData := (List.range n).foldl (fun m i => Table.putc 0 m (o - 0x2000 + i) (BitVec.ofNat 8 (v / 2 ^ (8 * i)))) h.odData }
    else .next s.barDrop

/-- MAILBOX_ENABLE (R421): a write of MB_CTL. -/
def execMailboxEnable (v : Word) (s : State) : Out := if s.barsOff then .next s else .next (s.mbCtl v)
/-- DOORBELL (R425): a write of MB_DB. -/
def execDoorbell (tail : BitVec 16) (s : State) : Out := if s.barsOff then .next s else .next (s.bell tail)
/-- RETIRE_ENABLE (R421): a write of SL_CTL. -/
def execRetireEnable (v : Word) (s : State) : Out := if s.barsOff then .next s else .next (s.slCtl v)
/-- DICTIONARY_WINDOW_ACCESS (R422): a write of OD_CMD. -/
def execDictionaryWindowAccess (cmd : Word) (s : State) : Out := if s.silent ∨ s.host.d3 then .next s else .next (s.odCmd cmd)

/-! ## Host reads of BAR0, and the configuration space (R416, R417, R420) -/

/-- A BAR0 register as it is read (Table 18.3): its value, where the offset and width name one. -/
def HostIf.bar0Reg (h : HostIf) (o n : Nat) : Option Nat :=
  match o, n with
  | 0x000, 4 => some (bnat h.mbEn * 2 ^ 31 + h.mbLog.toNat)
  | 0x008, 8 => some h.qbase.toNat
  | 0x010, 8 => some h.rbase.toNat
  | 0x018, 4 => some 0
  | 0x01C, 4 => some (bnat h.mbEn * 2 ^ 31 + bnat h.ovr * 2 ^ 30 + h.head.toNat)
  | 0x100, 4 => some (bnat h.slIn * 2 ^ 31 + bnat h.slRt * 2 ^ 30 + h.rtLog.toNat)
  | 0x108, 8 => some h.inAddr.toNat
  | 0x110, 8 => some h.rtBase.toNat
  | 0x118, 4 => some h.ci.toNat
  | 0x11C, 4 => some h.pi.toNat
  | 0x200, 8 => some (h.hbBase.toNat * 2 ^ 30)
  | 0x208, 4 => some (h.speed.toNat * 2 ^ 28 + h.width.toNat * 2 ^ 23)
  | 0x1000, 4 => some (bnat h.odWr * 2 ^ 30 + h.odIndex.toNat * 2 ^ 8 + h.odSub.toNat)
  | 0x1004, 4 => some (bnat h.odBusy * 2 ^ 31 + h.odStat.toNat * 2 ^ 16 + h.odLen.toNat)
  | _, _ => if 0x2000 ≤ o ∧ o + n ≤ 0x3000 ∧ (n = 1 ∨ n = 2 ∨ n = 4 ∨ n = 8) ∧ o % n = 0 then
      some (leNat ((List.range n).map (fun i => Table.get 0 h.odData (o - 0x2000 + i)))) else none

/-- A host read completes: with data, or with Unsupported Request, which AER records. -/
def State.readDone (s : State) (v : Option (List Byte)) : State :=
  match v with
  | some bs => { s with host := { s.host with rdData := bs, rdPois := [], rdUr := false } }
  | none => { s with host := { s.host with rdData := [], rdPois := [], rdUr := true, aer := s.host.aer ||| 0x100000 } }

/-- A read of BAR0 (R420, R421). -/
def State.bar0Read (s : State) (o n : Nat) : State :=
  match s.host.bar0Reg o n with
  | some v => s.readDone (some (leBytes n v))
  | none => (s.readDone none).barDrop

/-- log2 of the largest BAR2 size advertised, in GiB (0x6003:01). -/
def State.bar2Max (s : State) : Nat := s.bootSetting 0x6003 1 6

/-- A word of the configuration space (R416, R417): identifiers, class code and revision; Interrupt Pin; the power state; AER's uncorrectable status; BAR2's sizes and size. [PRESUMED, log entry 170: unsafe] -/
def State.cfgWord (s : State) (o : Nat) : Nat :=
  match o with
  | 0x00 => (if s.dev.map = 0xFFFF then 0xE401 else 0xE402) * 2 ^ 16 + Config.vendorId.toNat
  | 0x08 => 0x120000 * 2 ^ 8 + (if s.dev.b0 then 0x10 else 0)
  | 0x3C => 0
  | 0x44 => if s.host.d3 then 3 else 0
  | 0x104 => s.host.aer.toNat
  | 0x204 => (2 ^ (s.bar2Max + 1) - 1) * 2 ^ 14
  | 0x208 => (10 + s.host.bar2Log) * 2 ^ 8 + 0x22
  | _ => 0

/-- A byte of the configuration space. -/
def State.cfgByte (s : State) (o : Nat) : Byte := BitVec.ofNat 8 (s.cfgWord (o / 4 * 4) / 2 ^ (8 * (o % 4)))

/-- A write of the configuration space: the power state takes D0 or D3hot, AER's bits clear where 1 is written, and BAR2 takes an advertised size (R416, R423). -/
def State.cfgWrite (s : State) (o n v : Nat) : State :=
  let h := s.host
  let k := bitsOf v 13 8 - 10
  if s.dev.st = .off ∨ n ≠ 4 then s
  else match o with
  | 0x44 => if v % 4 = 0 then { s with host := { h with d3 := false } } else if v % 4 = 3 then { s with host := { h with d3 := true } } else s
  | 0x104 => { s with host := { h with aer := h.aer &&& ~~~(BitVec.ofNat 32 v) } }
  | 0x208 => if 10 ≤ bitsOf v 13 8 ∧ k ≤ s.bar2Max then { s with host := { h with bar2Log := k } } else s
  | _ => s

/-! ## BAR2 (R423, R424) -/

/-- The local address that BAR2 offset `off` reaches, where `n` bytes lie in the memory class. -/
def State.bar2At (s : State) (off n : Nat) : Option Nat :=
  let a := s.host.hbBase.toNat * 2 ^ 30 + off
  if off + n ≤ 2 ^ (30 + s.host.bar2Log) ∧ n ≠ 0 ∧ inMemory a n then some a else none

/-- EP of each burst that `n` bytes from `a` on touch (R423). -/
def State.poisons (s : State) (a n : Nat) : List Bool :=
  (List.range ((a + n - 1) / 64 - a / 64 + 1)).map (fun i => s.localBad ((a / 64 + i) * 64) 64)

/-- A BAR2 read completes: from address `a`, or with Unsupported Request where its window gives none (R423). -/
def State.bar2Done (s : State) (off n : Nat) (a : Option Nat) : State :=
  match a with
  | none => (s.readDone none).barDrop.logEv 0x1102 true (lf off)
  | some a =>
    let ep := s.poisons a n
    let s := { s with host := { s.host with rdData := s.localRead a n, rdPois := ep, rdUr := false } }.localSee a n
    if ep.any id then s.logEv 0x1102 true (lf off) else s

/-- A read of BAR2 (R423, R424): completed once every earlier BAR2 write is acknowledged; until then it waits, with the address that the window gives now (R436). [DEDUCED, log entry 87: unsafe] -/
def State.bar2Get (s : State) (off n : Nat) : State :=
  let a := s.bar2At off n
  if s.host.bar2W = [] ∧ s.host.bar2R = [] then s.bar2Done off n a
  else { s with host := { s.host with bar2R := s.host.bar2R ++ [(off, a, n, s.host.bar2W)] } }

/-- The oldest waiting BAR2 read completes once its earlier writes are acknowledged (R424). -/
def State.barCycle (s : State) : State :=
  match s.host.bar2R with
  | (off, a, n, []) :: rs => { s with host := { s.host with bar2R := rs } }.bar2Done off n a
  | _ => s

/-- BAR2_READ (R417, R420, R423, R424): a host read; one of a BAR that is not decoded completes with Unsupported Request. [DESIGN CHOICE, log entry 171: safe] -/
def execBar2Read (off : HostRead) (len : Nat) (s : State) : Out :=
  if s.dev.st = .off then .next s
  else match off with
    | .config o => .next (s.readDone (some ((List.range len).map (fun i => s.cfgByte (o + i)))))
    | .bar0 o => .next (if s.host.d3 then s.readDone none else s.bar0Read o len)
    | .bar2 o => .next (if s.host.d3 then s.readDone none else s.bar2Get o len)

/-- BAR2_WRITE (R423): a posted write of the memory class. -/
def execBar2Write (off : Nat) (bytes : List Byte) (s : State) : Out :=
  if s.barsOff then .next s
  else match s.bar2At off bytes.length with
    | none => .next (s.barDrop.logEv 0x1102 true (lf off))
    | some a =>
      let (s, outs) := s.devPut a bytes 0
      .next { s with host := { s.host with bar2W := s.host.bar2W ++ outs.map (·.1) } }

/-! ## Fetching a request (R424, R425, R429) -/

/-- The next request is fetched, where the mailbox may fetch it: its index. -/
def State.fetch (s : State) : Option (State × BitVec 16) :=
  let h := s.host
  let fenced : Bool := match h.bells with | b :: _ => !b.2.isEmpty | [] => false
  if h.mbEn = false ∨ s.dev.st = .off ∨ s.dev.st = .tadpole ∨ h.head = h.tail
      ∨ 16 ≤ (h.reqs.filter (fun q => !q.mute)).length ∨ fenced then none
  else
    let head := h.head + 1
    some ({ s with host := { h with head, bells := h.bells.dropWhile (fun b => decide (b.1 = head)) } }, h.head)

/-- A fetched request: LEN and res bytes, then the state, then its effect (R429). [DEDUCED, log entry 89: unsafe] -/
def State.mailbox (s : State) (r : ReqHdr) (len : Nat) (ok : DevSt → Bool) (f : State → BitVec 16 → Out) : Out :=
  match s.fetch with
  | none => .next s
  | some (s, i) =>
    if r.resOk = false ∨ r.len.toNat ≠ len then .next (s.reply i r.tag stBadlen [])
    else if ok s.dev.st then f s i
    else .next (s.reply i r.tag stState [])

/-- States from PREOP on. -/
def preopOn (_ : DevSt) : Bool := true
/-- READY, RUN and HOLD. -/
def servingSt (t : DevSt) : Bool := decide (t = .ready) || decide (t = .run) || decide (t = .hold)

/-- A request that stays unreplied. -/
def State.keepReq (s : State) (i : BitVec 16) (tag : Word) (what : Hdma ⊕ HWait) : State × HReq :=
  let q : HReq := { index := i, tag, what, mute := false }
  ({ s with host := { s.host with reqs := s.host.reqs ++ [q] } }, q)

/-- NOP_COMMAND (R429). -/
def execNopCommand (r : ReqHdr) (s : State) : Out := s.mailbox r 0 preopOn (fun s i => .next (s.reply i r.tag stOk []))

/-- DICT_READ (R429, R445). -/
def execDictRead (r : ReqHdr) (index : BitVec 16) (sub : Byte) (off : Word) (s : State) : Out :=
  s.mailbox r 8 preopOn (fun s i =>
    let (st, ty, len, bs) := s.dictGet .mailbox index.toNat sub.toNat off.toNat 232
    .next (s.reply i r.tag st (if st = stOk then [BitVec.ofNat 8 ty, 0] ++ leBytes 2 len ++ leBytes 4 0 ++ bs else [])))

/-- DICT_WRITE (R429, R445): OFFSET 0 and at most 232 bytes. [DEDUCED, log entry 90: unsafe] -/
def execDictWrite (r : ReqHdr) (index : BitVec 16) (sub : Byte) (off : Word) (value : List Byte) (s : State) : Out :=
  s.mailbox r (8 + value.length) preopOn (fun s i =>
    if 232 < value.length then .next (s.reply i r.tag stBadlen [])
    else if off ≠ 0 then .next (s.reply i r.tag stRange [])
    else match s.dictPut .mailbox index.toNat sub.toNat value with
      | .ok s st => .next (s.reply i r.tag st [])
      | .fault f => .fault f)

/-- LOG_READ (R429, R485): whole records from FROM, up to 240 bytes. -/
def execLogRead (r : ReqHdr) (sfrom : DWord) (s : State) : Out :=
  s.mailbox r 8 preopOn (fun s i => .next (s.reply i r.tag stOk (fitRecs 240 (s.log.since sfrom.toNat))))

/-- ATTN_ACK (R428): attention events of records up to `q` are acknowledged; the reply holds the remaining count. -/
def execAttnAck (r : ReqHdr) (q : DWord) (s : State) : Out :=
  s.mailbox r 8 preopOn (fun s i =>
    let l := s.log
    let l := { l with recs := l.recs.map (fun x => if x.seq ≤ q.toNat then { x with una := 0 } else x),
                      gone := l.gone.filter (fun g => decide (q.toNat < g.1)), ackSeq := max l.ackSeq q.toNat }
    let s := { s with log := l }
    .next (s.reply i r.tag stOk (leBytes 4 l.attn)))

/-! ## STATE (R450) -/

/-- A STATE transition or a release is in progress. -/
def State.moving (s : State) : Bool :=
  s.mgmt.axo.isSome || s.host.reqs.any (fun q => match q.what with | .inr .toReady => true | .inr .toPreop => true | .inr .toAxolotl => true | .inr (.release _) => true | _ => false)

/-- STATE READY from RUN or HOLD, once no placed core runs. -/
def State.toReadyDone (s : State) : State :=
  ({ s with beat := s.beat.setSten false, loader := { s.loader with img := 3 } }).toState .ready 0

/-- A request that waits for a transition, a load, a release or its turn, looked at again; one that has not started ends with STATE in FAULT, and a load or a release that has goes on (Table 16.15, Table 18.8). -/
def State.reqPoll (s : State) (q : HReq) : Out :=
  match q.what with
  | .inr .toReady =>
    if s.dev.st = .run ∨ s.dev.st = .hold then
      if s.placedCores.any (fun c => decide ((s.core (BitVec.ofNat 10 c)).run.st = .running)) then .next s
      else .next (s.toReadyDone.finish q stOk [])
    else if s.dev.st = .axolotl then
      match s.mgmt.leaving with
      | none => if s.anyRunning || !s.vmQuietAll then .next s else .next (s.sawContexts.axoLeave s.savedContexts)
      | some ctx =>
        if s.erasingImage then .next s
        else if s.loader.image.isNone then .next ((s.axoOut .preop).finish q stState [])
        else match s.axoPlace ctx with
          | .ok t => .next (t.finish q stOk [])
          | .fail _ t => .next t
          | .fault f => .fault f
    else .next (s.finish q stState [])
  | .inr .toPreop =>
    if s.dev.st = .axolotl then
      match s.mgmt.leaving with
      | none => if s.anyRunning || !s.vmQuietAll then .next s else .next ((s.axoLeave ([], [])).discardImage)
      | some _ => if s.erasingImage then .next s else .next ((s.axoOut .preop).finish q stOk [])
    else if s.dev.st = .ready then (if s.erasingImage then .next s else .next ((s.toState .preop 0).finish q stOk []))
    else .next (s.finish q stState [])
  | .inr .toAxolotl =>
    if s.dev.st = .axolotl then .next (s.finish q stOk [])
    else if s.mgmt.axo.isNone then .next (s.finish q stState [])
    else .next s
  | .inl x => if s.dev.st = .fault ∧ x.active = false then .next (s.finish q stState (leBytes 4 0)) else .next s
  | .inr (.bind _ _ _) => if s.dev.st = .fault then .next (s.finish q stState []) else .next s
  | .inr (.unbind _ _) => if s.dev.st = .fault then .next (s.finish q stState []) else .next s
  | .inr (.load mbase peers) =>
    if s.dev.st ≠ .preop ∧ s.dev.st ≠ .ready ∧ s.dev.st ≠ .fault then
      let s := { s with loader := { s.loader with busy := false, next := none } }
      .next ((s.loadStatus .state s.loader.imgid).finish q 5 (leBytes 8 0))
    else if s.anyRunning || s.erasingImage then .next s
    else if s.loader.image.isSome then .next s.discardImage
    else match s.loader.next with
      | none => .next (s.finish q 5 (leBytes 8 0))
      | some (im, rmap) =>
        let s := { s with loader := { s.loader with busy := false, next := none } }
        match s.finishLoad im rmap mbase peers true with
        | (.fault f, _) => .fault f
        | (.ok t, st) => .next (t.finish q st.code (leBytes 2 t.loader.cmpN ++ leBytes 2 t.loader.cmpPos ++ leBytes 2 t.loader.cmpNeg ++ leBytes 2 t.loader.cmpOne))
        | (.fail _ t, st) => .next (t.finish q st.code (leBytes 8 0))
  | .inr (.release start) =>
    if s.dev.st ≠ .ready ∧ s.dev.st ≠ .fault then .next ((s.releaseEnd .state).finish q LStat.state.code [])
    else match s.releaseStep start with
      | (s, some st) => .next (s.finish q st.code [])
      | (s, none) => .next s
  | _ => .next s

/-- Every waiting request, entry to AXOLOTL and recovery load is looked at again. -/
def State.poll (s : State) : Out :=
  match (match s.axoPoll.recoveryPoll with | .next s => s.odRun | o => o) with
  | .next s => s.host.reqs.foldl (fun (o : Out) q => match o with | .next s => s.reqPoll q | o => o) (.next s)
  | o => o

/-- STATE (R450, Table 19.7). [DEDUCED, log entry 118: unsafe] -/
def execState (r : ReqHdr) (target : Byte) (s : State) : Out :=
  s.mailbox r 1 preopOn (fun s i =>
    let d := s.dev.st
    let no (st : Nat) : Out := .next (s.reply i r.tag st [])
    if 7 < target.toNat then no stRange
    else if s.moving then no stState
    else if target = 3 ∧ (d = .run ∨ d = .hold) then
      let s := s.placedCores.foldl (fun s c => s.stopReq (BitVec.ofNat 10 c)) s
      let (s, q) := s.keepReq i r.tag (.inr .toReady)
      s.reqPoll q
    else if target = 3 ∧ d = .axolotl ∧ s.loader.image.isSome then
      let (s, q) := s.stopAll.keepReq i r.tag (.inr .toReady)
      s.reqPoll q
    else if target = 2 ∧ d = .ready then
      let (s, q) := s.discardImage.keepReq i r.tag (.inr .toPreop)
      s.reqPoll q
    else if target = 2 ∧ d = .axolotl then
      let (s, q) := s.stopAll.keepReq i r.tag (.inr .toPreop)
      s.reqPoll q
    else if target = 6 ∧ servingSt d then
      if s.axoOverlap then no stRange
      else
        let (s, q) := s.axoStart.keepReq i r.tag (.inr .toAxolotl)
        s.axoPoll.reqPoll q
    else no stState)

/-! ## LOAD, RELEASE, RESYNC (R380, R382, R356) -/

/-- The peer table at PTAB (R429), read; `none` where it cannot be read. -/
def State.peerTable (s : State) (ptab n : Nat) : State × Option (List (BitVec 16)) :=
  if n = 0 then (s, some [])
  else if inMemory ptab (2 * n) then
    let s := s.localSee ptab (2 * n)
    let bs := s.localRead ptab (2 * n)
    (s, if s.localBad ptab (2 * n) then none else some ((List.range n).map (fun i => BitVec.ofNat 16 (leAt bs (2 * i) 2))))
  else (s, none)

/-- LOAD (R380, R381): steps 1 to 5 at once, the rest once every core has stopped. -/
def execLoad (r : ReqHdr) (mbase ptab : DWord) (npeer : BitVec 16) (s : State) : Out :=
  s.mailbox r 18 preopOn (fun s i =>
    let id := BitVec.ofNat 64 (leAt (s.localRead s.stageBase 64) 8 8)
    let no (s : State) (st : LStat) : Out :=
      let s := s.loadStatus st id
      .next (s.reply i r.tag st.code (leBytes 2 s.loader.cmpN ++ leBytes 2 s.loader.cmpPos ++ leBytes 2 s.loader.cmpNeg ++ leBytes 2 s.loader.cmpOne))
    if (s.dev.st ≠ .preop ∧ s.dev.st ≠ .ready) ∨ s.loader.busy ∨ s.moving then no s .state
    else if 256 < npeer.toNat then no s .range
    else match s.peerTable ptab.toNat npeer.toNat with
      | (s, none) => no s .stage
      | (s, some peers) =>
        match s.loadCheck s.stageBase mbase.toNat true false with
        | (s, .inl st) => no s st
        | (s, .inr x) =>
          let s := { s with loader := { s.loader with busy := true, next := some x } }.stopAll
          let (s, q) := s.keepReq i r.tag (.inr (.load mbase peers))
          s.reqPoll q)

/-- RELEASE (R382): what precedes the first RUN at once, the RUNs as `State.releaseStep` has them. -/
def execRelease (r : ReqHdr) (start : DWord) (s : State) : Out :=
  s.mailbox r 8 preopOn (fun s i =>
    match s.release start with
    | .fault f => .fault f
    | .fail st s => .next (s.reply i r.tag st.code [])
    | .ok s =>
      let (s, q) := s.keepReq i r.tag (.inr (.release start))
      s.reqPoll q)

/-- RESYNC (R356, R429): BT_RSB and RESYNC are written. -/
def execResync (r : ReqHdr) (beat : DWord) (s : State) : Out :=
  s.mailbox r 8 servingSt (fun s i =>
    .next (({ s with beat := { s.beat with rsb := beat } }.resyncWrite).reply i r.tag stOk []))

/-! ## BIND, UNBIND, SEMADD, HDMA (R431, R434, R435) -/

/-- A binding request: it waits behind an earlier change of its slot, or goes on (R431). -/
def State.bindCmd (s : State) (i : BitVec 16) (tag : Word) (slot : BitVec 16) (eff half : Word) (unbind : Bool) : State :=
  if sdiff eff s.bcnt32 ≤ 1 then s.reply i tag stLate []
  else if s.aitBase.isNone then s.reply i tag stState []
  else
    let ahead := s.bindAhead slot.toNat || s.host.reqs.any (fun q => match q.what with
      | .inr (.bind t _ _) => decide (t = slot) | .inr (.unbind t _) => decide (t = slot) | _ => false)
    let (s, q) := s.keepReq i tag (.inr (if unbind then .unbind slot eff else .bind slot eff half))
    if ahead then s else s.bindTry q slot eff half unbind

/-- BIND (R431). -/
def execBind (r : ReqHdr) (slot : BitVec 16) (eff half : Word) (s : State) : Out :=
  s.mailbox r 12 servingSt (fun s i => .next (s.bindCmd i r.tag slot eff half false))

/-- UNBIND (R431). -/
def execUnbind (r : ReqHdr) (slot : BitVec 16) (eff : Word) (s : State) : Out :=
  s.mailbox r 8 servingSt (fun s i => .next (s.bindCmd i r.tag slot eff 0 true))

/-- SEMADD (R435): the management subsystem sends the add with ORD = 1; the reply follows its answer. -/
def execSemadd (r : ReqHdr) (snw val : Word) (s : State) : Out :=
  s.mailbox r 8 (fun d => servingSt d || decide (d = .axolotl)) (fun s i =>
    let w := snw.toNat
    let (s, tid) := s.mgmtTid
    let s := s.inject (semPkt s mgmtNode 0 tid (BitVec.ofNat 10 (bitsOf w 15 6)) (bitsOf w 31 22) (bitsOf w 21 16) 0 0 val true)
    .next (s.keepReq i r.tag (.inr (.semadd tid))).1)

/-- HDMA (R434). -/
def execHdma (r : ReqHdr) (dir : Byte) (len : Word) (haddr daddr : DWord) (s : State) : Out :=
  s.mailbox r 24 (fun d => decide (d ≠ .fault)) (fun s i =>
    let n := len.toNat
    if 1 < dir.toNat ∨ n = 0 ∨ 2 ^ 30 < n ∨ inMemory daddr.toNat n = false then .next (s.reply i r.tag stRange (leBytes 4 0))
    else
      let x : Hdma := { toHost := decide (dir = 1), len := n, haddr := haddr.toNat, daddr := daddr.toNat }
      .next (s.keepReq i r.tag (.inl x)).1.hdmaStart)

/-- UNKNOWN_OP_REQUEST (R429): an OP that Table 18.6 does not list. -/
def execUnknownOpRequest (r : ReqHdr) (op : Byte) (s : State) : Out :=
  if [0, 1, 2, 3, 4, 8, 0x10, 0x11, 0x12, 0x20, 0x21, 0x30, 0x31].contains op.toNat then .next s
  else match s.fetch with
    | none => .next s
    | some (s, i) => .next (s.reply i r.tag stBadop [])

/-- HOST_READ_COMPLETION (R432, R434): data, or an error, for a host read of a transfer or of an input pull. [DEDUCED, log entry 135: safe] -/
def execHostReadCompletion (tag : Nat) (ok : Bool) (bytes : List Byte) (s : State) : Out :=
  match s.host.reqs.findSome? (fun q => match q.what with | .inl x => if x.tag = some tag then some (q, x) else none | .inr _ => none) with
  | some (q, x) => if ok ∧ bytes.length ≠ x.reqd - x.done then .next s else .next (s.hdmaHost q x ok bytes)
  | none => match s.host.pull with
    | some x => match x.tags.find? (fun t => decide (t.1 = tag)) with
      | some t => if ok ∧ bytes.length ≠ 4096 then .next s else .next (s.pullHost x tag t.2 ok bytes)
      | none => .next s
    | none => .next s

/-! ## Answers to the management subsystem -/

/-- SCRUBs of a stack that no ring, command or packet holds any more are sent again (R500). -/
def State.resendScrubs (s : State) (st : Nat) : State :=
  let k := s.stack st
  let held (d : BitVec 512) : Bool :=
    k.cmds.any (fun c => decide (c.desc = d)) || k.ring.any (fun r => (List.range 8).any (fun i => decide (rowDesc r.row i = d)))
      || s.net.any (fun p => decide (p.kind = .msg) && decide (p.toWindow = some st) && (List.range 8).any (fun i => decide (rowDesc p.data i = d)))
  s.sendScrubs st ((s.mgmt.erase.flatMap (fun e => (e.outs.filter (fun o => decide (o.1 = st))).map (fun o => e.desc o.2.1 o.2.2.1))).filter (fun d => !held d))

/-- RDR, WACK, ERR or SACK for the management subsystem: binding and ring writes, semaphore adds, SCRUB rows. -/
def State.mgmtAnswer (s : State) (p : Packet) (ok : Bool) : State :=
  let want (w : HWait) : Bool := match w with | .bindAck _ t => decide (t = p.tid) | .semadd t => decide (t = p.tid) | _ => false
  match s.host.reqs.find? (fun q => match q.what with | .inr w => want w | .inl _ => false) with
  | some q =>
    match q.what with
    | .inr (.bindAck slot _) =>
      if ok then s.finish q stOk []
      else
        let h := s.host
        { s with host := { h with binds := h.binds.filter (fun b => decide (b.slot ≠ slot.toNat)), lastEff := Table.erase h.lastEff slot.toNat } }.finish q stMemerr []
    | _ => if ok then s.finish q stOk [] else s.finish q stSemerr []
  | none =>
    match p.toWindow with
    | some st => if ok then s else s.resendScrubs st
    | none => if ok then { s with loader := { s.loader with outs := s.loader.outs.filter (fun o => decide (o.1 ≠ p.tid)) } } else s

end Sys2Proof.Machine
end

