-- ==== Sys2Proof/Machine/Boundary.lean ====
section
/-! DEFINITION. The application of beat boundaries (R349-R351, R356, R363, R367) and the flywheel (R355). -/

namespace Sys2Proof.Machine

/-- RESYNC takes effect at a boundary applied in LOCKED (R356, Table 15.9a). -/
def Beat.resyncs (b : Beat) : Bool := b.resync && decide (b.lock = .locked)

/-- The number that an applied boundary gives its beat (R356). -/
def Beat.newNumber (b : Beat) (d : Due) : DWord :=
  if b.resyncs then b.rsb
  else if b.first then (if b.role = 3 then (match d.beat with | some n => n | none => b.rsb) else b.rsb)
  else b.bcnt + 1

/-- LAG at the boundary (R363); a resynchronisation clears it. -/
def Beat.newLag (b : Beat) (slack str : Nat) : BitVec 24 :=
  if b.resyncs then 0 else BitVec.ofNat 24 (min (2 ^ 24 - 1) (b.lag.toNat + b.stallb.toNat - slack - str))

/-- Beat HOLD ends with a resynchronisation, or begins where LAG exceeds LAGMAX * PERIOD (R367). [DEDUCED, log entry 70: unsafe] -/
def State.boundaryHold (s : State) (resync : Bool) : State :=
  let b := s.beat
  if resync then ({ s with beat := { b with bhold := false } }).setHold 2 false
  else if b.bhold = false ∧ b.lagmax.toNat * b.period.toNat < b.lag.toNat then s.beatHold
  else s

/-- HOLD ends at the applied boundary at which no cause is set any more, so that a cause that sets in the beat in which the last one cleared keeps the device in HOLD (R451, Table 19.7). [DEDUCED, log entry 66: unsafe] -/
def State.holdEnds (s : State) : State := if s.dev.st = .hold ∧ s.dev.holds = 0 then s.toState .run 0 else s

/-- The lag episode at a boundary (R363). -/
def State.lagEpisode (s : State) : State :=
  let on := decide (s.beat.lag ≠ 0)
  let s' := { s with beat := { s.beat with lagEp := on } }
  if on && !s.beat.lagEp then s'.logEv 0x0F02 true (lf s.beat.bcnt.toNat ++ lf s.beat.lag.toNat) else s'

/-- Newt switches, bindings, pulls and retirement of an applied boundary (R218, R431-R433). -/
def State.boundaryUnits (s : State) : State :=
  let s := forN 8 (fun s i => s.setStack i ((s.stack i).switchReached s.bcnt32)) s
  s.bindBoundary.retireBoundary.pullBoundary

/-- A boundary is applied (R349, R350, R353, R363, R364, R367); with EN = 0 only the lock's clock follows it (R368). -/
def State.applyBoundary (s : State) (d : Due) : State :=
  let b := s.beat
  if b.en = false then { s with beat := { b with lastApp := d.time, heldB := d.beat.getD (b.heldB + 1) } }
  else
    let resync := b.resyncs
    let n := b.newNumber d
    let lag := b.newLag s.slackNow d.str
    let b' := { b with bcnt := n, lag, stallb := 0, holdMax := 0, first := false, resync := b.resync && !resync, lastApp := d.time, pulses := b.pulses + 1 }
    let s := ({ s with beat := b' }.boundaryHold resync).holdEnds.lagEpisode
    let s := if s.beat.bhold then s else { s with beat := { s.beat with beatl := s.beat.beatl ++ [(d.time + 64, s.bcnt32)] } }
    s.powerBoundary.boundaryUnits.holdRequest

/-- A received boundary at which an external master locks is its first generated one (R353). [DEDUCED, log entry 163: unsafe] -/
def State.firstPulse (s : State) (d : Due) : State :=
  if s.beat.role = 1 ∧ s.beat.en then
    let t := ({ s with beat := { s.beat with toApply := [] } }).generated (d.time - s.beat.comp.toNat) 0
    { t with beat := { t.beat with toApply := s.beat.toApply } }
  else s

/-- BEAT_BOUNDARY_APPLY (R349, R354, R355): the time of the oldest received or generated boundary has come: the lock judges it, and it is applied where Table 15.2 says so. -/
def execBeatBoundaryApply (s : State) : Out :=
  match s.beat.toApply with
  | [] => .next s
  | d :: ds =>
    if d.time ≤ s.beat.devt.toNat then
      let s := { s with beat := { s.beat with toApply := ds } }
      let (t, apply) := s.judge d
      .next (if apply then (if s.beat.lock = .locked then t else t.firstPulse d).applyBoundary d else t)
    else .next s

/-- A flywheel boundary is applied and counted, with EN = 0 neither (R368); the sixteenth loses the lock (Table 15.2). -/
def State.flyBoundary (s : State) (t : Nat) : State :=
  let s := { s with beat := { s.beat with fly := s.beat.fly + 1 } }
  let s := if s.beat.en then s.count 0x1003 8 else s
  let s := s.applyBoundary { time := t, beat := none, str := 0 }
  if 16 ≤ s.beat.fly then s.loseLock else s

/-- FLYWHEEL_ENTRY (R355): no received boundary within 2 * PERIOD + 64 cc; the missed beat's boundary is applied at once. -/
def execFlywheelEntry (s : State) : Out :=
  let b := s.beat
  let last := b.lastApp + 2 * b.period.toNat + 64
  if b.lock = .locked ∧ b.role ≠ 0 ∧ b.toApply.all (fun d => decide (last < d.time)) ∧ last < b.devt.toNat then
    let s := { s with beat := { b with lock := .flywheel, fly := 0 } }.lockEvent 2
    .next (s.flyBoundary b.devt.toNat)
  else .next s

/-- FLYWHEEL_BOUNDARY (R355): PERIOD after the previous applied boundary. [DEDUCED, log entry 69: unsafe] -/
def execFlywheelBoundary (s : State) : Out :=
  let b := s.beat
  if b.lock = .flywheel ∧ b.nextDue ≤ b.devt.toNat then .next (s.flyBoundary b.nextDue) else .next s

end Sys2Proof.Machine
end

