-- ==== Sys2Proof/Machine/Fabric.lean ====
section
/-! DEFINITION. Answers on the fabric: RDR, WACK, ERR and SACK reach their requesters (Table 11.4, R267, R408), and writes of registers without a command of their own (R11). -/

namespace Sys2Proof.Machine

/-- The stack whose rim node a node is. -/
def stackOf (n : NodeId) : Option Nat := (List.range 8).find? (fun i => decide (stackNode i = n))

/-- An RDR, a WACK, or an error of status `st`, at its requester. -/
def State.answer (s : State) (p : Packet) (ok : Bool) (st : Nat) : State :=
  if p.dst.toNat < 1024 then
    if p.dport.toNat < 2 then s.coreAnswer p.core p ok st
    else if p.dport = 2 then
      (if ok = false then s.chanErr p.unit (chanOf p) p st
       else if p.kind = .rdr then s.chanData p.unit (chanOf p) p
       else s.chanAck p.unit (chanOf p) p)
    else if ok then s else s.count 0x4050 4
  else if p.dst = hostNode then s.hostAnswer p ok
  else if p.dst = mgmtNode then s.mgmtAnswer p ok
  else match stackOf p.dst with
    | some i => (s.newtAnswer i p ok).getD s
    | none => s

/-- An answer; a poisoned one counts as an ERR of status 0x3 (R267). -/
def State.answered (s : State) (p : Packet) : State :=
  if p.psn then s.answer p false 3
  else if p.kind = .err then s.answer p false p.status.toNat
  else s.answer p true 0

/-- The answer to a program fetch of a DMA channel, which GECKO_FETCH delivers. -/
def State.isFetch (s : State) (p : Packet) : Bool :=
  decide (p.dst.toNat < 1024) && decide (p.dport = 2)
    && (s.chan p.unit (chanOf p)).outs.any (fun o => decide (o.1 = p.tid) && (match o.2 with | .fetch _ => true | _ => false))

/-- The answer to a save write of an entry, which SAVE_WRITE_ACK delivers. -/
def State.isSave (s : State) (p : Packet) : Bool :=
  decide (p.dst.toNat < 1024) && decide (p.dport = 0)
    && (s.core p.core).lsu.outs.any (fun o => decide (o.1 = p.tid) && (match o.2 with | .save _ => true | _ => false))

/-- READ_RESPONSE (R129): an RDR reaches its requester. -/
def execReadResponse (k : Nat) (flt : Bool) (s : State) : Out :=
  s.deliver k flt (fun p => decide (p.kind = .rdr) && !s.isFetch p) (fun s p => .next (s.answered p))

/-- WRITE_ACKNOWLEDGEMENT (R320): a WACK reaches its requester. -/
def execWriteAcknowledgement (k : Nat) (flt : Bool) (s : State) : Out :=
  s.deliver k flt (fun p => decide (p.kind = .wack) && (flt || !s.isSave p)) (fun s p => .next (s.answered p))

/-- ERROR_REPLY (R89, R343): an ERR on VC2 reaches its requester. -/
def execErrorReply (k : Nat) (flt : Bool) (s : State) : Out :=
  s.deliver k flt (fun p => decide (p.kind = .err) && !p.red) (fun s p => .next (s.answered p))

/-- SEMAPHORE_RESPONSE (R304, R307, R310): a SACK, or the ERR that answers a SEM, reaches the sender. -/
def execSemaphoreResponse (k : Nat) (flt : Bool) (s : State) : Out :=
  s.deliver k flt (fun p => decide (p.kind = .sack) || (decide (p.kind = .err) && p.red)) (fun s p =>
    let sack := decide (p.kind = .sack)
    let good := sack && decide (p.status = 0)
    let report (s : State) : State := if good then s else s.addError p sack
    if p.dst.toNat < 1024 then
      if p.dport = 0 then .next (s.coreSack p.core p sack)
      else if p.dport = 2 then
        let ch := chanOf p
        let h := s.chan p.unit ch
        if h.outs.any (fun o => decide (o.1 = p.tid) && decide (o.2 = .sem)) then
          if sack then .next (s.chanSack p.unit ch p) else .next (s.chanErr p.unit ch p p.status.toNat)
        else .next (report s)
      else .next (report s)
    else if p.dst = mgmtNode then .next ((report s).mgmtAnswer p good)
    else .next (report s))

/-- REGISTER_WRITE (R11, R420): a register takes a value, in BAR0 or the configuration space from the host, or at a local address from the management subsystem; a refused write changes nothing. -/
def execRegisterWrite (sp : RegSpace) (off : BitVec 46) (w : Width) (v : DWord) (s : State) : Out :=
  match sp with
  | .bar0 => s.bar0Write off.toNat w.bytes v.toNat
  | .config => .next (s.cfgWrite off.toNat w.bytes v.toNat)
  | .local_ =>
    if s.dev.st = .off ∨ 8 < w.bytes then .next s
    else match s.mgmtWrite off.toNat (leBytes w.bytes v.toNat) with
      | .ok t => .next t
      | .err _ t => .next t
      | .fault f => .fault f

end Sys2Proof.Machine
end

