-- ==== Sys2Proof/Machine/Certs.lean ====
section
/-! DEFINITION. X.509 certificates in DER (R488, R491; RFC 5280, X.690), and the chains of SPDM requesters (R489). -/

namespace Sys2Proof.Machine

/-- An element of DER: its tag, its content, and all of its bytes. -/
structure Der where
  tag  : Byte
  body : List Byte
  raw  : List Byte
deriving DecidableEq, Repr

/-- The first element of a DER string and what follows it; lengths of up to two octets, which a chain of 4,096 bytes needs. -/
def derNext (bs : List Byte) : Option (Der × List Byte) :=
  match bs with
  | tag :: l :: r =>
    let take (head n : Nat) (r : List Byte) : Option (Der × List Byte) :=
      if r.length < n then none else some ({ tag, body := r.take n, raw := bs.take (head + n) }, r.drop n)
    if l.toNat < 128 then take 2 l.toNat r
    else if l = 0x81 then take 3 (beNat (r.take 1)) (r.drop 1)
    else if l = 0x82 then take 4 (beNat (r.take 2)) (r.drop 2)
    else none
  | _ => none

/-- The elements of a DER string; at most `n` of them. -/
def derItems : Nat → List Byte → List Der
  | 0, _ => []
  | n + 1, bs => match derNext bs with
    | some (d, r) => d :: derItems n r
    | none => []

/-- The parts of a certificate that verification uses: its signed part, the names of issuer and subject, the subject's RSA modulus, and the signature. -/
structure Cert where
  tbs     : List Byte
  issuer  : List Byte
  subject : List Byte
  key     : List Byte
  sig     : List Byte
deriving DecidableEq, Repr

/-- Octets of a BIT STRING with no unused bits. -/
def derBits (d : Der) : Option (List Byte) :=
  match d.body with
  | 0 :: bs => if d.tag = 0x03 then some bs else none
  | _ => none

/-- The modulus of an RSA public key with exponent 65,537, without leading zeros. -/
def rsaModulus (bs : List Byte) : Option (List Byte) :=
  match derNext bs with
  | some (k, _) =>
    match derItems 2 k.body with
    | [n, e] => if n.tag = 2 ∧ e.tag = 2 ∧ e.body = [1, 0, 1] then some (n.body.dropWhile (fun b => decide (b = 0))) else none
    | _ => none
  | none => none

/-- A certificate from its DER bytes. -/
def certOf (der : List Byte) : Option Cert :=
  match derNext der with
  | some (c, []) =>
    match derItems 3 c.body with
    | [t, _, g] =>
      let fs := derItems 16 t.body
      let fs := match fs with | v :: rest => if v.tag = 0xA0 then rest else fs | [] => []
      match fs with
      | _ :: _ :: iss :: _ :: sbj :: spki :: _ =>
        match derItems 2 spki.body with
        | [_, pk] => do
          let key ← (derBits pk).bind rsaModulus
          let sig ← derBits g
          some { tbs := t.raw, issuer := iss.raw, subject := sbj.raw, key, sig }
        | _ => none
      | _ => none
    | _ => none
  | _ => none

/-- Every certificate is signed by the one before it, the issuer that it names (R489). -/
def certsVerify (issuer : Cert) : List (List Byte) → Bool
  | [] => true
  | der :: rest => match certOf der with
    | some c => decide (c.issuer = issuer.subject) && pssVerify issuer.key c.tbs c.sig && certsVerify c rest
    | none => false

/-- The SHA-512 of the root certificate of a chain, root first, where every signature of the chain verifies, the root under its own key (R489, R491). -/
def chainRoot (chain : List (List Byte)) : Option (List Byte) :=
  match chain with
  | [] => none
  | der :: rest => match certOf der with
    | some c => if certsVerify c (der :: rest) then some (sha512 der) else none
    | none => none

end Sys2Proof.Machine
end

