-- ==== Sys2Proof/Machine/Aes.lean ====
section
/-! DEFINITION. The other algorithms of chapter 21 (R488): HMAC-SHA-512 (FIPS 198-1), AES-256 (FIPS 197) and authenticated decryption of AES-256-GCM (NIST SP 800-38D). -/

namespace Sys2Proof.Machine

/-! ## HMAC (R488) -/

/-- HMAC-SHA-512 of a message under a key of at most one block. -/
def hmac512 (key msg : List Byte) : List Byte :=
  let k := (key ++ List.replicate 128 0).take 128
  sha512 (k.map (· ^^^ 0x5C) ++ sha512 (k.map (· ^^^ 0x36) ++ msg))

/-! ## AES-256 -/

/-- The S-box, by rows of the high four bits. -/
def aesBox : List (List Byte) :=
  [[0x63, 0x7C, 0x77, 0x7B, 0xF2, 0x6B, 0x6F, 0xC5, 0x30, 0x01, 0x67, 0x2B, 0xFE, 0xD7, 0xAB, 0x76],
   [0xCA, 0x82, 0xC9, 0x7D, 0xFA, 0x59, 0x47, 0xF0, 0xAD, 0xD4, 0xA2, 0xAF, 0x9C, 0xA4, 0x72, 0xC0],
   [0xB7, 0xFD, 0x93, 0x26, 0x36, 0x3F, 0xF7, 0xCC, 0x34, 0xA5, 0xE5, 0xF1, 0x71, 0xD8, 0x31, 0x15],
   [0x04, 0xC7, 0x23, 0xC3, 0x18, 0x96, 0x05, 0x9A, 0x07, 0x12, 0x80, 0xE2, 0xEB, 0x27, 0xB2, 0x75],
   [0x09, 0x83, 0x2C, 0x1A, 0x1B, 0x6E, 0x5A, 0xA0, 0x52, 0x3B, 0xD6, 0xB3, 0x29, 0xE3, 0x2F, 0x84],
   [0x53, 0xD1, 0x00, 0xED, 0x20, 0xFC, 0xB1, 0x5B, 0x6A, 0xCB, 0xBE, 0x39, 0x4A, 0x4C, 0x58, 0xCF],
   [0xD0, 0xEF, 0xAA, 0xFB, 0x43, 0x4D, 0x33, 0x85, 0x45, 0xF9, 0x02, 0x7F, 0x50, 0x3C, 0x9F, 0xA8],
   [0x51, 0xA3, 0x40, 0x8F, 0x92, 0x9D, 0x38, 0xF5, 0xBC, 0xB6, 0xDA, 0x21, 0x10, 0xFF, 0xF3, 0xD2],
   [0xCD, 0x0C, 0x13, 0xEC, 0x5F, 0x97, 0x44, 0x17, 0xC4, 0xA7, 0x7E, 0x3D, 0x64, 0x5D, 0x19, 0x73],
   [0x60, 0x81, 0x4F, 0xDC, 0x22, 0x2A, 0x90, 0x88, 0x46, 0xEE, 0xB8, 0x14, 0xDE, 0x5E, 0x0B, 0xDB],
   [0xE0, 0x32, 0x3A, 0x0A, 0x49, 0x06, 0x24, 0x5C, 0xC2, 0xD3, 0xAC, 0x62, 0x91, 0x95, 0xE4, 0x79],
   [0xE7, 0xC8, 0x37, 0x6D, 0x8D, 0xD5, 0x4E, 0xA9, 0x6C, 0x56, 0xF4, 0xEA, 0x65, 0x7A, 0xAE, 0x08],
   [0xBA, 0x78, 0x25, 0x2E, 0x1C, 0xA6, 0xB4, 0xC6, 0xE8, 0xDD, 0x74, 0x1F, 0x4B, 0xBD, 0x8B, 0x8A],
   [0x70, 0x3E, 0xB5, 0x66, 0x48, 0x03, 0xF6, 0x0E, 0x61, 0x35, 0x57, 0xB9, 0x86, 0xC1, 0x1D, 0x9E],
   [0xE1, 0xF8, 0x98, 0x11, 0x69, 0xD9, 0x8E, 0x94, 0x9B, 0x1E, 0x87, 0xE9, 0xCE, 0x55, 0x28, 0xDF],
   [0x8C, 0xA1, 0x89, 0x0D, 0xBF, 0xE6, 0x42, 0x68, 0x41, 0x99, 0x2D, 0x0F, 0xB0, 0x54, 0xBB, 0x16]]

/-- SubBytes of one byte. -/
def aesSub (b : Byte) : Byte := (aesBox.getD (b.toNat / 16) []).getD (b.toNat % 16) 0

/-- A byte times x in the field of AES. -/
def aesX (b : Byte) : Byte := (b <<< 1) ^^^ (if b.getLsbD 7 then 0x1B else 0)

/-- The sum of two byte strings in the field: exclusive or. -/
def xorBytes (a b : List Byte) : List Byte := List.zipWith (· ^^^ ·) a b

/-- The key schedule: words newest first, eight of them the key; `i` is the number of the next word. -/
def aesSchedule : Nat → Nat → List (List Byte) → List (List Byte)
  | 0, _, w => w
  | n + 1, i, w =>
    let t := w.getD 0 []
    let t := if i % 8 = 0 then xorBytes ((t.drop 1 ++ t.take 1).map aesSub) [BitVec.ofNat 8 (2 ^ (i / 8 - 1)), 0, 0, 0]
      else if i % 8 = 4 then t.map aesSub else t
    aesSchedule n (i + 1) (xorBytes t (w.getD 7 []) :: w)

/-- The fifteen round keys of a 32-byte key. -/
def aesKeys (key : List Byte) : List (List Byte) :=
  let w := (aesSchedule 52 8 ((List.range 8).map (fun i => (key.drop (4 * i)).take 4)).reverse).reverse
  (List.range 15).map (fun r => ((w.drop (4 * r)).take 4).flatten)

/-- SubBytes and ShiftRows of a block. -/
def aesShift (b : List Byte) : List Byte := (List.range 16).map (fun i => aesSub (b.getD ((i + 4 * (i % 4)) % 16) 0))

/-- MixColumns of one column. -/
def aesColumn (c : List Byte) : List Byte :=
  (List.range 4).map (fun i =>
    let g (k : Nat) : Byte := c.getD ((i + k) % 4) 0
    aesX (g 0) ^^^ (aesX (g 1) ^^^ g 1) ^^^ g 2 ^^^ g 3)

/-- MixColumns of a block. -/
def aesMix (b : List Byte) : List Byte := (List.range 4).flatMap (fun i => aesColumn ((b.drop (4 * i)).take 4))

/-- The rounds after the first key: all but the last mix columns. -/
def aesRounds : List (List Byte) → List Byte → List Byte
  | [], b => b
  | [k], b => xorBytes (aesShift b) k
  | k :: ks, b => aesRounds ks (xorBytes (aesMix (aesShift b)) k)

/-- One block under the round keys. -/
def aesBlock (ks : List (List Byte)) (b : List Byte) : List Byte :=
  match ks with
  | k :: ks => aesRounds ks (xorBytes b k)
  | [] => b

/-! ## GCM -/

/-- The product of two blocks in GF(2^128), bit 127 the coefficient of 1. -/
def gcmMul (x y : BitVec 128) : BitVec 128 :=
  ((List.range 128).foldl (fun (a : BitVec 128 × BitVec 128) i =>
    (if x.getLsbD (127 - i) then a.1 ^^^ a.2 else a.1, (a.2 >>> 1) ^^^ (if a.2.getLsbD 0 then 0xE1000000000000000000000000000000 else 0))) (0, y)).1

/-- GHASH of a byte string of whole blocks, `n` of them. -/
def ghash (h : BitVec 128) : Nat → BitVec 128 → List Byte → BitVec 128
  | 0, a, _ => a
  | n + 1, a, bs => ghash h n (gcmMul (a ^^^ BitVec.ofNat 128 (beNat (bs.take 16))) h) (bs.drop 16)

/-- A byte string filled up with zeros to whole blocks. -/
def padBlock (bs : List Byte) : List Byte := bs ++ List.replicate ((16 - bs.length % 16) % 16) 0

/-- The key stream under a 12-byte IV from counter 2 on, `n` blocks. -/
def gcmStream (ks : List (List Byte)) (iv : List Byte) (n : Nat) : List Byte :=
  (List.range n).flatMap (fun i => aesBlock ks (iv ++ beBytes 4 (i + 2)))

/-- The tag over a ciphertext, without associated data. -/
def gcmTag (ks : List (List Byte)) (iv ct : List Byte) : List Byte :=
  let h := BitVec.ofNat 128 (beNat (aesBlock ks (List.replicate 16 0)))
  let bs := padBlock ct ++ beBytes 16 (8 * ct.length)
  xorBytes (beBytes 16 (ghash h (bs.length / 16) 0 bs).toNat) (aesBlock ks (iv ++ beBytes 4 1))

/-- AES-256-GCM decryption of a 12-byte IV, a ciphertext and a 16-byte tag; `none` where the tag does not verify (R488). -/
def gcmOpen (key blob : List Byte) : Option (List Byte) :=
  if blob.length < 28 then none
  else
    let ks := aesKeys key
    let iv := blob.take 12
    let ct := (blob.drop 12).take (blob.length - 28)
    if gcmTag ks iv ct = blob.drop (blob.length - 16) then some (xorBytes ct (gcmStream ks iv ((ct.length + 15) / 16))) else none

end Sys2Proof.Machine
end

