-- ==== Sys2Proof/Machine/Text.lean ====
section
/-! DEFINITION. The text of the Varan monitor's replies (R510). -/

namespace Sys2Proof.Machine

/-- A hexadecimal digit, in lower case. -/
def hexDigit (n : Nat) : Byte := BitVec.ofNat 8 (if n < 10 then 48 + n else 87 + n)

/-- The lowest `k` hexadecimal digits of a number. -/
def hexFix : Nat → Nat → List Byte
  | 0, _ => []
  | k + 1, n => hexDigit (n / 16 ^ k % 16) :: hexFix k n

/-- CRLF, which ends every reply line. -/
def crlf : List Byte := [13, 10]

/-- A data line: hexadecimal pairs in address order, separated by single spaces. -/
def dataLine (bs : List Byte) : List Byte :=
  (match bs with
   | [] => []
   | b :: rest => hexFix 2 b.toNat ++ rest.flatMap (fun x => 32 :: hexFix 2 x.toNat)) ++ crlf

/-- Bytes as data lines of at most 16, `n` lines at most. -/
def dataLinesN : Nat → List Byte → List Byte
  | 0, _ => []
  | n + 1, bs => if bs.isEmpty then [] else dataLine (bs.take 16) ++ dataLinesN n (bs.drop 16)

/-- Bytes as data lines. -/
def dataLines (bs : List Byte) : List Byte := dataLinesN bs.length bs

/-- The final line `ok`. -/
def okLine : List Byte := ascii "ok" ++ crlf

/-- The final line `er SS`. -/
def erLine (st : Nat) : List Byte := ascii "er " ++ hexFix 2 st ++ crlf

/-- A number in hexadecimal, with at least one digit. -/
def hexNum (n : Nat) : List Byte := hexFix (n.log2 / 4 + 1) n

end Sys2Proof.Machine
end

