-- ==== Sys2Proof/Machine/Start.lean ====
section
/-! DEFINITION. Starts (R383, R442, R443, R453, R470-R473, R486, R493, R503), the watchdog (R480) and the writing of the log to flash (R484, R485). -/

namespace Sys2Proof.Machine

/-! ## Firmware selection at S4 (R493) -/

/-- What the Tadpole ROM decides: the management state with the selection record it writes, whether a trial is abandoned, and whether the slot it comes to verifies. -/
def Mgmt.chooseSlot (m : Mgmt) : Mgmt × Bool × Bool :=
  let r := m.selection
  let put (m : Mgmt) (r : Selection) (slot : Bool) : Mgmt := { m with sel := m.sel.write r, slot }
  let (m, r, slot, fell) : Mgmt × Selection × Bool × Bool :=
    match r.trial with
    | some t =>
      if r.tries = 0 then (put m { r with tries := 1 } t, { r with tries := 1 }, t, false)
      else (put m { r with trial := none } r.active, { r with trial := none }, r.active, true)
    | none => ({ m with slot := r.active }, r, r.active, false)
  if (m.fwOf slot).verifies m.minsvn then (m, fell, true)
  else if (m.fwOf (!slot)).verifies m.minsvn then (put m { r with active := !slot, trial := none } (!slot), fell, true)
  else ({ m with slot := !slot }, fell, false)

/-- The firmware commits the trial image that has brought the device to PREOP or READY (R493). -/
def Mgmt.commit (m : Mgmt) : Mgmt :=
  match m.selection.trial with
  | some t => if m.slot = t then { m with sel := m.sel.write { active := t, trial := none, tries := 0 } } else m
  | none => m

/-! ## The persisted store at S6 (R442, R455) -/

/-- The store is loaded, or cleared first where 0x0003:02 asked for it; the entries that take effect at a start take it. -/
def Mgmt.loadStore (m : Mgmt) : Mgmt :=
  let store := if m.clear then m.store.write [] else m.store
  let vals := store.read.getD []
  { m with store, vals, boot := vals, clear := false }

/-! ## What a start begins with -/

/-- The monitor's banner line once S3 is complete (R511): its word, the part number, the stepping code and the state code, in lower case (R510). -/
def State.banner (s : State) : State :=
  let f (bs : List Byte) : List Byte := 32 :: bs
  let lower (c : Byte) : Byte := if 65 ≤ c.toNat ∧ c.toNat ≤ 90 then c + 32 else c
  { s with mon := { s.mon with err := none, out := ascii "varan" ++ f ((ascii s.partNo).map lower) ++ f (hexFix 2 (if s.dev.b0 then 0x10 else 0)) ++ f (hexFix 2 s.dev.st.code) ++ crlf } }

/-- Host DMA in progress replies MEMERR (R453, Table 18.8). [DEDUCED, log entry 109: unsafe] -/
def State.endHdma (s : State) : State :=
  s.host.reqs.foldl (fun s q => match q.what with
    | .inl x => s.finish q stMemerr (leBytes 4 x.done)
    | .inr _ => s) s

/-- The beat unit right after a start, with the entries of Table 15.9; time goes on. -/
def State.beatStart (s : State) : Beat :=
  let v (sub d : Nat) : Nat := s.setting 0x1000 sub d
  let w (sub d : Nat) : Nat := s.setting 0x1002 sub d
  { devt := s.beat.devt, lastApp := s.beat.devt.toNat, lastGen := s.beat.devt.toNat,
    role := BitVec.ofNat 2 (v 1 0), port := BitVec.ofNat 5 (v 2 0), period := BitVec.ofNat 15 (v 3 2250), comp := BitVec.ofNat 12 (v 4 0),
    strmax := BitVec.ofNat 15 (min 0x7FFF (w 1 1125)), hcut := BitVec.ofNat 8 (w 2 256 / 16), lagmax := BitVec.ofNat 8 (w 3 4),
    stout := BitVec.ofNat 32 (w 4 1048576) }

/-- The route table that 0x5001:01 holds (R411). -/
def State.routeStart (s : State) : Table Word :=
  match Table.look s.mgmt.vals 0x500101 with
  | none => []
  | some bs => (List.range 1024).foldl (fun t d => Table.putc 0 t d (BitVec.ofNat 32 (leAt bs (4 * d) 4) &&& 0x80001F1F)) []

/-- The power controller right after a start (R464, R465, R467, R473); the supply is as S1 or the ticks left it, and DEVT starts over. -/
def State.powerStart (s : State) (r : StartResult) (fromOff : Bool) : Power :=
  let p := s.power
  let base : Power :=
    if fromOff then { supply := if r.warnLow then .warn else if 44000 ≤ r.mv then .good else .sag, mv := r.mv, low := r.warnLow }
    else { supply := p.supply, mv := p.mv, mw := p.mw, nGood := p.nGood, nSag := p.nSag, nUnder := p.nUnder, nLow := p.nLow, nOver := p.nOver, inUnder := p.inUnder,
           low := p.low, warnTo := p.warnTo - s.beat.devt.toNat }
  { base with latch := p.latch, lost := p.lost, durs := (List.range 14).map (fun i => (i + 1, r.durs.getD i 0)) }

/-- The step that fails, as the kind of start meets it (R471, Table 20.6): S1 from OFF only, S10 and S11 not on a warm start, S14 on a warm start only. [DEDUCED, log entry 106: unsafe] -/
def startFailing (r : StartResult) (fromOff warm : Bool) : Option Nat :=
  match r.failStep with
  | none => none
  | some n =>
    if n = 1 then (if fromOff then some 1 else none)
    else if n = 10 ∨ n = 11 then (if warm then none else some n)
    else if n = 14 then (if warm then some 14 else none)
    else if n = 3 ∨ (5 ≤ n ∧ n ≤ 13) then some n
    else none

/-- The stacks do not keep their contents: S9 fails on a warm start, which goes on as cold (R246, R523, Table 20.6). [DEDUCED, log entry 107: unsafe] -/
def stacksLost (r : StartResult) : Bool := !r.srFail.isEmpty || decide (r.failStep = some 9)

/-- A start step failed, with the unit concerned (R472). -/
def State.stepFailed (s : State) (step unit : Nat) : State := s.logEv 0x1304 false (lf step ++ lf unit)

/-- S9's failures, each with its stack (R472). -/
def State.stacksFailed (s : State) (r : StartResult) : State :=
  if r.srFail.isEmpty then s.stepFailed 9 r.failUnit else r.srFail.foldl (fun s i => s.stepFailed 9 i.val) s

/-! ## From S7 on -/

/-- The device enters PREOP, or READY with the image kept; a trial image is committed (R383, R493, R503). -/
def State.startDone (s : State) (kept : Bool) : State :=
  let s := { s with mgmt := s.mgmt.commit }
  if kept then s.toState .ready 0 else s.toState .preop 0

/-- The image keep check of a warm start (R383); a placement that fails leaves no image. -/
def State.keepImage (s : State) : LRes :=
  match s.loader.record.read with
  | none => .fail .stage s
  | some r => match s.stagedHash r.hash with | (s, true) => s.replace | (s, false) => .fail .stage s

/-- Steps S12 to S14 (Table 20.5). -/
def State.startUnits (s : State) (r : StartResult) : Out :=
  let warm := decide (s.mgmt.kind = 2)
  match startFailing r false warm with
  | some 12 => .next ((s.stepFailed 12 r.failUnit).deviceFault 4)
  | some 13 => .next ((s.stepFailed 13 r.failUnit).deviceFault 4)
  | other =>
    let s := { s with beat := s.beatStart, links := { s.links with routes := s.routeStart } }
    let en := s.setting 0x5000 3 0x3FFFF
    let s := s.enablePorts ((List.range 18).filter (fun p => en.testBit p))
    let s := s.finishErasures
    if warm ∧ other = some 14 then .next ((s.stepFailed 14 r.failUnit).startDone false)
    else if warm then
      match s.keepImage with
      | .ok s => .next (s.startDone true)
      | .fail _ t => .next ((if s.loader.record.read.isSome then t.stepFailed 14 r.failUnit else t).discardImage.startDone false)
      | .fault f => .fault f
    else .next (s.startDone false)

/-- What a step from S7 to S11 does: S8 powers the regions; at S9 the stacks keep their contents, or lose them. -/
def State.startStep (s : State) (n : Nat) : State :=
  if n = 8 then { s with dev := { s.dev with powered := s.dev.map } }
  else if n = 9 then
    if s.mgmt.kind = 2 then { s with stks := (List.range 8).map (fun i => (i, { Stack.reset with kept := true })) }
    else { s with mem := [], badMem := [], softMem := [] }
  else s

/-- The supply as it leaves GOOD: the ticks in a row that its state has taken (Table 20.1). -/
def Power.leave (p : Power) (sup : Supply) : Power :=
  let u := decide (sup = .under)
  let low := u || decide (sup = .sag)
  { p with supply := sup, low := p.low || decide (sup = .warn), nGood := if low then 0 else p.nGood, nSag := if low then max 10 p.nSag else p.nSag,
           nUnder := if u then max 10 p.nUnder else p.nUnder, inUnder := bnat u }

/-- The supply state leaves GOOD: the start waits at the boundary before step `n` (R471). -/
def State.startPause (s : State) (r : StartResult) (n : Nat) (sup : Supply) : State :=
  ({ s with power := s.power.leave sup, mgmt := { s.mgmt with paused := some (r, n) } }).supplyEntry sup

/-- The steps of a list from S7 to S11 and those after them; a supply that leaves GOOD in one pauses the start at its end. [DESIGN CHOICE, log entry 103: unsafe] -/
def State.startSteps (s : State) (r : StartResult) (leaves : Option (Nat × Nat)) : List Nat → Out
  | [] => s.startUnits r
  | n :: ns =>
    let lost := decide (s.mgmt.kind = 3) && decide (n = 9)
    let s := if lost then s.stacksFailed r else s
    if startFailing r false (decide (s.mgmt.kind = 2)) = some n ∧ lost = false then
      .next ((if n = 9 then s.stacksFailed r else s.stepFailed n r.failUnit).deviceFault 4)
    else
      let s := s.startStep n
      match leaves with
      | some (m, c) => if m = n then .next (s.startPause r (n + 1) (Supply.of c)) else s.startSteps r leaves ns
      | none => s.startSteps r leaves ns

/-- The start from step `n` on (Table 20.5): S10 and S11 are skipped while the stacks keep their contents. -/
def State.startFrom (s : State) (r : StartResult) (leaves : Option (Nat × Nat)) (n : Nat) : Out :=
  let steps := if s.mgmt.kind = 2 then [7, 8, 9] else [7, 8, 9, 10, 11]
  { s with mgmt := { s.mgmt with paused := none } }.startSteps r leaves (steps.filter (fun m => decide (n ≤ m)))

/-! ## From the beginning -/

/-- What the log says of the transitions that no record tells yet, and of each regulator stop its latched cause, which is cleared (R449, R459). -/
def State.logLatch (s : State) : State :=
  s.power.lost.foldl (fun s x =>
    let s := s.logEv 0x1201 false (lf x.src.code ++ lf x.dst.code ++ lf x.cause ++ lf x.beat.toNat)
    if x.cause = 0 then s else s.logEv 0x1303 false (lf x.cause)) { s with power := { s.power with latch := 0, lost := [] } }

/-- The identity key: unwrapped with AES-256-GCM under KEK, bytes 0 to 31 of HMAC-SHA-512 of UDS (R488). -/
def Mgmt.unwrap (m : Mgmt) : Option (List Byte) := gcmOpen ((hmac512 m.uds (ascii "EV4-ID-WRAP")).take 32) m.wrapped

/-- S1 to S6 (Table 20.5): everything but the flash, the fuses, the log and, on a warm start, the stacks and the counters starts over; then S7 where the supply is GOOD. [DEDUCED, log entry 104: unsafe] [DEDUCED, log entry 105: unsafe] -/
def State.startBegin (s : State) (r : StartResult) (cold : Bool) : Out :=
  let off := decide (s.dev.st = .off) || s.mgmt.risen
  let old := s.dev.st
  let bcnt := s.beat.bcnt
  let s := s.endHdma
  let fail := startFailing r off (!cold)
  if fail = some 1 then .next { s.dark.stepFailed 1 r.failUnit with power := { latch := s.power.latch, lost := s.unlogged ++ if s.mgmt.risen then [{ src := .tadpole, dst := .off }] else [] } }
  else
    let (m, fell, good) := if fail = some 3 then (s.mgmt, false, false) else s.mgmt.broken.chooseSlot
    let kind := if cold then 1 else if stacksLost r then 3 else 2
    let locked := s.mon.unlocked
    let m : Mgmt := { m.flash with kind, colds := if cold then (m.colds + 1) % 2 ^ 32 else m.colds, sensors := if off then [] else m.sensors }
    let s : State :=
      { pending := s.pending, mem := s.mem, badMem := s.badMem, softMem := s.softMem, clus := if cold then [] else s.clus.map (fun e => (e.1, e.2.warm)),
        links := { devId := s.links.devId, board := if cold then r.bpos else s.links.board },
        host := { mem := s.host.mem }, log := s.log, loader := { record := s.loader.record }, power := s.powerStart r off, mgmt := m,
        mon := { modulus := s.mon.modulus, unlocks := s.mon.unlocks, uart := s.mon.uart }, beat := { en := false }, cnt := if cold then [] else s.cnt,
        dev := { b0 := s.dev.b0, map := s.dev.map, powered := 0, async := s.dev.async, st := .tadpole, prev := if old = .tadpole then s.dev.prev else old, lastB := bcnt },
        free := s.free }
    -- the first record of the start, then the relock, the transition and what the last run left
    let s := s.logEv 0x1202 false (lf kind ++ lf m.colds ++ lf (m.fwOf m.slot).version)
    let s := if locked then s.logEv 0x1205 false (lf 0 ++ lf 3) else s
    let s := if old = .tadpole ∧ off = false then s else s.logEv 0x1201 false (lf (if off then 0 else old.code) ++ lf 1 ++ lf 0 ++ lf bcnt.toNat)
    if fail = some 3 then .next { s.stepFailed 3 r.failUnit with mgmt := { s.mgmt with romOnly := true } }
    else
      let s := s.banner
      let s := if fell then s.logEv 0x1402 false (lf (bnat m.slot)) else s
      if good = false then .next (s.stepFailed 4 (bnat m.slot))
      else
        let s := s.logLatch
        let s := if off then s.supplyEntry s.power.supply else s
        let s := { s with mgmt := { s.mgmt with udsLock := true } }
        match if fail = some 5 then none else s.mgmt.unwrap with
        | none => .next ((s.stepFailed 5 r.failUnit).deviceFault 4)
        | some key =>
          let s := { s with mgmt := { s.mgmt with keyStore := [.identity key] } }
          if fail = some 6 then .next ((s.stepFailed 6 r.failUnit).deviceFault 4)
          else
            let s := if s.mgmt.store.read = none then s.logEv 0x1203 true [] else s
            let s := { s with mgmt := s.mgmt.loadStore }
            let v (i j d : Nat) : Nat := s.setting i j d
            let s : State :=
              { s with
                links := { s.links with devId := BitVec.ofNat 10 (v 0x5000 1 0x3FF) },
                host := { s.host with bar2Log := v 0x6003 1 6 },
                imb := { w := v 0x3010 2 1024, t := BitVec.ofNat 32 (v 0x3010 3 0x41000000), runs := v 0x3010 4 4 },
                power := { s.power with psus := v 0x2000 1 1800, ppeak := v 0x2000 2 2000 },
                dev := { s.dev with async := if cold then decide (v 0x1010 1 0 = 1) else s.dev.async } }
            if s.power.supply = .good then s.startFrom r r.leaves 7
            else .next { s with mgmt := { s.mgmt with paused := some (r, 7) } }

/-- A start that waited for the supply goes on once it is GOOD (R471); `leaves` is what the supply does from then on. -/
def State.startResume (s : State) (r : StartResult) (n : Nat) (leaves : Option (Nat × Nat)) : Out :=
  if s.dev.st = .tadpole ∧ s.power.supply = .good then s.startFrom r leaves n else .next s

/-- SUPPLY_RISE (R522, Table 19.7): the device leaves OFF for TADPOLE, and a cold start follows. [DEDUCED, log entry 108: unsafe] -/
def execSupplyRise (s : State) : Out :=
  if s.dev.st = .off then
    .next { s with dev := { s.dev with st := .tadpole, prev := .off, lastB := 0 }, mgmt := { s.mgmt with startRq := 2, paused := none, risen := true } }
  else .next s

/-- COLD_START (R471): runs a cold start that the supply's rise or a request has caused; `r` is what the outside world decides of it. [DEDUCED, log entry 138: unsafe] -/
def execColdStart (r : StartResult) (s : State) : Out :=
  if s.dev.st = .off ∨ s.mgmt.startRq = 2 then s.startBegin r true
  else match s.mgmt.paused with
    | some (r0, n) => if s.mgmt.kind = 1 then s.startResume r0 n r.leaves else .next s
    | none => .next s

/-- WARM_START (R471): runs a warm start that has been requested. -/
def execWarmStart (r : StartResult) (s : State) : Out :=
  if s.dev.st ≠ .off ∧ s.mgmt.startRq = 1 then s.startBegin r false
  else match s.mgmt.paused with
    | some (r0, n) => if s.mgmt.kind ≠ 1 then s.startResume r0 n r.leaves else .next s
    | none => .next s

/-! ## Watchdog and log (R480, R484, R485) -/

/-- WATCHDOG_EXPIRY (R480): FAULT with cause 0x06 and its actions; the restarted firmware logs the expiry. -/
def execWatchdogExpiry (s : State) : Out :=
  if s.dev.st = .off then .next s else .next ((s.deviceFault 6).logEv 0x1204 false [])

/-- Entries of a record in the ring. -/
def LogRec.entries (r : LogRec) : Nat := logEntries r.fields.length

/-- Marks the first `n` waiting records as written to flash. -/
def flushRecs : Nat → List LogRec → List LogRec
  | _, [] => []
  | 0, rs => rs
  | n + 1, r :: rs => if r.flash then r :: flushRecs (n + 1) rs else { r with flash := true } :: flushRecs n rs

/-- Oldest records are overwritten whole while the ring's records take more than 524,288 entries; what they leave unacknowledged stays counted (R485). -/
def Log.overwrite : Nat → Log → Log
  | 0, l => l
  | fuel + 1, l =>
    let used := (l.recs.filter (·.flash)).foldl (fun a r => a + r.entries) 0
    match l.recs with
    | r :: rs =>
      if 524288 < used then
        Log.overwrite fuel { l with recs := rs, gone := if r.una = 0 then l.gone else l.gone ++ [(r.seq, r.una)] }
      else l
    | [] => l

/-- The loss record, once fewer than 4,096 entries wait (R484). -/
def State.lossRecord (s : State) : State :=
  let l := s.log
  if l.lost ≠ 0 ∧ l.waiting < 4096 then
    { s with log := { l with lost := 0 } }.logEv 0x1206 true (lf l.lost ++ lf l.lostSeq ++ lf l.lostBeat.toNat)
  else s

/-- LOG_FLUSH (R484, R485): the `n` oldest waiting records go into the flash ring. -/
def execLogFlush (n : Nat) (s : State) : Out :=
  if s.dev.st = .off then .next s
  else
    let l := { s.log with recs := flushRecs n s.log.recs }
    .next { s with log := l.overwrite l.recs.length }.lossRecord

end Sys2Proof.Machine
end

