-- ==== Sys2Proof/Machine/Security.lean ====
section
/-! DEFINITION. Firmware update over PLDM (R494) and attestation over SPDM (R496, R497). The bodies of DSP0267 and DSP0274 messages are not in the spec: what the model keeps as the last response is a code and the figures that the spec names. -/

namespace Sys2Proof.Machine

/-! ## PLDM for Firmware Update (R494) -/

/-- The last response of the management subsystem over MCTP. -/
def State.respond (s : State) (bs : List Byte) : State := { s with mgmt := { s.mgmt with resp := bs } }

/-- Code of an update state (DSP0267). -/
def Pldm.code : Pldm → Nat
  | .idle => 0 | .learn => 1 | .ready => 2 | .download => 3 | .verify => 4 | .apply => 5 | .activate => 2

/-- DSP0267's answer in a state that does not allow the command: INVALID_STATE_FOR_COMMAND. -/
def pldmRefused : List Byte := [0x84]

/-- A command that is taken in the states `ok` alone. -/
def State.pldmIn (s : State) (ok : Pldm → Bool) (go : Mgmt → State) : Out :=
  if s.silent then .next s else if ok s.mgmt.pldm then .next (go s.mgmt) else .next (s.respond pldmRefused)

/-- QUERY_DEVICE_IDENTIFIERS (R494): the PCI vendor ID as the one descriptor. -/
def execQueryDeviceIdentifiers (s : State) : Out :=
  s.pldmIn (fun _ => true) (fun _ => s.respond ([0, 6, 0, 0, 0, 1, 0, 0, 2, 0] ++ bytesOf Config.vendorId 2))

/-- GET_FIRMWARE_PARAMETERS (R494): VERSION of the running image, and of the spare slot's image where it verifies. -/
def execGetFirmwareParameters (s : State) : Out :=
  s.pldmIn (fun _ => true) (fun m =>
    let o := m.fwOf m.spare
    s.respond (0 :: leBytes 4 (m.fwOf m.slot).version ++ leBytes 4 (if o.verifies m.minsvn then o.version else 0)))

/-- REQUEST_UPDATE (R494): begins an update of the slot that is not ACTIVE. -/
def execRequestUpdate (s : State) : Out :=
  s.pldmIn (fun p => decide (p = .idle)) (fun m => { s with mgmt := { m with pldm := .learn, fw := [], fwLen := 0 } }.respond [0])

/-- PASS_COMPONENT_TABLE (R494): the one component is known. -/
def execPassComponentTable (s : State) : Out :=
  s.pldmIn (fun p => decide (p = .learn)) (fun m => { s with mgmt := { m with pldm := .ready } }.respond [0])

/-- UPDATE_COMPONENT (R494): the spare slot is about to take an image of `len` bytes, at most the slot's 8 MiB. -/
def execUpdateComponent (len : Nat) (s : State) : Out :=
  s.pldmIn (fun p => (decide (p = .ready) || decide (p = .activate)) && decide (len ≤ 2 ^ 23)) (fun m =>
    { s with mgmt := { m with pldm := .download, fw := [], fwLen := len }.putFw m.spare (.bytes []) }.respond [0])

/-- REQUEST_FIRMWARE_DATA (R494): the next piece of the image arrives and is written to the spare slot. -/
def execRequestFirmwareData (off : Nat) (bytes : List Byte) (s : State) : Out :=
  s.pldmIn (fun p => decide (p = .download) && decide (off = s.mgmt.fw.length) && decide (off + bytes.length ≤ s.mgmt.fwLen)) (fun m =>
    { s with mgmt := { m with fw := m.fw ++ bytes }.putFw m.spare (.bytes (m.fw ++ bytes)) }.respond [0])

/-- TRANSFER_COMPLETE (R494): the whole image has arrived. -/
def execTransferComplete (s : State) : Out :=
  s.pldmIn (fun p => decide (p = .download) && decide (s.mgmt.fw.length = s.mgmt.fwLen)) (fun m =>
    { s with mgmt := { m with pldm := .verify } }.respond [0])

/-- VERIFY_COMPLETE (R494): reports failure where the written image does not verify under R492. -/
def execVerifyComplete (s : State) : Out :=
  s.pldmIn (fun p => decide (p = .verify)) (fun m =>
    if (m.fwOf m.spare).verifies m.minsvn then { s with mgmt := { m with pldm := .apply } }.respond [0] else s.respond [1])

/-- APPLY_COMPLETE (R494). -/
def execApplyComplete (s : State) : Out :=
  s.pldmIn (fun p => decide (p = .apply)) (fun m => { s with mgmt := { m with pldm := .activate } }.respond [0])

/-- ACTIVATE_FIRMWARE (R494): TRIAL is the written slot and TRIES 0; the update takes effect at the next start. -/
def execActivateFirmware (s : State) : Out :=
  s.pldmIn (fun p => decide (p = .activate)) (fun m =>
    { s with mgmt := { m with pldm := .idle, fw := [], fwLen := 0, sel := m.sel.write { m.selection with trial := some m.spare, tries := 0 } } }.respond [0])

/-- GET_STATUS (R494). -/
def execGetStatus (s : State) : Out := s.pldmIn (fun _ => true) (fun m => s.respond [0, BitVec.ofNat 8 m.pldm.code])

/-- CANCEL_UPDATE_COMPONENT (R494): the component in progress is given up. -/
def execCancelUpdateComponent (s : State) : Out :=
  s.pldmIn (fun p => decide (p = .download) || decide (p = .verify) || decide (p = .apply)) (fun m =>
    { s with mgmt := { m with pldm := .ready, fw := [], fwLen := 0 } }.respond [0])

/-- CANCEL_UPDATE (R494): the update is given up. -/
def execCancelUpdate (s : State) : Out :=
  s.pldmIn (fun p => decide (p ≠ .idle)) (fun m => { s with mgmt := { m with pldm := .idle, fw := [], fwLen := 0 } }.respond [0])

/-! ## SPDM (R496) -/

/-- An SPDM ERROR response with its code (DSP0274). [PRESUMED, log entry 130: unsafe] -/
def spdmErr (code : Byte) : List Byte := [0x7F, code]

/-- The SPDM responder answers once the identity key is there (R488): from PREOP on. -/
def State.spdmOn (s : State) : Bool := !s.silent && decide (s.dev.st ≠ .tadpole)

/-- A request that is answered once the connection has reached a stage; before that, UnexpectedRequest. -/
def State.spdmAt (s : State) (stage : Nat) (go : Out) : Out :=
  if s.spdmOn then (if stage ≤ s.mgmt.spdm then go else .next (s.respond (spdmErr 4))) else .next s

/-- The certificate chain of slot 0 (0x7000:02). -/
def certSlot : List Byte := Config.certChain.take 4096

/-- A response signed by the identity key (R489); the index keeps the salts of two signatures apart. -/
def State.signedResp (s : State) (bs : List Byte) : State :=
  let (s, i) := s.draw
  s.respond (bs ++ (Config.identitySign i bs).take 512)

/-- GET_VERSION (R496): version 1.2. -/
def execGetVersion (s : State) : Out :=
  s.spdmAt 0 (.next ({ s with mgmt := { s.mgmt with spdm := 1 } }.respond [0x04, 0x12]))

/-- GET_CAPABILITIES (Table 21.8): CERT, CHAL, MEAS with signature, ENCRYPT, MAC, MUT_AUTH, KEY_EX, HBEAT and KEY_UPD, by DSP0274's flags. -/
def execGetCapabilities (s : State) : Out :=
  s.spdmAt 1 (.next ({ s with mgmt := { s.mgmt with spdm := max 2 s.mgmt.spdm } }.respond (0x61 :: leBytes 4 0x63D6)))

/-- NEGOTIATE_ALGORITHMS (Table 21.8): SHA-512 for measurements, RSASSA-PSS 4096, SHA-512 as base hash, secp384r1, AES-256-GCM, by DSP0274's bits. -/
def execNegotiateAlgorithms (s : State) : Out :=
  s.spdmAt 2 (.next ({ s with mgmt := { s.mgmt with spdm := 3 } }.respond (0x63 :: leBytes 4 8 ++ leBytes 4 0x40 ++ leBytes 4 4 ++ leBytes 2 0x10 ++ leBytes 2 2)))

/-- GET_DIGESTS (R496): slot 0 alone. -/
def execGetDigests (s : State) : Out := s.spdmAt 3 (.next (s.respond ([0x01, 1] ++ sha512 certSlot)))

/-- GET_CERTIFICATE (R496): a portion of slot 0's chain, its length and what remains; other slots are an InvalidRequest. -/
def execGetCertificate (slot : Byte) (off len : BitVec 16) (s : State) : Out :=
  s.spdmAt 3 (
    let part := (certSlot.drop off.toNat).take len.toNat
    if slot ≠ 0 ∨ certSlot.length < off.toNat then .next (s.respond (spdmErr 1))
    else .next (s.respond ([0x02, slot] ++ leBytes 2 part.length ++ leBytes 2 (certSlot.length - off.toNat - part.length) ++ part)))

/-- CHALLENGE (R496): signed by the identity key over the requester's nonce and the chain's digest. -/
def execChallenge (slot : Byte) (nonce : List Byte) (s : State) : Out :=
  s.spdmAt 3 (if slot ≠ 0 then .next (s.respond (spdmErr 1)) else .next (s.signedResp ([0x03, slot] ++ sha512 certSlot ++ nonce)))

/-! ## Measurements (R497, Table 21.9) -/

/-- The SHA-512 of a firmware image. -/
def FwImg.hash : FwImg → List Byte
  | .made _ _ => Config.madeHash
  | .bytes bs => sha512 bs

/-- The content of a measurement block, and whether it is raw. -/
def State.measure (s : State) (i : Nat) : Option (Bool × List Byte) :=
  let m := s.mgmt
  let fw := m.fwOf m.slot
  match i with
  | 1 => some (false, Config.romHash)
  | 2 => some (false, fw.hash)
  | 3 => some (true, leBytes 4 fw.version ++ leBytes 1 fw.svn ++ leBytes 1 (bnat m.slot))
  | 4 => some (true, ascii s.partNo ++ bytesOf s.dev.map 2 ++ leBytes 1 (if s.dev.b0 then 0x10 else 0) ++ leBytes 1 m.minsvn)
  | 5 => some (false, sha512 (m.root ++ leBytes 4 (s.setting 0x7010 1 1) ++ (List.range 32).flatMap (fun k => Table.get [] m.keys k)))
  | 6 =>
    let l := s.loader
    some (true, if l.img = 0 then List.replicate 73 0 else l.hash ++ bytesOf l.imgid 8 ++ [l.img])
  | 7 => some (true, leBytes 1 (bnat s.mon.unlocked) ++ leBytes 1 s.dev.st.code)
  | _ => none

/-- A block in the DMTF measurement format: index, DMTF, size; raw bit, size, value (DSP0274). -/
def State.measBlock (s : State) (i : Nat) : List Byte :=
  match s.measure i with
  | some (raw, v) => leBytes 1 i ++ [1] ++ leBytes 2 (v.length + 3) ++ [if raw then 0x80 else 0] ++ leBytes 2 v.length ++ v
  | none => []

/-- GET_MEASUREMENTS (R497): 0 asks for the number of blocks, 0xFF for all of them; all are taken at one instant. -/
def execGetMeasurements (index : Byte) (s : State) : Out :=
  s.spdmAt 3 (
    if index = 0 then .next (s.signedResp [0x60, 7])
    else if index = 0xFF then .next (s.signedResp ([0x60, 7] ++ (List.range 7).flatMap (fun i => s.measBlock (i + 1))))
    else if index.toNat ≤ 7 then .next (s.signedResp ([0x60, 1] ++ s.measBlock index.toNat))
    else .next (s.respond (spdmErr 1)))

/-! ## Sessions (R491, R496) -/

/-- KEY_EXCHANGE (R496): opens a session; a third one receives BUSY. The answer holds the session's number and the responder's share; the session knows the root of a requester whose certificates verify (R489, R491). [DEDUCED, log entry 124: unsafe] -/
def execKeyExchange (x : KeyExchange) (s : State) : Out :=
  s.spdmAt 3 (
    let m := s.mgmt
    if 2 ≤ m.sess.length then .next (s.respond (spdmErr 3))
    else
      let new : Session := { id := m.sessId, done := false, root := chainRoot x.chain, share := x.share }
      .next ({ s with mgmt := { m with sess := m.sess ++ [new], sessId := m.sessId + 1 } }.signedResp
        (0x64 :: leBytes 4 m.sessId ++ (Config.dheShare s.free).take 96)))

/-- A request of a session that exists; `done` asks that FINISH has come. Otherwise InvalidSession. -/
def State.inSession (s : State) (id : Nat) (done : Bool) (go : Mgmt → State) : Out :=
  s.spdmAt 3 (if s.mgmt.sess.any (fun x => decide (x.id = id) && (x.done || !done)) then .next (go s.mgmt) else .next (s.respond (spdmErr 2)))

/-- A session takes fresh keys: one of 32 bytes for each direction (Table 21.8: AES-256-GCM). -/
def State.newKeys (s : State) (session : Nat) : State :=
  let (s, i) := s.draw
  { s with mgmt := { s.mgmt with sess := s.mgmt.sess.map (fun (x : Session) => if x.id = session then { x with done := true, keys := (List.range 64).map (Config.sessionKey i) } else x) } }

/-- FINISH (R496): the session is established, under its keys. -/
def execFinish (session : Nat) (s : State) : Out := s.inSession session false (fun _ => (s.newKeys session).respond [0x65])

/-- HEARTBEAT (R496). -/
def execHeartbeat (session : Nat) (s : State) : Out := s.inSession session true (fun _ => s.respond [0x68])

/-- KEY_UPDATE (R496): the session goes on under new keys. -/
def execKeyUpdate (session : Nat) (s : State) : Out := s.inSession session true (fun _ => (s.newKeys session).respond [0x69])

/-- END_SESSION (R496): the session ends. -/
def execEndSession (session : Nat) (s : State) : Out :=
  s.inSession session true (fun m => { s with mgmt := { m with sess := m.sess.filter (fun (x : Session) => decide (x.id ≠ session)) } }.respond [0x6C])

end Sys2Proof.Machine
end

