-- ==== Sys2Proof/Machine/Varan.lean ====
section
/-! DEFINITION. The Varan serial monitor (chapter 22): the lines that the UART brings, their parsing, the commands, and the text of the replies. -/

namespace Sys2Proof.Machine

/-! ## Replies (R510) -/

/-- A reply ends with ok, after the data lines `ls`. -/
def State.monOk (s : State) (ls : List Byte) : State := { s with mon := { s.mon with err := none, out := ls ++ okLine } }

/-- A reply ends with er SS (Table 18.7), after the data lines `ls`. -/
def State.monErr (s : State) (st : Nat) (ls : List Byte) : State := { s with mon := { s.mon with err := some (BitVec.ofNat 8 st), out := ls ++ erLine st } }

/-- A line has been received (R514). -/
def State.line (s : State) : State := { s with mon := { s.mon with lastLine := s.beat.devt.toNat } }

/-! ## Who answers (R511, Table 22.1) -/

/-- Monitor commands beyond st, lr and lock answer unless S3 has failed, and not in OFF. [DEDUCED, log entry 128: unsafe] -/
def State.monOn (s : State) (go : State → Out) : Out := if s.silent then .next s else go s.line

/-- Commands that need the unlocked monitor end with ACCESS while it is locked (R512). -/
def State.needUnlocked (s : State) (go : Out) : Out := if s.mon.unlocked then go else .next (s.monErr stAccess [])

/-! ## Commands for the locked monitor -/

/-- st (Table 22.1): state, hold causes, FAULT cause, BCNT, lock, unacknowledged attention entries: one data line. -/
def State.monSt (s : State) : Out :=
  if s.dev.st = .off then .next s
  else .next (s.line.monOk (dataLine (leBytes 1 s.dev.st.code ++ leBytes 1 s.dev.holds.toNat ++ [s.dev.cause] ++ bytesOf s.beat.bcnt 8 ++ leBytes 1 (bnat s.mon.unlocked) ++ leBytes 4 s.log.attn)))

/-- or (R513): a dictionary read of at most 1,024 bytes; a line with the type code and the total length, then the bytes. [DESIGN CHOICE, log entry 126: unsafe] -/
def State.monOr (s : State) (index sub off len : Nat) : Out :=
  s.monOn (fun s =>
    if 1024 < len then .next (s.monErr stRange [])
    else
      let (st, ty, total, bs) := s.dictGet .varan index sub off len
      if st = stOk then .next (s.monOk (dataLine (leBytes 1 ty ++ leBytes 2 total) ++ dataLines bs)) else .next (s.monErr st []))

/-- ow (R513): a dictionary write of 0 to 1,024 bytes at OFFSET 0. -/
def State.monOw (s : State) (index sub : Nat) (bytes : List Byte) : Out :=
  s.monOn (fun s =>
    if 1024 < bytes.length then .next (s.monErr stBadlen [])
    else match s.dictPut .varan index sub bytes with
      | .ok t st => .next (if st = stOk then t.monOk [] else t.monErr st [])
      | .fault f => .fault f)

/-- lr (Table 22.1): at most 16 whole records from SEQ on, under R485; it acknowledges nothing. -/
def State.monLr (s : State) (seq n : Nat) : Out :=
  if s.dev.st = .off then .next s
  else if 16 < n then .next (s.line.monErr stRange [])
  else
    let rs := if s.mgmt.romOnly then s.log.recs.filter (·.flash) else s.log.recs
    .next (s.line.monOk (dataLines ((({ s.log with recs := rs }.since seq).take n).flatMap LogRec.bytes)))

/-! ## Unlocking (R514) -/

/-- chal (R514): a fresh nonce of 32 bytes. -/
def State.monChal (s : State) : Out :=
  s.monOn (fun s =>
    let (s, i) := s.draw
    let nonce := (List.range 32).map (Config.random i)
    let t := s.monOk (dataLines nonce)
    .next { t with mon := { t.mon with nonce := some (nonce, s.beat.devt.toNat) } })

/-- The nonce in force: given at most 60 s ago. -/
def State.nonceNow (s : State) : Option (List Byte) :=
  match s.mon.nonce with
  | some (n, t) => if s.beat.devt.toNat ≤ t + 135000000000 then some n else none
  | none => none

/-- Whether `sig` unlocks the monitor (R514). -/
def State.unlocks (s : State) (sig : List Byte) : Bool :=
  match s.nonceNow with
  | some n => decide (s.setting 0x7040 1 0 = 1) && !s.mon.modulus.isEmpty
      && pssVerify s.mon.modulus (n ++ bytesOf Config.dieId 8 ++ ascii "EV4-VARAN") sig
  | none => false

/-- unlock (R514): an unlock is counted and logged with attention; any failure replies ACCESS and discards the nonce. -/
def State.monUnlock (s : State) (bytes : List Byte) : Out :=
  s.monOn (fun s =>
    let ok := s.unlocks bytes
    let s := { s with mon := { s.mon with nonce := none } }
    if ok then
      .next (({ s with mon := { s.mon with unlocked := true, unlocks := (s.mon.unlocks + 1) % 2 ^ 32 } }.logEv 0x1205 true (lf 1 ++ lf 0)).monOk [])
    else .next (s.monErr stAccess []))

/-- lock (R514, Table 22.1): relocks; always ok, in every state, OFF too. -/
def State.monLock (s : State) : Out := if s.mgmt.romOnly then .next s else .next ((s.line.relock 1).monOk [])

/-! ## Memory and core access (R515, R516) -/

/-- The local address of `n` bytes in items of `w` that mr and mw may reach, or a status (R515). -/
def State.monAddr (s : State) (w : Width) (addr n : Nat) : Except Nat Nat :=
  let k := w.bytes
  let dev : DevId := BitVec.ofNat 10 (addr >>> 46)
  let loc := addr % 2 ^ 46
  let way (x : Nat) : Bool := decide ((targetOf x).cls = .way)
  if w = .w256 ∨ w = .w512 then .error stBadlen
  else if 2 ^ 56 ≤ addr ∨ s.resolveDev dev ≠ s.own ∨ addr % k ≠ 0 ∨ 1024 < n ∨ way loc ∨ way (loc + n - 1) then .error stRange
  else .ok loc

/-- A command window takes no row now: the item waits (R200). -/
def State.windowFull (s : State) (a : Nat) : Bool :=
  match targetOf a with
  | .command st => !(s.stack st).takesRow
  | _ => false

/-- The next item of an mr or mw (R515): one access of the management subsystem; an error reply ends the command with MEMERR after its STATUS, and the last item ends it with ok. -/
def State.monItem (s : State) (j : MonJob) : Out :=
  let keep (s : State) (x : Option MonJob) : State := { s with mon := { s.mon with job := x } }
  let after (s : State) (j : MonJob) : State :=
    if j.left ≤ 1 then (keep s none).monOk (if j.write then [] else dataLines j.bytes)
    else keep s (some { j with addr := j.addr + j.size, left := j.left - 1 })
  let failed (s : State) (st : Nat) : State := (keep s none).monErr stMemerr ((if j.write then [] else dataLines j.bytes) ++ dataLine [BitVec.ofNat 8 st])
  if j.write then
    if s.windowFull j.addr then .next (keep s (some j))
    else match s.mgmtWrite j.addr (j.bytes.take j.size) with
      | .ok t => .next (after t { j with bytes := j.bytes.drop j.size })
      | .err st t => .next (failed t st)
      | .fault f => .fault f
  else match s.mgmtRead j.addr j.size with
    | (t, .inr bs) => .next (after t { j with bytes := j.bytes ++ bs })
    | (t, .inl st) => .next (failed t st)

/-- mr or mw begins with its first item; none ends it at once. -/
def State.monBegin (s : State) (j : MonJob) : Out := if j.left = 0 then .next (s.monOk []) else s.monItem j

/-- mr (R515): reads `n` items of a width. -/
def State.monMr (s : State) (w : Width) (addr n : Nat) : Out :=
  s.monOn (fun s => s.needUnlocked (
    match s.monAddr w addr (n * w.bytes) with
    | .error st => .next (s.monErr st [])
    | .ok a => s.monBegin { write := false, size := w.bytes, addr := a, left := n, bytes := [] }))

/-- mw (R515): writes whole items of a width, in PREOP, READY, AXOLOTL and FAULT. -/
def State.monMw (s : State) (w : Width) (addr : Nat) (bytes : List Byte) : Out :=
  s.monOn (fun s => s.needUnlocked (
    let d := s.dev.st
    if d ≠ .preop ∧ d ≠ .ready ∧ d ≠ .axolotl ∧ d ≠ .fault then .next (s.monErr stState [])
    else if bytes.length % w.bytes ≠ 0 then .next (s.monErr stBadlen [])
    else match s.monAddr w addr bytes.length with
      | .error st => .next (s.monErr st [])
      | .ok a => s.monBegin { write := true, size := w.bytes, addr := a, left := bytes.length / w.bytes, bytes }))

/-- A data line `name=value`, the value in `k` hexadecimal digits. [DESIGN CHOICE, log entry 127: unsafe] -/
def valueLine (name : String) (k n : Nat) : List Byte := ascii name ++ [61] ++ hexFix k n ++ crlf

/-- The state of a stopped core, in the order of R516. -/
def Core.scan (k : Core) : List Byte :=
  let u := k.cpu
  let w (name : String) (v : Word) : List Byte := valueLine name 8 v.toNat
  let p (name : String) (v : BitVec 14) : List Byte := valueLine name 4 v.toNat
  p "pc" k.run.spc ++ w "csr" u.csr ++ w "rsp" u.rsp
    ++ (List.range 8).flatMap (fun i => p ("rs" ++ toString i) (Table.get 0 u.rstack i))
    ++ w "lc0" u.lc0 ++ p "ls0" u.ls0 ++ p "le0" u.le0 ++ w "lc1" u.lc1 ++ p "ls1" u.ls1 ++ p "le1" u.le1
    ++ (List.range 15).flatMap (fun i => w ("g" ++ toString (i + 1)) (u.reg (BitVec.ofNat 4 (i + 1))))
    ++ w "tsbp" u.tsbp ++ valueLine "xvb" 8 (u.xvb.toNat * 64) ++ w "esp" u.esp ++ w "quiet" u.quiet
    ++ w "mts0" k.mat.fa0.mts ++ w "mts1" k.mat.fa1.mts ++ w "mts2" k.mat.ba0.mts ++ w "mts3" k.mat.ba1.mts ++ valueLine "intp" 8 u.intp.toNat

/-- cs (R516): the state of a core that does not run; a running, disabled or unpowered core ends with STATE. -/
def State.monCs (s : State) (core : Nat) : Out :=
  s.monOn (fun s => s.needUnlocked (
    let k := s.core (BitVec.ofNat 10 core)
    if 1024 ≤ core ∨ s.dev.st = .tadpole ∨ s.coreOn core = false ∨ k.run.st = .running then .next (s.monErr stState [])
    else .next (s.monOk k.scan)))

/-- A monitor command, parsed (Table 22.1). -/
inductive MonCmd where
  | st
  | od (index sub off len : Nat)
  | ow (index sub : Nat) (bytes : List Byte)
  | lr (seq n : Nat)
  | chal
  | unlock (bytes : List Byte)
  | lock
  | mr (w : Width) (addr n : Nat)
  | mw (w : Width) (addr : Nat) (bytes : List Byte)
  | cs (core : Nat)
deriving DecidableEq, Repr

/-- A monitor command runs. -/
def State.monRun (s : State) (c : MonCmd) : Out :=
  match c with
  | .st => s.monSt
  | .od index sub off len => s.monOr index sub off len
  | .ow index sub bytes => s.monOw index sub bytes
  | .lr seq n => s.monLr seq n
  | .chal => s.monChal
  | .unlock bytes => s.monUnlock bytes
  | .lock => s.monLock
  | .mr w addr n => s.monMr w addr n
  | .mw w addr bytes => s.monMw w addr bytes
  | .cs core => s.monCs core

/-! ## Parsing (R510, R512) -/

/-- The fields of a line: what its runs of spaces separate. -/
def fieldsOf (line : List Byte) : List (List Byte) :=
  let (fs, cur) := line.foldl (fun (a : List (List Byte) × List Byte) c => if c = 32 then (if a.2 = [] then a else (a.1 ++ [a.2], [])) else (a.1, a.2 ++ [c])) ([], [])
  if cur = [] then fs else fs ++ [cur]

/-- The value of a hexadecimal digit. -/
def hexVal (c : Byte) : Option Nat :=
  let n := c.toNat
  if 48 ≤ n ∧ n ≤ 57 then some (n - 48) else if 97 ≤ n ∧ n ≤ 102 then some (n - 87) else if 65 ≤ n ∧ n ≤ 70 then some (n - 55) else none

/-- A number: hexadecimal, with an optional 0x, underscores ignored. -/
def numOf (f : List Byte) : Option Nat :=
  let f := match f with | 48 :: 120 :: r => r | r => r
  let ds := f.filter (fun c => decide (c ≠ 95))
  if ds = [] then none else ds.foldl (fun a c => a.bind (fun n => (hexVal c).map (fun d => 16 * n + d))) (some 0)

/-- Hexadecimal pairs without spaces. -/
def pairsOf : List Byte → Option (List Byte)
  | [] => some []
  | a :: b :: r => do
    let x ← hexVal a
    let y ← hexVal b
    let rest ← pairsOf r
    some (BitVec.ofNat 8 (16 * x + y) :: rest)
  | _ => none

/-- A byte string: hexadecimal pairs, with optional spaces between pairs. -/
def bytesField (fs : List (List Byte)) : Option (List Byte) := (fs.mapM pairsOf).map List.flatten

/-- A width letter (R515). -/
def widthOf (f : List Byte) : Option Width :=
  if f = ascii "b" then some .w8 else if f = ascii "h" then some .w16 else if f = ascii "w" then some .w32
  else if f = ascii "d" then some .w64 else if f = ascii "r" then some .w4096 else none

/-- What a line comes to: a command, or the status that ends it (R512). [DESIGN CHOICE, log entry 125: unsafe] -/
def parseLine (line : List Byte) : Except Nat MonCmd :=
  let need (x : Option MonCmd) : Except Nat MonCmd := match x with | some c => .ok c | none => .error stBadlen
  match fieldsOf line with
  | [] => .error stBadop
  | k :: fs =>
    if k = ascii "st" then need (if fs = [] then some .st else none)
    else if k = ascii "or" then need (match fs with
      | [i, x] => do some (.od (← numOf i) (← numOf x) 0 1024)
      | [i, x, o] => do some (.od (← numOf i) (← numOf x) (← numOf o) 1024)
      | [i, x, o, n] => do some (.od (← numOf i) (← numOf x) (← numOf o) (← numOf n))
      | _ => none)
    else if k = ascii "ow" then need (match fs with
      | i :: x :: r => do some (.ow (← numOf i) (← numOf x) (← bytesField r))
      | _ => none)
    else if k = ascii "lr" then need (match fs with
      | [q] => do some (.lr (← numOf q) 4)
      | [q, n] => do some (.lr (← numOf q) (← numOf n))
      | _ => none)
    else if k = ascii "chal" then need (if fs = [] then some .chal else none)
    else if k = ascii "unlock" then need (if fs = [] then none else do some (.unlock (← bytesField fs)))
    else if k = ascii "lock" then need (if fs = [] then some .lock else none)
    else if k = ascii "mr" then need (match fs with
      | [w, a] => do some (.mr (← widthOf w) (← numOf a) 1)
      | [w, a, n] => do some (.mr (← widthOf w) (← numOf a) (← numOf n))
      | _ => none)
    else if k = ascii "mw" then need (match fs with
      | w :: a :: b :: r => do some (.mw (← widthOf w) (← numOf a) (← bytesField (b :: r)))
      | _ => none)
    else if k = ascii "cs" then need (match fs with
      | [c] => do some (.cs (← numOf c))
      | _ => none)
    else .error stBadop

/-! ## The UART (R509) -/

/-- Characters of a line or of the lines that wait, at most 3,200 of them. -/
def Varan.held (m : Varan) : Nat := (m.rx.map (fun l => match l with | some cs => cs.length | none => 0)).sum + m.part.length

/-- A character arrives: CR, LF or CRLF ends a line, an empty line is none, and what would be the 3,201st character makes the monitor discard its line (R509). -/
def Varan.char (m : Varan) (c : Byte) : Varan :=
  if c = 10 ∧ m.cr then { m with cr := false }
  else if c = 13 ∨ c = 10 then
    let m := { m with cr := decide (c = 13) }
    if m.ovf then { m with rx := m.rx ++ [none], part := [], ovf := false }
    else if m.part = [] then m
    else { m with rx := m.rx ++ [some m.part], part := [] }
  else
    let m := { m with cr := false }
    if m.ovf then m
    else if 3200 ≤ m.held then { m with ovf := true, part := [] }
    else { m with part := m.part ++ [c] }

/-- Nothing is being executed, and nothing has been received that is not. -/
def Varan.idle (m : Varan) : Bool := m.job.isNone && m.rx.isEmpty && m.part.isEmpty && !m.ovf && m.uart.isEmpty

/-- A received line is executed: its command, er 21 for one that was discarded, or the status of one that does not parse (R509, R512). -/
def State.monLine (s : State) (l : Option (List Byte)) : Out :=
  match l with
  | none => s.monOn (fun s => .next (s.monErr stBadlen []))
  | some cs => match parseLine cs with
    | .ok c => s.monRun c
    | .error st => s.monOn (fun s => .next (s.monErr st []))

/-- The monitor in one cycle: a character from the line, then the next item of the command in execution, or the next line. -/
def State.monCycle (s : State) : Out :=
  let s := match s.mon.uart with
    | [] => s
    | c :: cs => { s with mon := { s.mon with uart := cs }.char c }
  match s.mon.job, s.mon.rx with
  | some j, _ => s.monItem j
  | none, l :: ls => { s with mon := { s.mon with rx := ls } }.monLine l
  | none, [] => .next s

/-- The letter of a width; none is sent for a width that mr and mw do not have. -/
def widthLetter : Width → List Byte
  | .w8 => ascii "b" | .w16 => ascii "h" | .w32 => ascii "w" | .w64 => ascii "d" | .w4096 => ascii "r" | .w256 => ascii "?" | .w512 => ascii "?"

/-- The line of a command as a terminal sends it. -/
def MonCmd.text (c : MonCmd) : List Byte :=
  let f (n : Nat) : List Byte := 32 :: hexNum n
  let b (bs : List Byte) : List Byte := 32 :: bs.flatMap (fun x => hexFix 2 x.toNat)
  (match c with
   | .st => ascii "st" | .chal => ascii "chal" | .lock => ascii "lock"
   | .od i x o n => ascii "or" ++ f i ++ f x ++ f o ++ f n
   | .ow i x bs => ascii "ow" ++ f i ++ f x ++ b bs
   | .lr q n => ascii "lr" ++ f q ++ f n
   | .unlock bs => ascii "unlock" ++ b bs
   | .mr w a n => ascii "mr " ++ widthLetter w ++ f a ++ f n
   | .mw w a bs => ascii "mw " ++ widthLetter w ++ f a ++ b bs
   | .cs c => ascii "cs" ++ f c) ++ [13]

/-- A whole line with a command arrives: an idle monitor executes it, or discards it where it is too long, and a busy one receives it behind what is on its way (R509). -/
def State.monSend (s : State) (c : MonCmd) : Out :=
  if s.mon.idle then (if 3201 < c.text.length then s.monLine none else s.monRun c) else .next { s with mon := { s.mon with uart := s.mon.uart ++ c.text } }

/-! ## Commands -/

/-- VARAN_ST (R512). -/
def execVaranSt (s : State) : Out := s.monSend .st

/-- VARAN_OR (R513). -/
def execVaranOr (index : BitVec 16) (sub : Byte) (off len : Nat) (s : State) : Out := s.monSend (.od index.toNat sub.toNat off len)

/-- VARAN_OW (R513). -/
def execVaranOw (index : BitVec 16) (sub : Byte) (bytes : List Byte) (s : State) : Out := s.monSend (.ow index.toNat sub.toNat bytes)

/-- VARAN_LR (R512). -/
def execVaranLr (seq n : Nat) (s : State) : Out := s.monSend (.lr seq n)

/-- VARAN_CHAL (R514). -/
def execVaranChal (s : State) : Out := s.monSend .chal

/-- VARAN_UNLOCK (R514). -/
def execVaranUnlock (bytes : List Byte) (s : State) : Out := s.monSend (.unlock bytes)

/-- VARAN_LOCK (R514). -/
def execVaranLock (s : State) : Out := s.monSend .lock

/-- MONITOR_INACTIVITY_TIMEOUT (R514): 15 minutes without a received line relock the monitor. -/
def execMonitorInactivityTimeout (s : State) : Out :=
  if s.mon.lastLine + 2025000000000 ≤ s.beat.devt.toNat then .next (s.relock 2) else .next s

/-- VARAN_MR (R515). -/
def execVaranMr (w : Width) (addr : DWord) (n : Nat) (s : State) : Out := s.monSend (.mr w addr.toNat n)

/-- VARAN_MW (R515). -/
def execVaranMw (w : Width) (addr : DWord) (bytes : List Byte) (s : State) : Out := s.monSend (.mw w addr.toNat bytes)

/-- VARAN_CS (R516). -/
def execVaranCs (core : Nat) (s : State) : Out := s.monSend (.cs core)

end Sys2Proof.Machine
end

