-- ==== Sys2Proof/Machine/Dispatch.lean ====
section
/-! DEFINITION. Dispatch: each command to its meaning. -/

namespace Sys2Proof.Machine

/-- The effect of one command on the machine. [DESIGN CHOICE, log entry 5: safe] [DEDUCED, log entry 139: unsafe] -/
def exec (i : Instr) (s : State) : Host.Outcome State Fault Refusal :=
  match i with
  | .nop c => Sys2Proof.Machine.execNop c s
  | .ret c => Sys2Proof.Machine.execRet c s
  | .reti c => Sys2Proof.Machine.execReti c s
  | .fence c m => Sys2Proof.Machine.execFence c m s
  | .trap c n => Sys2Proof.Machine.execTrap c n s
  | .bwait c gs => Sys2Proof.Machine.execBwait c gs s
  | .halt c => Sys2Proof.Machine.execHalt c s
  | .mov c gd gs => Sys2Proof.Machine.execMov c gd gs s
  | .add c gd gs => Sys2Proof.Machine.execAdd c gd gs s
  | .sub c gd gs => Sys2Proof.Machine.execSub c gd gs s
  | .and c gd gs => Sys2Proof.Machine.execAnd c gd gs s
  | .or c gd gs => Sys2Proof.Machine.execOr c gd gs s
  | .xor c gd gs => Sys2Proof.Machine.execXor c gd gs s
  | .shl c gd gs => Sys2Proof.Machine.execShl c gd gs s
  | .shr c gd gs => Sys2Proof.Machine.execShr c gd gs s
  | .sar c gd gs => Sys2Proof.Machine.execSar c gd gs s
  | .ror c gd gs => Sys2Proof.Machine.execRor c gd gs s
  | .mul c gd gs => Sys2Proof.Machine.execMul c gd gs s
  | .mulhu c gd gs => Sys2Proof.Machine.execMulhu c gd gs s
  | .mulhs c gd gs => Sys2Proof.Machine.execMulhs c gd gs s
  | .not c gd gs => Sys2Proof.Machine.execNot c gd gs s
  | .neg c gd gs => Sys2Proof.Machine.execNeg c gd gs s
  | .clz c gd gs => Sys2Proof.Machine.execClz c gd gs s
  | .popc c gd gs => Sys2Proof.Machine.execPopc c gd gs s
  | .seq c gd gs => Sys2Proof.Machine.execSeq c gd gs s
  | .sne c gd gs => Sys2Proof.Machine.execSne c gd gs s
  | .slt c gd gs => Sys2Proof.Machine.execSlt c gd gs s
  | .sltu c gd gs => Sys2Proof.Machine.execSltu c gd gs s
  | .sge c gd gs => Sys2Proof.Machine.execSge c gd gs s
  | .sgeu c gd gs => Sys2Proof.Machine.execSgeu c gd gs s
  | .min c gd gs => Sys2Proof.Machine.execMin c gd gs s
  | .max c gd gs => Sys2Proof.Machine.execMax c gd gs s
  | .minu c gd gs => Sys2Proof.Machine.execMinu c gd gs s
  | .maxu c gd gs => Sys2Proof.Machine.execMaxu c gd gs s
  | .sxb c gd gs => Sys2Proof.Machine.execSxb c gd gs s
  | .sxh c gd gs => Sys2Proof.Machine.execSxh c gd gs s
  | .zxb c gd gs => Sys2Proof.Machine.execZxb c gd gs s
  | .zxh c gd gs => Sys2Proof.Machine.execZxh c gd gs s
  | .jr c gs => Sys2Proof.Machine.execJr c gs s
  | .callr c gs => Sys2Proof.Machine.execCallr c gs s
  | .rdcr c gd k => Sys2Proof.Machine.execRdcr c gd k s
  | .wrcr c k gs => Sys2Proof.Machine.execWrcr c k gs s
  | .movi c gd imm => Sys2Proof.Machine.execMovi c gd imm s
  | .addi c gd imm => Sys2Proof.Machine.execAddi c gd imm s
  | .andi c gd imm => Sys2Proof.Machine.execAndi c gd imm s
  | .ori c gd imm => Sys2Proof.Machine.execOri c gd imm s
  | .xori c gd imm => Sys2Proof.Machine.execXori c gd imm s
  | .seqi c gd imm => Sys2Proof.Machine.execSeqi c gd imm s
  | .slti c gd imm => Sys2Proof.Machine.execSlti c gd imm s
  | .sltui c gd imm => Sys2Proof.Machine.execSltui c gd imm s
  | .shli c gd sh => Sys2Proof.Machine.execShli c gd sh s
  | .shri c gd sh => Sys2Proof.Machine.execShri c gd sh s
  | .sari c gd sh => Sys2Proof.Machine.execSari c gd sh s
  | .rori c gd sh => Sys2Proof.Machine.execRori c gd sh s
  | .muli c gd imm => Sys2Proof.Machine.execMuli c gd imm s
  | .movhi c gd imm => Sys2Proof.Machine.execMovhi c gd imm s
  | .bfxu c gd gs lm1 p => Sys2Proof.Machine.execBfxu c gd gs lm1 p s
  | .bfxs c gd gs lm1 p => Sys2Proof.Machine.execBfxs c gd gs lm1 p s
  | .bfi c gd gs lm1 p => Sys2Proof.Machine.execBfi c gd gs lm1 p s
  | .bperm c gd gs gc => Sys2Proof.Machine.execBperm c gd gs gc s
  | .bz c gs target => Sys2Proof.Machine.execBz c gs target s
  | .bnz c gs target => Sys2Proof.Machine.execBnz c gs target s
  | .br c target => Sys2Proof.Machine.execBr c target s
  | .call c target => Sys2Proof.Machine.execCall c target s
  | .loop c n m cnt last => Sys2Proof.Machine.execLoop c n m cnt last s
  | .ldB c g gi sd d par => Sys2Proof.Machine.execLdB c g gi sd d par s
  | .ldBS c g gi sd d par => Sys2Proof.Machine.execLdBS c g gi sd d par s
  | .ldH c g gi sd d par => Sys2Proof.Machine.execLdH c g gi sd d par s
  | .ldHS c g gi sd d par => Sys2Proof.Machine.execLdHS c g gi sd d par s
  | .ldW c g gi sd d par => Sys2Proof.Machine.execLdW c g gi sd d par s
  | .stB c g gi sd d => Sys2Proof.Machine.execStB c g gi sd d s
  | .stH c g gi sd d => Sys2Proof.Machine.execStH c g gi sd d s
  | .stW c g gi sd d => Sys2Proof.Machine.execStW c g gi sd d s
  | .storeBufferSend c => Sys2Proof.Machine.execStoreBufferSend c s
  | .sdset c sd g => Sys2Proof.Machine.execSdset c sd g s
  | .sdget c g sd => Sys2Proof.Machine.execSdget c g sd s
  | .responseFaultEntry c => Sys2Proof.Machine.execResponseFaultEntry c s
  | .interruptEntry c => Sys2Proof.Machine.execInterruptEntry c s
  | .saveWriteAck k => Sys2Proof.Machine.execSaveWriteAck k s
  | .quietOpen c gs => Sys2Proof.Machine.execQuietOpen c gs s
  | .quietClose c gs => Sys2Proof.Machine.execQuietClose c gs s
  | .quietExpiry c => Sys2Proof.Machine.execQuietExpiry c s
  | .mm c tile gl gs clr => Sys2Proof.Machine.execMm c tile gl gs clr s
  | .mmPassRequest c eng => Sys2Proof.Machine.execMmPassRequest c eng s
  | .passBegin c eng ecc => Sys2Proof.Machine.execPassBegin c eng ecc s
  | .passSumsWritten c eng => Sys2Proof.Machine.execPassSumsWritten c eng s
  | .mdrain c tile gs cd rel => Sys2Proof.Machine.execMdrain c tile gs cd rel s
  | .mld c tile sd gi d => Sys2Proof.Machine.execMld c tile sd gi d s
  | .mst c tile sd gi d rel => Sys2Proof.Machine.execMst c tile sd gi d rel s
  | .mrel c tile => Sys2Proof.Machine.execMrel c tile s
  | .vadd c ty vd va vb => Sys2Proof.Machine.execVadd c ty vd va vb s
  | .vsub c ty vd va vb => Sys2Proof.Machine.execVsub c ty vd va vb s
  | .vmul c ty vd va vb => Sys2Proof.Machine.execVmul c ty vd va vb s
  | .vfma c ty vd va vb => Sys2Proof.Machine.execVfma c ty vd va vb s
  | .vmax c ty vd va vb => Sys2Proof.Machine.execVmax c ty vd va vb s
  | .vmin c ty vd va vb => Sys2Proof.Machine.execVmin c ty vd va vb s
  | .vand c ty vd va vb => Sys2Proof.Machine.execVand c ty vd va vb s
  | .vor c ty vd va vb => Sys2Proof.Machine.execVor c ty vd va vb s
  | .vxor c ty vd va vb => Sys2Proof.Machine.execVxor c ty vd va vb s
  | .vdiv c ty vd va vb => Sys2Proof.Machine.execVdiv c ty vd va vb s
  | .vfn c ty vd va t => Sys2Proof.Machine.execVfn c ty vd va t s
  | .vredsum c ty vd va => Sys2Proof.Machine.execVredsum c ty vd va s
  | .vredmax c ty vd va => Sys2Proof.Machine.execVredmax c ty vd va s
  | .vclt c ty vd va vb => Sys2Proof.Machine.execVclt c ty vd va vb s
  | .vceq c ty vd va vb => Sys2Proof.Machine.execVceq c ty vd va vb s
  | .vsel c ty vd va vb => Sys2Proof.Machine.execVsel c ty vd va vb s
  | .vld c v sd gi cd gw ecc => Sys2Proof.Machine.execVld c v sd gi cd gw ecc s
  | .vst c v sd gi cd gw => Sys2Proof.Machine.execVst c v sd gi cd gw s
  | .vmvt c v tile seg nm1 => Sys2Proof.Machine.execVmvt c v tile seg nm1 s
  | .vmvf c tile seg v nm1 => Sys2Proof.Machine.execVmvf c tile seg v nm1 s
  | .vbcast c v gs ty => Sys2Proof.Machine.execVbcast c v gs ty s
  | .vext c gd v l ty => Sys2Proof.Machine.execVext c gd v l ty s
  | .vfirst c gd v ty => Sys2Proof.Machine.execVfirst c gd v ty s
  | .dcInvLines c v => Sys2Proof.Machine.execDcInvLines c v s
  | .dcInvAll c => Sys2Proof.Machine.execDcInvAll c s
  | .dcCtlWrite c v => Sys2Proof.Machine.execDcCtlWrite c v s
  | .qsend c e gs gl lm1 ord => Sys2Proof.Machine.execQsend c e gs gl lm1 ord s
  | .qcmb c e gs gi rf red ord => Sys2Proof.Machine.execQcmb c e gs gi rf red ord s
  | .qstat c gd r => Sys2Proof.Machine.execQstat c gd r s
  | .qpop c gd r => Sys2Proof.Machine.execQpop c gd r s
  | .qcred c gd e => Sys2Proof.Machine.execQcred c gd e s
  | .qarm c q gs => Sys2Proof.Machine.execQarm c q gs s
  | .sendStallEvent c => Sys2Proof.Machine.execSendStallEvent c s
  | .sadd c gn gv imm h ord => Sys2Proof.Machine.execSadd c gn gv imm h ord s
  | .ssub c gn gv imm h ord => Sys2Proof.Machine.execSsub c gn gv imm h ord s
  | .swait c gn gv d => Sys2Proof.Machine.execSwait c gn gv d s
  | .swatch c gn gv h ord => Sys2Proof.Machine.execSwatch c gn gv h ord s
  | .swaitCancel c => Sys2Proof.Machine.execSwaitCancel c s
  | .dstart c gd ch gp => Sys2Proof.Machine.execDstart c gd ch gp s
  | .dstat c gd ch => Sys2Proof.Machine.execDstat c gd ch s
  | .dabort c gd ch => Sys2Proof.Machine.execDabort c gd ch s
  | .readRequest k flt ecc => Sys2Proof.Machine.execReadRequest k flt ecc s
  | .writeRequest k flt ecc => Sys2Proof.Machine.execWriteRequest k flt ecc s
  | .readResponse k flt => Sys2Proof.Machine.execReadResponse k flt s
  | .writeAcknowledgement k flt => Sys2Proof.Machine.execWriteAcknowledgement k flt s
  | .errorReply k flt => Sys2Proof.Machine.execErrorReply k flt s
  | .messageRow k flt => Sys2Proof.Machine.execMessageRow k flt s
  | .row0Allocate c => Sys2Proof.Machine.execRow0Allocate c s
  | .combiningContribution k flt ecc => Sys2Proof.Machine.execCombiningContribution k flt ecc s
  | .reduceMerge a b => Sys2Proof.Machine.execReduceMerge a b s
  | .antiStarvationGrant k => Sys2Proof.Machine.execAntiStarvationGrant k s
  | .creditReturn k flt => Sys2Proof.Machine.execCreditReturn k flt s
  | .semaphoreAdd k flt => Sys2Proof.Machine.execSemaphoreAdd k flt s
  | .semaphoreSubtract k flt => Sys2Proof.Machine.execSemaphoreSubtract k flt s
  | .semaphoreWait k flt => Sys2Proof.Machine.execSemaphoreWait k flt s
  | .semaphoreWaitSubtract k flt => Sys2Proof.Machine.execSemaphoreWaitSubtract k flt s
  | .armWatch k flt => Sys2Proof.Machine.execArmWatch k flt s
  | .cancelWait k flt => Sys2Proof.Machine.execCancelWait k flt s
  | .semaphoreResponse k flt => Sys2Proof.Machine.execSemaphoreResponse k flt s
  | .managementRequest c => Sys2Proof.Machine.execManagementRequest c s
  | .watchEntryWrite cl w j v => Sys2Proof.Machine.execWatchEntryWrite cl w j v s
  | .tbinv cl v => Sys2Proof.Machine.execTbinv cl v s
  | .translationMissFill cl => Sys2Proof.Machine.execTranslationMissFill cl s
  | .channelBegin cl => Sys2Proof.Machine.execChannelBegin cl s
  | .mgmtChannelStart cl ch prog => Sys2Proof.Machine.execMgmtChannelStart cl ch prog s
  | .geckoFetch k flt => Sys2Proof.Machine.execGeckoFetch k flt s
  | .move cl => Sys2Proof.Machine.execMove cl s
  | .geckoLoop cl => Sys2Proof.Machine.execGeckoLoop cl s
  | .endloop cl => Sys2Proof.Machine.execEndloop cl s
  | .geckoWait cl => Sys2Proof.Machine.execGeckoWait cl s
  | .signal cl => Sys2Proof.Machine.execSignal cl s
  | .csum cl => Sys2Proof.Machine.execCsum cl s
  | .gend cl => Sys2Proof.Machine.execGend cl s
  | .head cl => Sys2Proof.Machine.execHead cl s
  | .dchAbort cl ch => Sys2Proof.Machine.execDchAbort cl ch s
  | .dchDisable cl ch => Sys2Proof.Machine.execDchDisable cl ch s
  | .abortComplete cl => Sys2Proof.Machine.execAbortComplete cl s
  | .newtCommandRow k flt => Sys2Proof.Machine.execNewtCommandRow k flt s
  | .mark st => Sys2Proof.Machine.execMark st s
  | .adelta st => Sys2Proof.Machine.execAdelta st s
  | .attn st => Sys2Proof.Machine.execAttn st s
  | .opt st => Sys2Proof.Machine.execOpt st s
  | .avsw st => Sys2Proof.Machine.execAvsw st s
  | .scrub st bad => Sys2Proof.Machine.execScrub st bad s
  | .newtCommandComplete st id => Sys2Proof.Machine.execNewtCommandComplete st id s
  | .nerr1Read st => Sys2Proof.Machine.execNerr1Read st s
  | .nctlEnWrite st en => Sys2Proof.Machine.execNctlEnWrite st en s
  | .nctlHaltqWrite st hq => Sys2Proof.Machine.execNctlHaltqWrite st hq s
  | .newtTableWrite st off v => Sys2Proof.Machine.execNewtTableWrite st off v s
  | .refresh st => Sys2Proof.Machine.execRefresh st s
  | .patrolRead st ecc => Sys2Proof.Machine.execPatrolRead st ecc s
  | .imbalanceWindowEnd => Sys2Proof.Machine.execImbalanceWindowEnd s
  | .boundaryGenerate => Sys2Proof.Machine.execBoundaryGenerate s
  | .beatBoundaryApply => Sys2Proof.Machine.execBeatBoundaryApply s
  | .beatlUpdate => Sys2Proof.Machine.execBeatlUpdate s
  | .beatInEdge => Sys2Proof.Machine.execBeatInEdge s
  | .beatMarker p f => Sys2Proof.Machine.execBeatMarker p f s
  | .holdFlit p f => Sys2Proof.Machine.execHoldFlit p f s
  | .identFlit p f => Sys2Proof.Machine.execIdentFlit p f s
  | .flywheelEntry => Sys2Proof.Machine.execFlywheelEntry s
  | .flywheelBoundary => Sys2Proof.Machine.execFlywheelBoundary s
  | .responseHoldRequest c => Sys2Proof.Machine.execResponseHoldRequest c s
  | .stallRequest k flt => Sys2Proof.Machine.execStallRequest k flt s
  | .stallWithdraw k flt => Sys2Proof.Machine.execStallWithdraw k flt s
  | .freezeBegin => Sys2Proof.Machine.execFreezeBegin s
  | .freezeResume => Sys2Proof.Machine.execFreezeResume s
  | .freezeTimeout => Sys2Proof.Machine.execFreezeTimeout s
  | .holdRepeat => Sys2Proof.Machine.execHoldRepeat s
  | .btResync => Sys2Proof.Machine.execBtResync s
  | .btRoleWrite ctl cfg => Sys2Proof.Machine.execBtRoleWrite ctl cfg s
  | .btStenWrite sten => Sys2Proof.Machine.execBtStenWrite sten s
  | .btEnWrite en => Sys2Proof.Machine.execBtEnWrite en s
  | .rcRun c supst => Sys2Proof.Machine.execRcRun c supst s
  | .rcStop c => Sys2Proof.Machine.execRcStop c s
  | .variantChoice => Sys2Proof.Machine.execVariantChoice s
  | .linkFrameReceive p f => Sys2Proof.Machine.execLinkFrameReceive p f s
  | .retryTimerExpiry p => Sys2Proof.Machine.execRetryTimerExpiry p s
  | .trainSuccess p => Sys2Proof.Machine.execTrainSuccess p s
  | .trainTimeout p => Sys2Proof.Machine.execTrainTimeout p s
  | .alignLock p => Sys2Proof.Machine.execAlignLock p s
  | .alignTimeout p => Sys2Proof.Machine.execAlignTimeout p s
  | .alignmentLost p => Sys2Proof.Machine.execAlignmentLost p s
  | .retrainComplete p seq => Sys2Proof.Machine.execRetrainComplete p seq s
  | .retrainTimeout p => Sys2Proof.Machine.execRetrainTimeout p s
  | .failedRetry p => Sys2Proof.Machine.execFailedRetry p s
  | .drainComplete p => Sys2Proof.Machine.execDrainComplete p s
  | .drainTimeout p => Sys2Proof.Machine.execDrainTimeout p s
  | .lpEnWrite p en => Sys2Proof.Machine.execLpEnWrite p en s
  | .lpRetr p => Sys2Proof.Machine.execLpRetr p s
  | .routeEntryWrite dev v => Sys2Proof.Machine.execRouteEntryWrite dev v s
  | .pcieLinkTrained speed width => Sys2Proof.Machine.execPcieLinkTrained speed width s
  | .pcieReset => Sys2Proof.Machine.execPcieReset s
  | .mailboxEnable v => Sys2Proof.Machine.execMailboxEnable v s
  | .doorbell tail => Sys2Proof.Machine.execDoorbell tail s
  | .retireEnable v => Sys2Proof.Machine.execRetireEnable v s
  | .dictionaryWindowAccess cmd => Sys2Proof.Machine.execDictionaryWindowAccess cmd s
  | .bar2Read off len => Sys2Proof.Machine.execBar2Read off len s
  | .bar2Write off bytes => Sys2Proof.Machine.execBar2Write off bytes s
  | .nopCommand r => Sys2Proof.Machine.execNopCommand r s
  | .dictRead r index sub off => Sys2Proof.Machine.execDictRead r index sub off s
  | .dictWrite r index sub off value => Sys2Proof.Machine.execDictWrite r index sub off value s
  | .logRead r sfrom => Sys2Proof.Machine.execLogRead r sfrom s
  | .attnAck r q => Sys2Proof.Machine.execAttnAck r q s
  | .state r target => Sys2Proof.Machine.execState r target s
  | .load r mbase ptab npeer => Sys2Proof.Machine.execLoad r mbase ptab npeer s
  | .release r start => Sys2Proof.Machine.execRelease r start s
  | .resync r beat => Sys2Proof.Machine.execResync r beat s
  | .bind r slot eff half => Sys2Proof.Machine.execBind r slot eff half s
  | .unbind r slot eff => Sys2Proof.Machine.execUnbind r slot eff s
  | .semadd r snw val => Sys2Proof.Machine.execSemadd r snw val s
  | .hdma r dir len haddr daddr => Sys2Proof.Machine.execHdma r dir len haddr daddr s
  | .mctpDictRead secured vendor tag index sub off => Sys2Proof.Machine.execMctpDictRead secured vendor tag index sub off s
  | .mctpDictWrite secured vendor tag index sub off value => Sys2Proof.Machine.execMctpDictWrite secured vendor tag index sub off value s
  | .warmStartRequest => Sys2Proof.Machine.execWarmStartRequest s
  | .coldStartRequest => Sys2Proof.Machine.execColdStartRequest s
  | .storeClearRequest v => Sys2Proof.Machine.execStoreClearRequest v s
  | .supplyRise => Sys2Proof.Machine.execSupplyRise s
  | .coldStart r => Sys2Proof.Machine.execColdStart r s
  | .warmStart r => Sys2Proof.Machine.execWarmStart r s
  | .supplyTick mv mw low => Sys2Proof.Machine.execSupplyTick mv mw low s
  | .pwrWarnFall => Sys2Proof.Machine.execPwrWarnFall s
  | .warnThrottle => Sys2Proof.Machine.execWarnThrottle s
  | .thermalTick => Sys2Proof.Machine.execThermalTick s
  | .thermalTrip => Sys2Proof.Machine.execThermalTrip s
  | .refclkLoss => Sys2Proof.Machine.execRefclkLoss s
  | .regionPowerRequest v => Sys2Proof.Machine.execRegionPowerRequest v s
  | .watchdogExpiry => Sys2Proof.Machine.execWatchdogExpiry s
  | .sensorSample id conv => Sys2Proof.Machine.execSensorSample id conv s
  | .railEvent rail => Sys2Proof.Machine.execRailEvent rail s
  | .logFlush n => Sys2Proof.Machine.execLogFlush n s
  | .tenantRelease w => Sys2Proof.Machine.execTenantRelease w s
  | .recoveryStart w => Sys2Proof.Machine.execRecoveryStart w s
  | .recoveryLoad w => Sys2Proof.Machine.execRecoveryLoad w s
  | .minsvnRaise w => Sys2Proof.Machine.execMinsvnRaise w s
  | .setRootHash session hash => Sys2Proof.Machine.execSetRootHash session hash s
  | .keyInstall session k modulus => Sys2Proof.Machine.execKeyInstall session k modulus s
  | .unlockModulusInstall session modulus => Sys2Proof.Machine.execUnlockModulusInstall session modulus s
  | .queryDeviceIdentifiers => Sys2Proof.Machine.execQueryDeviceIdentifiers s
  | .getFirmwareParameters => Sys2Proof.Machine.execGetFirmwareParameters s
  | .requestUpdate => Sys2Proof.Machine.execRequestUpdate s
  | .passComponentTable => Sys2Proof.Machine.execPassComponentTable s
  | .updateComponent len => Sys2Proof.Machine.execUpdateComponent len s
  | .requestFirmwareData off bytes => Sys2Proof.Machine.execRequestFirmwareData off bytes s
  | .transferComplete => Sys2Proof.Machine.execTransferComplete s
  | .verifyComplete => Sys2Proof.Machine.execVerifyComplete s
  | .applyComplete => Sys2Proof.Machine.execApplyComplete s
  | .activateFirmware => Sys2Proof.Machine.execActivateFirmware s
  | .getStatus => Sys2Proof.Machine.execGetStatus s
  | .cancelUpdateComponent => Sys2Proof.Machine.execCancelUpdateComponent s
  | .cancelUpdate => Sys2Proof.Machine.execCancelUpdate s
  | .getVersion => Sys2Proof.Machine.execGetVersion s
  | .getCapabilities => Sys2Proof.Machine.execGetCapabilities s
  | .negotiateAlgorithms => Sys2Proof.Machine.execNegotiateAlgorithms s
  | .getDigests => Sys2Proof.Machine.execGetDigests s
  | .getCertificate slot off len => Sys2Proof.Machine.execGetCertificate slot off len s
  | .challenge slot nonce => Sys2Proof.Machine.execChallenge slot nonce s
  | .getMeasurements index => Sys2Proof.Machine.execGetMeasurements index s
  | .keyExchange x => Sys2Proof.Machine.execKeyExchange x s
  | .finish session => Sys2Proof.Machine.execFinish session s
  | .heartbeat session => Sys2Proof.Machine.execHeartbeat session s
  | .keyUpdate session => Sys2Proof.Machine.execKeyUpdate session s
  | .endSession session => Sys2Proof.Machine.execEndSession session s
  | .varanSt => Sys2Proof.Machine.execVaranSt s
  | .varanOr index sub off len => Sys2Proof.Machine.execVaranOr index sub off len s
  | .varanOw index sub bytes => Sys2Proof.Machine.execVaranOw index sub bytes s
  | .varanLr seq n => Sys2Proof.Machine.execVaranLr seq n s
  | .varanChal => Sys2Proof.Machine.execVaranChal s
  | .varanUnlock bytes => Sys2Proof.Machine.execVaranUnlock bytes s
  | .varanLock => Sys2Proof.Machine.execVaranLock s
  | .varanMr w addr n => Sys2Proof.Machine.execVaranMr w addr n s
  | .varanMw w addr bytes => Sys2Proof.Machine.execVaranMw w addr bytes s
  | .varanCs core => Sys2Proof.Machine.execVaranCs core s
  | .monitorInactivityTimeout => Sys2Proof.Machine.execMonitorInactivityTimeout s
  | .registerWrite sp off w v => Sys2Proof.Machine.execRegisterWrite sp off w v s
  | .illegalOpcodeFault c w1 w2 => Sys2Proof.Machine.execIllegalOpcodeFault c w1 w2 s
  | .hostReadCompletion tag ok bytes => Sys2Proof.Machine.execHostReadCompletion tag ok bytes s
  | .unknownOpRequest r op => Sys2Proof.Machine.execUnknownOpRequest r op s

end Sys2Proof.Machine
end

