-- ==== Sys2Proof/Machine/Tick.lean ====
section
/-! DEFINITION. One cycle of the 2.25 GHz clock (R349): what counts whatever is commanded. A step on an empty queue is such a cycle. -/

namespace Sys2Proof.Machine

/-- The issue of a core is held on a load result, on response rows or on a fence (R358). -/
def Core.heldOn (k : Core) : Bool :=
  match k.run.wait with
  | .load _ => true
  | .fence _ => true
  | .rows => true
  | _ => match k.run.hold with | .rows _ => true | _ => false

/-- One region-clock cycle of a core: CYC always; QUIET.LEFT, QSWC and the hold count outside a device-wide stall (Table 3.8, R110, R297, R358). [DEDUCED, log entry 61: unsafe] -/
def Core.tick (k : Core) (frz : Bool) : Core :=
  let u := { k.cpu with cyc := k.cpu.cyc + 1 }
  if frz then { k with cpu := u }
  else
    let run := decide (k.run.st = .running)
    let sending : Bool := match k.run.wait with | .send _ => true | _ => false
    { k with
      cpu := { u with qLeft := if u.qAct ∧ u.qLeft ≠ 0 then u.qLeft - 1 else u.qLeft },
      run := { k.run with held := if run && k.heldOn then k.run.held + 1 else 0 },
      que := { k.que with qswc := if run && sending then k.que.qswc + 1 else 0 } }

/-- A cycle of a device-wide stall is counted in the beat, in the freeze and at 0x1003:02 (R362, R363, Table 15.9). -/
def State.freezeCycle (s : State) : State :=
  let b := s.beat
  if b.frz then
    { s with beat := { b with stallb := if b.stallb = 0xFFFFFF then b.stallb else b.stallb + 1, frzLen := b.frzLen + 1, holdCyc := b.holdCyc + 1 } }.count 0x1003 2
  else s

/-- The engines and tile transfers of the cores whose clocks have an edge in this cycle; a device-wide stall freezes them (R95, R155, R159). -/
def State.matrixCycles (s : State) : State :=
  if s.beat.frz then s
  else (s.cores.map (fun kv => kv.1)).foldl (fun s c =>
    if s.coreOn c && regionEdge (s.freqCode (regionOf c)) s.beat.devt.toNat then s.matrixCycle (BitVec.ofNat 10 c) else s) s

/-- The cores of enabled regions whose clocks have an edge in this cycle take it. -/
def State.coreCycle (s : State) : State :=
  let t := s.beat.devt.toNat
  { s with cores := (List.range 1024).filterMap (fun c =>
      if s.coreOn c && regionEdge (s.freqCode (regionOf c)) t then some (c, (Table.get Core.reset s.cores c).tick s.beat.frz)
      else (Table.look s.cores c).map (fun k => (c, k))) }

/-- A fence whose last point is reached without an answer, an operand row delivered or a contribution injected, ends its response hold (R320, R358). -/
def State.holdCycle (s : State) : State :=
  (s.cores.map (fun kv => kv.1)).foldl (fun s c => s.endOver (BitVec.ofNat 10 c)) s

/-- What upsets stored data in this cycle. -/
def State.upsetCycle (s : State) : State :=
  match Config.upset s.beat.devt.toNat with
  | some u => s.upset u
  | none => s

/-- One cycle: the counts, the engines, the fabric and the link ports, then the requests that wait for other units are looked at again, and the monitor goes on. In OFF nothing but the monitor is clocked. -/
def State.tick (s : State) : Out :=
  if s.dev.st = .off then s.monCycle
  else
    let s := s.coreCycle.matrixCycles.freezeCycle.fabricCycle.portStarts.linkCycle.holdCycle.abortCycle.barCycle.upsetCycle
    match { s with beat := { s.beat with devt := s.beat.devt + 1 } }.poll with
    | .next s => s.monCycle
    | o => o

end Sys2Proof.Machine
end

