-- ==== Sys2Proof/Safety.lean ====
section
/-! DEFINITION. The terms in which the claims speak: when a command completes, what a core instruction leaves unchanged, and what every step keeps. -/

namespace Sys2Proof.Machine

/-! ## Outcomes -/

/-- The outcome of a command is a next state with a property. -/
def Does (o : Host.Outcome State Fault Refusal) (p : State → Prop) : Prop := ∃ t, o = .next t ∧ p t

/-- An outcome that is a next state gives one with a property. -/
def Leaves (o : Host.Outcome State Fault Refusal) (p : State → Prop) : Prop := ∀ t, o = .next t → p t

/-! ## Core instructions -/

/-- Core `c` can issue an instruction of `n` words that reads or writes the registers `uses` (R53, R84, R90, R111). -/
structure Ready (s : State) (c : CoreId) (uses : List Reg) (n : Nat) : Prop where
  can  : s.canIssue c = true
  free : (s.core c).regBusy uses = false
  fits : n = 2 → (s.core c).cpu.pc ≠ 0x3FFF

/-- What one instruction of core `c` leaves unchanged outside the core: every other core, and all else, memory included, but a withdrawn stall request on the fabric (R358). -/
def Apart (s t : State) (c : CoreId) : Prop :=
  (∀ d, d ≠ c → t.core d = s.core d) ∧ { t with cores := s.cores, net := s.net } = s ∧ ((s.core c).run.stall = false → t.net = s.net)

/-- Everything of a core but its scalar registers and control registers is as it was: scratchpads, caches and outstanding accesses, matrix and vector units, queue unit but the send-wait count (R297), and run control but the wait that has ended. -/
def Beside (k k' : Core) : Prop :=
  k'.pad = k.pad ∧ k'.lsu = k.lsu ∧ k'.mat = k.mat ∧ k'.vec = k.vec
    ∧ { k'.que with qswc := k.que.qswc, stalled := k.que.stalled } = k.que
    ∧ { k'.run with wait := k.run.wait, held := k.run.held, stall := k.run.stall } = k.run

/-- The program counter and the loop counters after an instruction of `n` words at the core's pc that does not transfer control (R53, R70, R71). -/
def Advanced (u u' : Cpu) (n : Nat) : Prop :=
  u'.pc = (u.advance u.pc n).pc ∧ u'.lc0 = (u.advance u.pc n).lc0 ∧ u'.lc1 = (u.advance u.pc n).lc1

/-- The special registers of a core, program memory and return stack included, are as they were: all but the general registers, the pc, the loop counters and the shadow of R79. -/
def Special (u u' : Cpu) : Prop :=
  { u' with regs := u.regs, pc := u.pc, lc0 := u.lc0, lc1 := u.lc1, shadow := u.shadow } = u

/-- Register `gd` holds `v`, and every other register what it held; g0 holds 0 (R51, R52). -/
def RegIs (s t : State) (c : CoreId) (gd : Reg) (v : Word) : Prop :=
  ∀ g, t.reg c g = if g = 0 then 0 else if g = gd then v else s.reg c g

/-- An instruction of `n` words whose whole effect is to write `v` into `gd`. -/
structure Wrote (s t : State) (c : CoreId) (n : Nat) (gd : Reg) (v : Word) : Prop where
  reg     : RegIs s t c gd v
  pc      : Advanced (s.core c).cpu (t.core c).cpu n
  special : Special (s.core c).cpu (t.core c).cpu
  beside  : Beside (s.core c) (t.core c)
  apart   : Apart s t c

/-- An instruction whose whole effect is to go to `target`: registers and loop counters stay (R72). -/
structure Jumped (s t : State) (c : CoreId) (target : PAddr) : Prop where
  pc     : (t.core c).cpu.pc = target
  cpu    : { (t.core c).cpu with pc := (s.core c).cpu.pc, shadow := (s.core c).cpu.shadow } = (s.core c).cpu
  beside : Beside (s.core c) (t.core c)
  apart  : Apart s t c

/-- A call to `target` with return address `ra` (R67): the new top entry holds `ra`, every other entry stays, DEPTH counts up to 8. -/
structure Called (s t : State) (c : CoreId) (target ra : PAddr) : Prop where
  pc     : (t.core c).cpu.pc = target
  top    : (t.core c).cpu.top = (s.core c).cpu.top + 1
  entry  : ∀ i, Table.get 0 (t.core c).cpu.rstack i = if i = ((s.core c).cpu.top + 1).toNat then ra else Table.get 0 (s.core c).cpu.rstack i
  depth  : (t.core c).cpu.depth.toNat = min ((s.core c).cpu.depth.toNat + 1) 8
  cpu    : { (t.core c).cpu with pc := (s.core c).cpu.pc, shadow := (s.core c).cpu.shadow, top := (s.core c).cpu.top, rstack := (s.core c).cpu.rstack, depth := (s.core c).cpu.depth } = (s.core c).cpu
  beside : Beside (s.core c) (t.core c)
  apart  : Apart s t c

/-- A vector instruction that writes the vector registers `w` alone: every other vector register, the function tables, the scalar registers, scratchpads, tiles and memory stay (R178, R180). -/
structure VecWrote (s t : State) (c : CoreId) (w : Nat → Prop) : Prop where
  keep    : ∀ v, ¬ w v → (t.core c).vreg v = (s.core c).vreg v
  tables  : { (t.core c).vec with regs := (s.core c).vec.regs } = (s.core c).vec
  reg     : ∀ g, t.reg c g = s.reg c g
  pc      : Advanced (s.core c).cpu (t.core c).cpu 2
  special : Special (s.core c).cpu (t.core c).cpu
  pad     : (t.core c).pad = (s.core c).pad
  mat     : (t.core c).mat = (s.core c).mat
  lsu     : (t.core c).lsu = (s.core c).lsu
  apart   : Apart s t c

/-! ## Entries (R101, R108) -/

/-- Core `c` can take an entry through its task-state block at once: no load result is awaited, the block is valid, free and in stack memory, and no escalation handler runs (R101, R106, R108, R109). -/
structure CanEnter (s : State) (c : CoreId) : Prop where
  loads : (s.core c).lsu.busy = []
  valid : (s.core c).cpu.tsV = true
  free  : (s.core c).cpu.tsSaved = false
  noEsc : (s.core c).cpu.espAct = false
  place : (s.core c).cpu.tsAddr.toNat * 1024 < memTop

/-- The scalar state at the first instruction of vector `vec`: supervisor, interrupts off, loops off, return stack empty, pc at the vector's slot (Table 4.10, R87); all else as it was. -/
def Cpu.atVector (u : Cpu) (vec : Nat) : Cpu :=
  { u with sup := true, ie := false, lc0 := 0, lc1 := 0, depth := 0, shadow := true, pc := BitVec.ofNat 14 (u.xvb.toNat * 64 + 2 * vec) }

/-- The four save writes of the entry of a core whose state at the capture is `k` (R101, R102): uncached, VC1, order flag, bytes 0-63 of the block first, at local address `addr`. -/
def SaveWrites (s : State) (k : Core) (e : Cause) (escr addr : Nat) (ps : List Packet) : Prop :=
  ps.length = 4 ∧ ∀ i p, ps[i]? = some p →
    p.kind = .wr ∧ p.vc = 1 ∧ p.ord = true ∧ p.ddev = s.own ∧ p.addr = mkFAddr s.own (addr + 64 * i)
      ∧ p.data = BitVec.ofNat 4096 (leNat ((blockBytes k e escr).drop (64 * i) |>.take 64))

/-- What an entry of core `c` leaves beside its scalar state (R101, R102, R153): the block on its way to memory and no line of it cached, the start-rows cleared, MORE cleared, four more writes to be acknowledged; all else as it was. `k` is the core at the capture. -/
structure Captured (s t : State) (c : CoreId) (k : Core) (e : Cause) (escr addr : Nat) : Prop where
  writes : ∃ a ps b, t.net = s.net ++ a ++ ps ++ b ∧ SaveWrites s k e escr addr ps ∧ ((s.core c).run.stall = false → a = [] ∧ b = [])
  cached : ∀ i, i < 4 → ∀ l ∈ (t.core c).lsu.lines, l.2.1 ≠ lineOf (mkFAddr s.own addr) + BitVec.ofNat 50 i
  mat    : (t.core c).mat = { k.mat with fa0 := { k.mat.fa0 with srow := 0 }, fa1 := { k.mat.fa1 with srow := 0 }, ba0 := { k.mat.ba0 with srow := 0 }, ba1 := { k.mat.ba1 with srow := 0 } }
  saving : (t.core c).run.saving.map (·.left) = k.run.saving.map (·.left) ++ [4]
  more   : (t.core c).run.more = false
  pend   : (t.core c).run.pend = k.run.pend
  run    : (t.core c).run.st = k.run.st
  pad    : (t.core c).pad = k.pad
  vec    : (t.core c).vec = k.vec
  sbuf   : (t.core c).lsu.sbuf = k.lsu.sbuf
  others : ∀ d, d ≠ c → t.core d = s.core d
  rest   : { t with cores := s.cores, net := s.net } = s

/-- Core `c` has taken the entry `e` through its task-state block (R101). -/
def Entered (s t : State) (c : CoreId) (k : Core) (e : Cause) : Prop :=
  (t.core c).cpu = { (s.core c).cpu.atVector e.vec with tsSaved := true } ∧ Captured s t c k e 0 ((s.core c).cpu.tsAddr.toNat * 1024)

/-- Core `c` has taken an escalation entry for `e` (R108): frame at ESP, ACT set, QUIET closed, vector 0; TSBP as it was. -/
def Escalated (s t : State) (c : CoreId) (k : Core) (e : Cause) (escr : Nat) : Prop :=
  (t.core c).cpu = { (s.core c).cpu.atVector 0 with espAct := true, qAct := false } ∧ Captured s t c k e escr ((s.core c).cpu.espAddr.toNat * 1024)

/-! ## Packets -/

/-- Core `c` has sent the packets `ps`, and nothing else outside it has changed, but for a withdrawn stall request after them (R358). -/
def Sent (s t : State) (c : CoreId) (ps : List Packet) : Prop :=
  (∀ d, d ≠ c → t.core d = s.core d) ∧ ∃ w, { t with cores := s.cores } = s.injectAll (ps ++ w) ∧ ((s.core c).run.stall = false → w = [])

/-- Packet `p` is number `n` in flight, has its turn to arrive, and its unit is on (R117, R259, R268). -/
structure Arrives (s : State) (n : Nat) (p : Packet) : Prop where
  at_ : s.net[n]? = some p
  may : s.mayArrive n p = true
  on  : s.dstOn p = true

/-- The machine has changed in the core `c` alone, and has sent `ps` (R254, R408). -/
def Answered (s t : State) (c : CoreId) (ps : List Packet) : Prop :=
  (∀ d, d ≠ c → t.core d = s.core d) ∧ { t with cores := s.cores } = s.injectAll ps

/-! ## Gecko programs -/

/-- The channel `ch` of cluster `cl` runs, its state is `h`, and the instruction at its IPC is `w`, with zero in its res fields (R328, R333). -/
structure Gecko (s : State) (cl : ClusterId) (ch : ChanId) (h : Chan) (w : BitVec 256) : Prop where
  on    : s.cluOn cl.toNat = true
  head  : ∃ q, (s.clu cl.toNat).queue = ch :: q
  chan  : s.chan cl.toNat ch.toNat = h
  st    : h.st = .run
  abort : h.abort = false
  fails : h.failing = none
  moves : ∀ m ∈ h.moves, m.reqd = m.len
  instr : ∃ b : BitVec 4096, Table.look h.blocks ((h.prog.toNat + 32 * h.ipc.toNat) / 512 - h.prog.toNat / 512) = some b
            ∧ w = b.extractLsb' (8 * ((h.prog.toNat + 32 * h.ipc.toNat) % 512)) 256
  res   : gResOk w = true

/-! ## Newt engines -/

/-- Engine `st` is enabled and free, holds no table write back, and the one row of its ring, `r`, has one descriptor left, `d` (R200, R203). -/
structure NewtHead (s : State) (st : StackId) (r : NRow) (d : BitVec 512) : Prop where
  ring : (s.stack st.toNat).ring = [r]
  cmds : (s.stack st.toNat).cmds = []
  held : (s.stack st.toNat).heldW = []
  on   : (s.stack st.toNat).en = true
  here : ∃ i, i < 8 ∧ r.slot ≤ i ∧ d = r.row.extractLsb' (512 * i) 512 ∧ d.extractLsb' 24 8 ≠ 0xFF ∧ ∀ j, j < 8 → r.slot ≤ j → j ≠ i → (r.row.extractLsb' (512 * j + 24) 8) = 0xFF

/-! ## FAULT (R452) -/

/-- The device is in FAULT after `cause`, with the actions of R452 taken where it was not there before: STEN cleared, queues halted, channels disabled, pulls and retirement off, cores stopped; memory as it was. -/
structure Faulted (s t : State) (cause : Byte) : Prop where
  st    : t.dev.st = .fault
  cause : t.dev.cause = if s.dev.cause = 0 then cause else s.dev.cause
  sten  : s.dev.st ≠ .fault → t.beat.sten = false
  halt  : s.dev.st ≠ .fault → ∀ i, i < 8 → (t.stack i).haltq = true
  dis   : s.dev.st ≠ .fault → ∀ cl ch, cl < 64 → ch < 8 → (t.chan cl ch).dis = true
  pulls : s.dev.st ≠ .fault → t.host.slIn = false ∧ t.host.slRt = false
  cores : s.dev.st ≠ .fault → s.beat.frz = false → ∀ c, (s.core c).run.hold = .none → (s.core c).run.saving = [] → (s.core c).run.due = none → (t.core c).run.st ≠ .running
  mem   : t.mem = s.mem

/-! ## Mailbox (chapter 18) -/

/-- The mailbox fetches its next request now (R424, R425, R429): enabled, in PREOP or beyond, a request written, fewer than 16 unreplied, no BAR2 write before its doorbell unacknowledged. -/
structure Fetches (s : State) : Prop where
  on    : s.host.mbEn = true
  off   : s.dev.st ≠ .off
  tad   : s.dev.st ≠ .tadpole
  some_ : s.host.head ≠ s.host.tail
  room  : (s.host.reqs.filter (fun (q : HReq) => !q.mute)).length < 16
  fence : ∀ b bs, s.host.bells = b :: bs → b.2 = []

/-- The machine with the next mailbox request fetched (R425). -/
def State.mbFetched (s : State) : State :=
  { s with host := { s.host with head := s.host.head + 1, bells := s.host.bells.dropWhile (fun (b : BitVec 16 × List (BitVec 12)) => decide (b.1 = s.host.head + 1)) } }

/-- COND (Table 18.5). -/
def State.condition (s : State) : Byte :=
  if s.dev.st = .fault then 0xA3 else if s.dev.st = .axolotl then 0xA2 else if s.dev.st = .hold then 0xA1
  else if s.host.ovr then 0xA0 else if s.log.attn ≠ 0 then 0x5C else 0

/-- `t` is `f` with the reply to the request `i` of tag `tag` in host memory: payload, zero-filled to 240 bytes, then the header of Table 18.4; one request more is counted (R425, R426). -/
def Replied (f t : State) (i : BitVec 16) (tag : Word) (status : Nat) (payload : List Byte) : Prop :=
  let n := 2 ^ f.host.mbLog.toNat
  let a := f.host.rbase.toNat + 256 * (i.toNat % n)
  ∃ pend : Byte,
    let head : List Byte := [if i.toNat / n % 2 = 0 then 0x81 else 0x01, f.condition, BitVec.ofNat 8 status, pend] ++ leBytes 4 tag.toNat ++ leBytes 4 (f.beat.bcnt.toNat % 2 ^ 32) ++ leBytes 2 i.toNat ++ leBytes 2 (min 0xFFFF f.log.attn)
    (pend.getLsbD 0 = decide (f.log.attn ≠ 0) ∧ pend.getLsbD 1 = f.host.ovr ∧ pend.getLsbD 2 = decide (f.dev.st = .hold) ∧ pend.getLsbD 3 = decide (f.dev.st = .axolotl) ∧ pend.getLsbD 4 = decide (f.dev.st = .fault))
    ∧ t = { f with host := { f.host with mem := memPut (memPut f.host.mem (a + 16) (payload ++ List.replicate (240 - payload.length) 0)) a head }, cnt := Table.put f.cnt 0x600201 ((Table.get 0 f.cnt 0x600201 + 1) % 2 ^ 64) }

/-! ## What every step keeps -/

/-- Stack memory, and host memory as far as the device has written it, are in canonical form: addresses strictly rising, no byte listed that an unlisted one reads as. -/
def State.memOk (s : State) : Bool := Table.wf 0 s.mem && Table.wf 0 s.host.mem

/-- What is fixed at manufacture and never changes in the field: the stepping and the enabled-region map (R2, R5, R7). -/
def State.fuses (s : State) : Bool × BitVec 16 := (s.dev.b0, s.dev.map)

end Sys2Proof.Machine
end

