-- ==== Sys2Proof/Certificates/Slice0/Obligations.lean ====
section
/-! DEFINITION. The statements for the provers: what the rules of the spec say that the commands and the machine do. -/

open Sys2Proof Sys2Proof.Machine

/-! ## The queue and the scalar core (chapters 3 and 4) -/

/-- A step takes the command at the front of the queue and is that command's effect on the state with the queue's rest; with no command waiting, one cycle of the clock passes (the model's choice, log entry 1). -/
def Obligations.StepRunsFront : Prop :=
  (∀ (i : Instr) (rest : List Instr) (s : State), s.pending = i :: rest → step s = exec i { s with pending := rest })
    ∧ (∀ s : State, s.pending = [] → step s = s.tick)

/-- R57: the one-word operations that read gd and gs write gd with the stated sum, difference, bitwise result, minimum or maximum, and change nothing else; g0 as a destination takes nothing (R52). R57: shifts take the count from gs[4:0] alone; mul keeps the low 32 bits, mulhu and mulhs the high 32 bits of the unsigned and the signed product. R57 and R64: a comparison writes exactly 1 where the relation holds and 0 where it does not. R57: clz counts the leading zero bits (32 for zero), popc the one bits; sxb, sxh, zxb and zxh extend the low byte or half-word. -/
def Obligations.OneWordOperations : Prop :=
  (∀ (s : State) (c : CoreId) (gd gs : Reg), Ready s c [gd, gs] 1 →
    let a := s.reg c gd
    let b := s.reg c gs
    let W (i : Instr) (v : Word) : Prop := Does (exec i s) (fun t => Wrote s t c 1 gd v)
    W (.mov c gd gs) b ∧ W (.add c gd gs) (BitVec.ofNat 32 (a.toNat + b.toNat)) ∧ W (.sub c gd gs) (BitVec.ofInt 32 (a.toInt - b.toInt))
      ∧ W (.and c gd gs) (a &&& b) ∧ W (.or c gd gs) (a ||| b) ∧ W (.xor c gd gs) (a ^^^ b) ∧ W (.not c gd gs) (~~~b)
      ∧ W (.neg c gd gs) (BitVec.ofInt 32 (-b.toInt))
      ∧ W (.min c gd gs) (if a.toInt ≤ b.toInt then a else b) ∧ W (.max c gd gs) (if a.toInt ≤ b.toInt then b else a)
      ∧ W (.minu c gd gs) (if a.toNat ≤ b.toNat then a else b) ∧ W (.maxu c gd gs) (if a.toNat ≤ b.toNat then b else a))
  ∧ (∀ (s : State) (c : CoreId) (gd gs : Reg), Ready s c [gd, gs] 1 →
    let a := s.reg c gd
    let b := s.reg c gs
    let n := b.toNat % 32
    let W (i : Instr) (p : Word → Prop) : Prop := Does (exec i s) (fun t => ∃ v, p v ∧ Wrote s t c 1 gd v)
    W (.shl c gd gs) (fun v => v.toNat = a.toNat * 2 ^ n % 2 ^ 32) ∧ W (.shr c gd gs) (fun v => v.toNat = a.toNat / 2 ^ n)
      ∧ W (.sar c gd gs) (fun v => v.toInt = a.toInt / 2 ^ n) ∧ W (.ror c gd gs) (fun v => ∀ i, i < 32 → v.getLsbD i = a.getLsbD ((i + n) % 32))
      ∧ W (.mul c gd gs) (fun v => v.toNat = a.toNat * b.toNat % 2 ^ 32)
      ∧ W (.mulhu c gd gs) (fun v => v.toNat = a.toNat * b.toNat / 2 ^ 32) ∧ W (.mulhs c gd gs) (fun v => v.toInt = a.toInt * b.toInt / 2 ^ 32))
  ∧ (∀ (s : State) (c : CoreId) (gd gs : Reg), Ready s c [gd, gs] 1 →
    let a := s.reg c gd
    let b := s.reg c gs
    let W (i : Instr) (p : Prop) : Prop := Does (exec i s) (fun t => ∃ v : Word, (p → v = 1) ∧ (¬ p → v = 0) ∧ Wrote s t c 1 gd v)
    W (.seq c gd gs) (a = b) ∧ W (.sne c gd gs) (a ≠ b) ∧ W (.slt c gd gs) (a.toInt < b.toInt) ∧ W (.sltu c gd gs) (a.toNat < b.toNat)
      ∧ W (.sge c gd gs) (b.toInt ≤ a.toInt) ∧ W (.sgeu c gd gs) (b.toNat ≤ a.toNat))
  ∧ (∀ (s : State) (c : CoreId) (gd gs : Reg), Ready s c [gd, gs] 1 →
    let b := s.reg c gs
    let W (i : Instr) (p : Word → Prop) : Prop := Does (exec i s) (fun t => ∃ v, p v ∧ Wrote s t c 1 gd v)
    W (.clz c gd gs) (fun v => v.toNat ≤ 32 ∧ b.toNat < 2 ^ (32 - v.toNat) ∧ (v.toNat < 32 → b.getLsbD (31 - v.toNat) = true))
      ∧ W (.popc c gd gs) (fun v => v.toNat = ((List.range 32).filter b.getLsbD).length)
      ∧ W (.sxb c gd gs) (fun v => v.toInt = (b.setWidth 8).toInt) ∧ W (.sxh c gd gs) (fun v => v.toInt = (b.setWidth 16).toInt)
      ∧ W (.zxb c gd gs) (fun v => v.toNat = b.toNat % 2 ^ 8) ∧ W (.zxh c gd gs) (fun v => v.toNat = b.toNat % 2 ^ 16))

/-- R60 and R61: the immediate forms act on gd with imm14 sign- or zero-extended as Table 3.6 says, and movhi writes imm18 shifted left by 14. R62: the field of length L' = min(L, 32 − P) at position P is extracted zero- or sign-extended, or inserted with the other bits of gd kept. -/
def Obligations.ImmediatesAndBitFields : Prop :=
  (∀ (s : State) (c : CoreId) (gd : Reg) (imm : BitVec 14) (sh : BitVec 5) (hi : BitVec 18), Ready s c [gd] 2 →
    let a := s.reg c gd
    let x : Word := imm.signExtend 32
    let z : Word := imm.setWidth 32
    let W (i : Instr) (p : Word → Prop) : Prop := Does (exec i s) (fun t => ∃ v, p v ∧ Wrote s t c 2 gd v)
    W (.movi c gd imm) (fun v => v.toInt = imm.toInt) ∧ W (.addi c gd imm) (fun v => v.toNat = (a.toNat + x.toNat) % 2 ^ 32)
      ∧ W (.andi c gd imm) (· = a &&& z) ∧ W (.ori c gd imm) (· = a ||| z) ∧ W (.xori c gd imm) (· = a ^^^ z)
      ∧ W (.seqi c gd imm) (fun v => (a.toInt = imm.toInt → v = 1) ∧ (a.toInt ≠ imm.toInt → v = 0))
      ∧ W (.slti c gd imm) (fun v => (a.toInt < imm.toInt → v = 1) ∧ (¬ a.toInt < imm.toInt → v = 0))
      ∧ W (.sltui c gd imm) (fun v => (a.toNat < x.toNat → v = 1) ∧ (¬ a.toNat < x.toNat → v = 0))
      ∧ W (.shli c gd sh) (fun v => v.toNat = a.toNat * 2 ^ sh.toNat % 2 ^ 32) ∧ W (.shri c gd sh) (fun v => v.toNat = a.toNat / 2 ^ sh.toNat)
      ∧ W (.sari c gd sh) (fun v => v.toInt = a.toInt / 2 ^ sh.toNat)
      ∧ W (.rori c gd sh) (fun v => ∀ i, i < 32 → v.getLsbD i = a.getLsbD ((i + sh.toNat) % 32))
      ∧ W (.muli c gd imm) (fun v => v.toNat = a.toNat * x.toNat % 2 ^ 32)
      ∧ W (.movhi c gd hi) (fun v => v.toNat = hi.toNat * 2 ^ 14))
  ∧ (∀ (s : State) (c : CoreId) (gd gs : Reg) (lm1 p : BitVec 5), Ready s c [gd, gs] 2 →
    let a := s.reg c gd
    let b := s.reg c gs
    let l := min (lm1.toNat + 1) (32 - p.toNat)
    let W (i : Instr) (q : Word → Prop) : Prop := Does (exec i s) (fun t => ∃ v, q v ∧ Wrote s t c 2 gd v)
    W (.bfxu c gd gs lm1 p) (fun v => ∀ i, i < 32 → v.getLsbD i = (decide (i < l) && b.getLsbD (p.toNat + i)))
      ∧ W (.bfxs c gd gs lm1 p) (fun v => ∀ i, i < 32 → v.getLsbD i = b.getLsbD (p.toNat + min i (l - 1)))
      ∧ W (.bfi c gd gs lm1 p) (fun v => ∀ i, i < 32 →
          v.getLsbD i = if p.toNat ≤ i ∧ i < p.toNat + l then b.getLsbD (i - p.toNat) else a.getLsbD i))

/-- R65, R57, R58 and R66: nop changes nothing but the pc; jr, br and the taken branches go to their target and change nothing else; a branch that is not taken goes on after its two words. R67 and R68: a call pushes the address of the next instruction, a ret pops the top entry into pc; with RSO = 1 a push at DEPTH 8 and a pop at DEPTH 0 raise vector 7 with the saved pc at the instruction and nothing pushed or popped. -/
def Obligations.ControlTransfers : Prop :=
  (∀ (s : State) (c : CoreId) (gs : Reg) (target : PAddr),
    (Ready s c [] 1 → Does (exec (.nop c) s) (fun t => Wrote s t c 1 0 0))
    ∧ (Ready s c [gs] 1 → Does (exec (.jr c gs) s) (fun t => Jumped s t c ((s.reg c gs).setWidth 14)))
    ∧ (Ready s c [] 2 → Does (exec (.br c target) s) (fun t => Jumped s t c target))
    ∧ (Ready s c [gs] 2 →
        Does (exec (.bz c gs target) s) (fun t => (s.reg c gs = 0 → Jumped s t c target) ∧ (s.reg c gs ≠ 0 → Wrote s t c 2 0 0))
        ∧ Does (exec (.bnz c gs target) s) (fun t => (s.reg c gs ≠ 0 → Jumped s t c target) ∧ (s.reg c gs = 0 → Wrote s t c 2 0 0))))
  ∧ (∀ (s : State) (c : CoreId) (gs : Reg) (target : PAddr),
    let k := s.core c
    let u := k.cpu
    let trap (sub : Nat) (t : State) : Prop := Entered s t c k { kind := 0, vec := 7, sub, pc := u.pc, fpc := u.pc }
    let full := u.rso = true ∧ u.depth = 8
    (Ready s c [] 2 → ¬ full → Does (exec (.call c target) s) (fun t => Called s t c target (u.pc + 2)))
    ∧ (Ready s c [gs] 1 → ¬ full → Does (exec (.callr c gs) s) (fun t => Called s t c ((s.reg c gs).setWidth 14) (u.pc + 1)))
    ∧ (Ready s c [] 1 → ¬ (u.rso = true ∧ u.depth = 0) → Does (exec (.ret c) s) (fun t =>
        (t.core c).cpu = { u with pc := Table.get 0 u.rstack u.top.toNat, top := u.top - 1, depth := BitVec.ofNat 4 (u.depth.toNat - 1), shadow := false }
          ∧ Beside k (t.core c) ∧ Apart s t c))
    ∧ (CanEnter s c → full → (Ready s c [] 2 → Does (exec (.call c target) s) (trap 0)) ∧ (Ready s c [gs] 1 → Does (exec (.callr c gs) s) (trap 0)))
    ∧ (CanEnter s c → u.rso = true → u.depth = 0 → Ready s c [] 1 → Does (exec (.ret c) s) (trap 1)))

/-- R69: loop N's start is pc + 2, its end is B, its count gs or the immediate; with a count of 0 the next instruction is the one after the body's last; an end below pc + 2 is an illegal opcode with sub-cause 5, and with M = 0 a non-zero A[5:4] one with sub-cause 1. R53, R70 and R71: after an instruction of `n` words at `pc` that does not transfer control, loop 1 is tested first and loop 0 only where loop 1 does not loop back; a count above 1 falls by 1 and the pc goes to the start; a count of 1 becomes 0 and the pc goes on; an inactive loop is not touched. Two points are the model's own: at 0x3FFE the loop goes on at pc + 2 without wrap (log entry 152), and sub-cause 1 comes before sub-cause 5 (log entry 10). -/
def Obligations.HardwareLoops : Prop :=
  (∀ (s : State) (c : CoreId) (n m : Bool) (cnt : BitVec 6) (last : PAddr), Ready s c (if m then [] else [cnt.setWidth 4]) 2 →
    let k := s.core c
    let u := k.cpu
    let x : Word := if m then cnt.setWidth 32 else s.reg c (cnt.setWidth 4)
    let u' : Cpu := if n then { u with ls1 := u.pc + 2, le1 := last, lc1 := x, shadow := false } else { u with ls0 := u.pc + 2, le0 := last, lc0 := x, shadow := false }
    let len : PAddr := if 0x30 ≤ (Table.get 0 u.prog last.toNat).toNat / 256 then 2 else 1
    let illegal (sub : Nat) (t : State) : Prop := ∃ info, Entered s t c k { kind := 0, vec := 1, sub, pc := u.pc, info, fpc := u.pc }
    ((m = false → cnt.toNat < 16) → u.pc.toNat + 2 ≤ last.toNat → Does (exec (.loop c n m cnt last) s) (fun t =>
        (x ≠ 0 → (t.core c).cpu = u'.advance u.pc 2) ∧ (x = 0 → (t.core c).cpu = { u' with pc := last + len })
          ∧ Beside k (t.core c) ∧ Apart s t c))
    ∧ ((m = false → cnt.toNat < 16) → last.toNat < u.pc.toNat + 2 → CanEnter s c → Does (exec (.loop c n m cnt last) s) (illegal 5))
    ∧ (m = false → 16 ≤ cnt.toNat → CanEnter s c → Does (exec (.loop c n m cnt last) s) (illegal 1)))
  ∧ (∀ (u : Cpu) (pc : PAddr) (n : Nat),
    let u' := u.advance pc n
    let on1 := pc = u.le1 ∧ 1 < u.lc1.toNat
    let on0 := pc = u.le0 ∧ 1 < u.lc0.toNat
    (on1 → u' = { u with pc := u.ls1, lc1 := u.lc1 - 1 })
    ∧ (¬ on1 → on0 → u' = { u with pc := u.ls0, lc0 := u.lc0 - 1, lc1 := if pc = u.le1 then 0 else u.lc1 })
    ∧ (¬ on1 → ¬ on0 → u' = { u with pc := BitVec.ofNat 14 (pc.toNat + n), lc0 := if pc = u.le0 then 0 else u.lc0, lc1 := if pc = u.le1 then 0 else u.lc1 }))

/-- R63: output byte i of the group from gd is the byte of the group from gs that selector nibble i names, all sources read before any destination is written; a group out of alignment is an illegal opcode with sub-cause 2. -/
def Obligations.BytePermute : Prop :=
  ∀ (s : State) (c : CoreId) (gd gs gc : Reg),
    Ready s c [gd, gd + 1, gd + 2, gd + 3, gs, gs + 1, gs + 2, gs + 3, gc, gc + 1] 2 →
    let byteOf (t : State) (g : Reg) (i : Nat) : Byte := (t.reg c (g + BitVec.ofNat 4 (i / 4))).extractLsb' (8 * (i % 4)) 8
    let nibble (i : Nat) : BitVec 4 := (s.reg c (gc + BitVec.ofNat 4 (i / 8))).extractLsb' (4 * (i % 8)) 4
    (gd.toNat % 4 = 0 → gs.toNat % 4 = 0 → gc.toNat % 2 = 0 → Does (exec (.bperm c gd gs gc) s) (fun t =>
        (∀ i, i < 16 → (gd ≠ 0 ∨ 4 ≤ i) → byteOf t gd i = byteOf s gs (nibble i).toNat)
          ∧ (∀ g, (g.toNat < gd.toNat ∨ gd.toNat + 4 ≤ g.toNat) → t.reg c g = s.reg c g) ∧ t.reg c 0 = 0
          ∧ Advanced (s.core c).cpu (t.core c).cpu 2 ∧ Special (s.core c).cpu (t.core c).cpu ∧ Beside (s.core c) (t.core c) ∧ Apart s t c))
    ∧ ((gd.toNat % 4 ≠ 0 ∨ gs.toNat % 4 ≠ 0 ∨ gc.toNat % 2 ≠ 0) → CanEnter s c → Does (exec (.bperm c gd gs gc) s) (fun t =>
        ∃ info, Entered s t c (s.core c) { kind := 0, vec := 1, sub := 2, pc := (s.core c).cpu.pc, info, fpc := (s.core c).cpu.pc }))

/-- R80 to R83: rdcr reads the register of Table 3.8; at task level a register whose task access is "—" raises an illegal opcode with sub-cause 3, and number 15 one with sub-cause 0 at any level. R80 to R82 and R88: wrcr writes the fields of Table 3.8 that are RW at the core's level, DEPTH above 8 as 8, SUP never, and the shadow follows a write of CSR; CID, CYC and BEATL ignore a supervisor's write; at task level only lc0 and lc1 can be written. QUIET has its own statement. That a control register number of 15 and above gives sub-cause 0 at task level too, before the privilege check, is log entry 10. -/
def Obligations.ControlRegisters : Prop :=
  (∀ (s : State) (c : CoreId) (gd : Reg) (k : BitVec 4), Ready s c [gd] 1 →
    let u := (s.core c).cpu
    let v : Word := match k.toNat with
      | 0 => u.lc0 | 1 => u.ls0.setWidth 32 | 2 => u.le0.setWidth 32 | 3 => u.lc1 | 4 => u.ls1.setWidth 32 | 5 => u.le1.setWidth 32
      | 6 => BitVec.ofNat 32 (u.depth.toNat * 2 ^ 4 + u.top.toNat)
      | 7 => BitVec.ofNat 32 (bnat u.sup * 2 ^ 31 + bnat u.rso * 2 ^ 8 + bnat u.ie)
      | 8 => BitVec.ofNat 32 (u.tsAddr.toNat * 2 ^ 2 + bnat u.tsSaved * 2 + bnat u.tsV)
      | 9 => BitVec.ofNat 32 (u.xvb.toNat * 2 ^ 6)
      | 10 => BitVec.ofNat 32 (u.espAddr.toNat * 2 ^ 2 + bnat u.espAct * 2 + bnat u.espV)
      | 11 => BitVec.ofNat 32 (bnat u.qAct * 2 ^ 31 + bnat u.qOvr * 2 ^ 30 + u.qLeft.toNat * 2 ^ 8 + u.qLen.toNat)
      | 12 => BitVec.ofNat 32 (regionOf c.toNat * 2 ^ 16 + clusterOf c.toNat * 2 ^ 10 + c.toNat)
      | 13 => u.cyc | _ => u.beatl
    let illegal (sub : Nat) (t : State) : Prop := ∃ info, Entered s t c (s.core c) { kind := 0, vec := 1, sub, pc := u.pc, info, fpc := u.pc }
    let hidden := 8 ≤ k.toNat ∧ k.toNat ≤ 11
    (k ≠ 15 → (u.sup = true ∨ ¬ hidden) → Does (exec (.rdcr c gd k) s) (fun t => Wrote s t c 1 gd v))
    ∧ (u.sup = false → hidden → CanEnter s c → Does (exec (.rdcr c gd k) s) (illegal 3))
    ∧ (k = 15 → CanEnter s c → Does (exec (.rdcr c gd k) s) (illegal 0)))
  ∧ (∀ (s : State) (c : CoreId) (gs : Reg) (k : BitVec 4), Ready s c [gs] 1 → k ≠ 11 →
    let u := { (s.core c).cpu with shadow := false }
    let v := s.reg c gs
    let u' : Cpu := match k.toNat with
      | 0 => { u with lc0 := v } | 1 => { u with ls0 := v.setWidth 14 } | 2 => { u with le0 := v.setWidth 14 }
      | 3 => { u with lc1 := v } | 4 => { u with ls1 := v.setWidth 14 } | 5 => { u with le1 := v.setWidth 14 }
      | 6 => { u with depth := BitVec.ofNat 4 (min (v.extractLsb' 4 4).toNat 8), top := v.extractLsb' 0 3 }
      | 7 => { u with rso := v.getLsbD 8, ie := v.getLsbD 0, shadow := true }
      | 8 => { u with tsAddr := v.extractLsb' 2 30, tsSaved := v.getLsbD 1, tsV := v.getLsbD 0 }
      | 9 => { u with xvb := v.extractLsb' 6 8 }
      | 10 => { u with espAddr := v.extractLsb' 2 30, espV := v.getLsbD 0 }
      | _ => u
    let illegal (sub : Nat) (t : State) : Prop := ∃ info, Entered s t c (s.core c) { kind := 0, vec := 1, sub, pc := u.pc, info, fpc := u.pc }
    let open_ := k = 0 ∨ k = 3
    (k ≠ 15 → (u.sup = true ∨ open_) → Does (exec (.wrcr c k gs) s) (fun t =>
        (t.core c).cpu = u'.advance u.pc 1 ∧ Beside (s.core c) (t.core c) ∧ Apart s t c))
    ∧ (k ≠ 15 → u.sup = false → ¬ open_ → CanEnter s c → Does (exec (.wrcr c k gs) s) (illegal 3))
    ∧ (k = 15 → CanEnter s c → Does (exec (.wrcr c k gs) s) (illegal 0)))

/-- R79: sdset writes word k of sdN from register g + k, the reserved bits as 0, and the shadow follows; sdget reads word k into register g + k; both are supervisor instructions on a group whose number is a multiple of 4. That a misaligned group at task level gives sub-cause 2, before sub-cause 3, is log entry 10. -/
def Obligations.DescriptorAccess : Prop :=
  ∀ (s : State) (c : CoreId) (g : Reg) (sd : SdId), Ready s c [g, g + 1, g + 2, g + 3] 2 →
    let k := s.core c
    let u := k.cpu
    let d : BitVec 128 := s.reg c (g + 3) ++ s.reg c (g + 2) ++ s.reg c (g + 1) ++ s.reg c g
    let old := Table.get 0 u.sds sd.toNat
    let illegal (sub : Nat) (t : State) : Prop := ∃ info, Entered s t c k { kind := 0, vec := 1, sub, pc := u.pc, info, fpc := u.pc }
    (g.toNat % 4 = 0 → u.sup = true →
        Does (exec (.sdset c sd g) s) (fun t =>
          (∀ n, Table.get 0 (t.core c).cpu.sds n = if n = sd.toNat then d &&& BitVec.ofNat 128 0xFFFFFFFFF3FFFFFFFFFFFFFF else Table.get 0 u.sds n)
            ∧ (∀ r, t.reg c r = s.reg c r) ∧ (t.core c).cpu.shadow = true ∧ Advanced u (t.core c).cpu 2
            ∧ Special u { (t.core c).cpu with sds := u.sds } ∧ Beside k (t.core c) ∧ Apart s t c)
        ∧ Does (exec (.sdget c g sd) s) (fun t =>
          (∀ r, t.reg c r = if r = 0 then 0 else if g.toNat ≤ r.toNat ∧ r.toNat < g.toNat + 4 then old.extractLsb' (32 * (r.toNat - g.toNat)) 32 else s.reg c r)
            ∧ Advanced u (t.core c).cpu 2 ∧ Special u (t.core c).cpu ∧ Beside k (t.core c) ∧ Apart s t c))
    ∧ (g.toNat % 4 ≠ 0 → CanEnter s c → Does (exec (.sdset c sd g) s) (illegal 2) ∧ Does (exec (.sdget c g sd) s) (illegal 2))
    ∧ (g.toNat % 4 = 0 → u.sup = false → CanEnter s c → Does (exec (.sdset c sd g) s) (illegal 3) ∧ Does (exec (.sdget c g sd) s) (illegal 3))

/-- R320 and R58: fence completes once every earlier operation in its scopes has reached its point of Table 13.12 (M: store buffer empty, no load, fill or store unanswered; S: every operand row of every queued pass delivered, no row of another core's window unanswered; Q: no message row, contribution with RED = 0 or semaphore operation with H = 0 unanswered, and every contribution with RED = 1 out of the send buffer), bwait once BEATL − gs is not negative; until then they hold issue. halt stops the core at supervisor level. A fence with bit 3 of m set raises an illegal opcode with sub-cause 1, and so does m = 0 (the model's choice, log entry 147). R80: at task level reti, halt and a write of QUIET raise an illegal opcode fault with sub-cause 3 before they have any effect. -/
def Obligations.WaitsAndPrivilege : Prop :=
  (∀ (s : State) (c : CoreId) (m : BitVec 4) (gs : Reg),
    let k := s.core c
    let none (p : OutOp → Bool) := ∀ o ∈ k.lsu.outs, p o.2 = false
    let mOk := k.lsu.sbuf = [] ∧ k.lsu.fills = [] ∧ none (fun o => match o with | .load _ => true | .store _ _ _ => true | _ => false)
    let sOk := (∀ q ∈ k.mat.f.queue ++ k.mat.b.queue, ∀ p, (q.rows p).2.length ≤ (q.got p).length) ∧ none (fun o => match o with | .row _ _ => true | _ => false)
    let qOk := none (fun o => match o with | .msg _ => true | _ => false) ∧ (∀ e ∈ k.lsu.sems, e.2.1 = true)
      ∧ ∀ p ∈ s.net, p.kind = .cmb → p.red = true → p.src = BitVec.ofNat 11 c.toNat → p.sport = 1 → p.sdev = s.own → p.hop ≠ 0
    let clear := (m.getLsbD 0 = true → mOk) ∧ (m.getLsbD 1 = true → sOk) ∧ (m.getLsbD 2 = true → qOk)
    let passed := 0 ≤ (k.cpu.beatl - s.reg c gs).toInt
    let waits (w : Wait) (t : State) : Prop := (t.core c).run.wait = w ∧ (t.core c).cpu = { k.cpu with shadow := (t.core c).cpu.shadow } ∧ Beside k (t.core c) ∧ Apart s t c
    (Ready s c [] 1 → m ≠ 0 → m.getLsbD 3 = false →
        (clear → Does (exec (.fence c m) s) (fun t => Wrote s t c 1 0 0)) ∧ (¬ clear → Does (exec (.fence c m) s) (waits (.fence m))))
    ∧ (Ready s c [] 1 → CanEnter s c → (m = 0 ∨ m.getLsbD 3 = true) → Does (exec (.fence c m) s) (fun t => ∃ info, Entered s t c k { kind := 0, vec := 1, sub := 1, pc := k.cpu.pc, info, fpc := k.cpu.pc }))
    ∧ (Ready s c [gs] 1 →
        (passed → Does (exec (.bwait c gs) s) (fun t => Wrote s t c 1 0 0)) ∧ (¬ passed → Does (exec (.bwait c gs) s) (waits .bwait)))
    ∧ (Ready s c [] 1 → k.cpu.sup = true → Does (exec (.halt c) s) (fun t =>
        (t.core c).run.st = .halted ∧ (t.core c).run.spc = k.cpu.pc ∧ (t.core c).cpu = { k.cpu with shadow := (t.core c).cpu.shadow }
          ∧ Beside k { t.core c with run := { (t.core c).run with st := k.run.st, spc := k.run.spc } } ∧ Apart s t c)))
  ∧ (∀ (s : State) (c : CoreId) (gs : Reg), CanEnter s c → (s.core c).cpu.sup = false →
    let u := (s.core c).cpu
    let illegal (t : State) : Prop := ∃ info, Entered s t c (s.core c) { kind := 0, vec := 1, sub := 3, pc := u.pc, info, fpc := u.pc }
    (Ready s c [] 1 → Does (exec (.reti c) s) illegal ∧ Does (exec (.halt c) s) illegal)
    ∧ (Ready s c [gs] 1 → ((s.reg c gs).getLsbD 31 = true → Does (exec (.quietOpen c gs) s) illegal)
        ∧ ((s.reg c gs).getLsbD 31 = false → Does (exec (.quietClose c gs) s) illegal)))

/-- R101, R56, R87, R90 and R96: a trap enters vector 16 + n with the next instruction's address; illegal words raise vector 1 with the words as INFO; at a boundary a pending response-time fault is entered before an interrupt, and of the interrupts the one of the lowest vector; at a pass or row boundary of a multi-row instruction the interrupt is entered with the tile in use, SROW at the first pass or row not requested, ROW and TILE set, and the instruction's address, a transfer's once the rows it requested are answered. An event that is chosen while load results are awaited is kept, and what arises meanwhile comes after it. Two illegal words at 0x3FFF give sub-cause 4 first (log entry 10); FPC of an interrupt or trap and SUB and INFO of an interrupt are the model's choice (log entry 150), and so is the wait of a transfer's interrupt (log entry 149). -/
def Obligations.ExceptionEntries : Prop :=
  ∀ (s : State) (c : CoreId),
    let k := s.core c
    let u := k.cpu
    (∀ n : BitVec 4, Ready s c [] 1 → k.lsu.busy ≠ [] → Does (exec (.trap c n) s) (fun t =>
        (t.core c).run.hold = .trap { kind := 2, vec := 16 + n.toNat, sub := n.toNat, pc := u.pc + 1, fpc := u.pc + 1 } ∧ (t.core c).run.wait = .load []
          ∧ (t.core c).cpu = { u with shadow := (t.core c).cpu.shadow } ∧ (t.core c).lsu = k.lsu ∧ Apart s t c))
    ∧ (∀ e, k.run.hold = .trap e → exec (.interruptEntry c) s = .next s ∧ exec (.responseFaultEntry c) s = .next s
        ∧ (k.lsu.busy = [] → s.beat.frz = false → k.run.stall = false → s.settleHold c = s.enter c e))
    ∧ (CanEnter s c → (∀ n : BitVec 4, Ready s c [] 1 → Does (exec (.trap c n) s) (fun t =>
        Entered s t c k { kind := 2, vec := 16 + n.toNat, sub := n.toNat, pc := u.pc + 1, fpc := u.pc + 1 }))
    ∧ (∀ (w1 w2 : BitVec 14) (sub : Nat), s.canIssue c = true → illegalWords w1 w2 = some sub →
        let two := 0x30 ≤ w1.toNat / 256
        Does (exec (.illegalOpcodeFault c w1 w2) s) (fun t =>
          Entered s t c k { kind := 0, vec := 1, sub := if two ∧ u.pc = 0x3FFF then 4 else sub, pc := u.pc,
                            info := if two then w1.toNat + w2.toNat * 2 ^ 14 else w1.toNat, fpc := u.pc }))
    ∧ (∀ f, s.atBoundary c = true → k.run.pend = some f → u.shadow = false → Does (exec (.responseFaultEntry c) s) (fun t =>
        Entered s t c { k with run := { k.run with pend := none } }
          { kind := 0, vec := f.vec.toNat, sub := f.sub.toNat, pc := u.pc, info := f.info.toNat, faddr := f.faddr, fpc := f.fpc, imp := true })
        ∧ exec (.interruptEntry c) s = .next s)
    ∧ (∀ v, v < 4 → s.atBoundary c = true → k.run.pend = none → u.shadow = false → u.ie = true → u.qAct = false →
        u.intp.getLsbD v = true → u.inte.getLsbD v = true → (∀ w, w < v → ¬ (u.intp.getLsbD w = true ∧ u.inte.getLsbD w = true)) →
        Does (exec (.interruptEntry c) s) (fun t => Entered s t c k { kind := 1, vec := 8 + v, sub := 0, pc := u.pc, fpc := u.pc }))
    ∧ (∀ v, v < 4 → s.coreOn c.toNat = true → k.run.st = .running → s.beat.frz = false → k.run.due = none → u.shadow = false → u.ie = true → u.qAct = false →
        u.intp.getLsbD v = true → u.inte.getLsbD v = true → (∀ w, w < v → ¬ (u.intp.getLsbD w = true ∧ u.inte.getLsbD w = true)) →
        let boundary (tile : TileId) (next : Nat) : Core := { k with mat := k.mat.setTile tile { k.mat.tile tile with inuse := true, srow := BitVec.ofNat 16 next } }
        let cause (tile : TileId) (pc : PAddr) : Cause := { kind := 1, vec := 8 + v, sub := 0, pc, fpc := pc, row := true, tile := tile.toNat }
        (∀ tile l r msh clr next kp pc, k.run.hold = .mm tile l r msh clr next kp pc →
            Does (exec (.interruptEntry c) s) (fun t => Entered s t c (boundary tile next) (cause tile pc)))
        ∧ (∀ m, k.run.hold = .rows m → m.next < tileRows m.tile → m.fail = none → m.cut = .none →
            Does (exec (.interruptEntry c) s) (fun t => (m.left = 0 → Entered s t c (boundary m.tile m.next) (cause m.tile m.pc))
              ∧ (m.left ≠ 0 → t = s.setCore c { k with run := { k.run with hold := .rows { m with cut := .int (8 + v) } } })))))

/-- R108 and R109: while the block is occupied a trap escalates with reason 1, and while TSBP is not valid or its block lies at or above 0x90_0000_0000 with reason 2: the frame goes to ESP, ACT sets, QUIET closes, vector 0 is entered and TSBP stays. R109 and R452: a trap of the escalation handler, and an escalation that finds ESP.V = 0, stop the core: it keeps its scalar state, RC_STAT.SPC is the pc the entry would have saved, and the device enters FAULT with cause 1 unless a cause is recorded. That SAVED = 1 gives ESCR 1 where the block is also not valid or too high is log entry 153. -/
def Obligations.EscalationAndStop : Prop :=
  (∀ (s : State) (c : CoreId) (n : BitVec 4), Ready s c [] 1 →
    let k := s.core c
    let u := k.cpu
    let e : Cause := { kind := 2, vec := 16 + n.toNat, sub := n.toNat, pc := u.pc + 1, fpc := u.pc + 1 }
    k.lsu.busy = [] → u.espAct = false → u.espV = true → k.run.stall = false →
    (u.tsSaved = true → Does (exec (.trap c n) s) (fun t => Escalated s t c k e 1))
    ∧ (u.tsSaved = false → (u.tsV = false ∨ 0x9000000000 ≤ u.tsAddr.toNat * 1024) → Does (exec (.trap c n) s) (fun t => Escalated s t c k e 2)))
  ∧ (∀ (s : State) (c : CoreId) (n : BitVec 4), Ready s c [] 1 → (s.core c).lsu.busy = [] → s.dev.st ≠ .off →
    let u := (s.core c).cpu
    (u.espAct = true ∨ (u.espV = false ∧ (u.tsSaved = true ∨ u.tsV = false ∨ 0x9000000000 ≤ u.tsAddr.toNat * 1024))) →
    Does (exec (.trap c n) s) (fun t =>
      (t.core c).run.st = .failed ∧ (t.core c).run.spc = u.pc + 1 ∧ (t.core c).cpu = { u with shadow := (t.core c).cpu.shadow }
        ∧ t.dev.st = .fault ∧ t.dev.cause = (if s.dev.cause = 0 then 1 else s.dev.cause) ∧ t.mem = s.mem))

/-- R103 (Table 4.8): reti restores from the escalation frame where ESP.ACT is set and from the task-state block otherwise, clears that one's flag and QUIET.ACT, and goes to the restored pc; the shadow follows. A read beyond stack memory or of uncorrectable data is a bus error of reti: it has no effect of its own, and its fault finds the block occupied and escalates (the fault's sub-cause, INFO and FADDR are the model's choice, log entry 155). That SAVED = 1 gives ESCR 1 where the block is also not valid or too high is log entry 153, and the fields of a failing read's fault are log entry 155. -/
def Obligations.ReturnFromException : Prop :=
  ∀ (s : State) (c : CoreId), Ready s c [] 1 →
    let k := s.core c
    let u := k.cpu
    let addr := (if u.espAct then u.espAddr else u.tsAddr).toNat * 1024
    let bs := s.localRead addr 256
    let f (o n : Nat) : Nat := blockField bs o n
    let fault (sub : Nat) : Cause := { kind := 0, vec := 3, sub, pc := u.pc, faddr := mkFAddr s.own addr, fpc := u.pc }
    u.sup = true → k.lsu.mClear = true → k.run.saving = [] →
    (k.lsu.busy = [] → u.espAct = false → u.espV = true → u.tsSaved = true → k.run.stall = false →
      (0x9000000000 ≤ addr → Does (exec (.reti c) s) (fun t => Escalated s t c k (fault 3) 1))
      ∧ (addr < 0x9000000000 → s.localBad addr 256 = true → Does (exec (.reti c) s) (fun t => Escalated (s.localSee addr 256) t c k (fault 4) 1)))
    ∧ (addr < 0x9000000000 → s.localBad addr 256 = false → Does (exec (.reti c) s) (fun t =>
      let u' := (t.core c).cpu
      u'.pc = BitVec.ofNat 14 (f 0x04 4) ∧ u'.sup = (f 0x08 4).testBit 31 ∧ u'.rso = (f 0x08 4).testBit 8 ∧ u'.ie = (f 0x08 4).testBit 0
        ∧ u'.top.toNat = f 0x0C 4 % 8 ∧ u'.depth.toNat = min (f 0x0C 4 / 16 % 16) 8
        ∧ (∀ i, i < 8 → Table.get 0 u'.rstack i = BitVec.ofNat 14 (f (0x10 + 2 * i) 2))
        ∧ u'.lc0.toNat = f 0x30 4 ∧ u'.lc1.toNat = f 0x34 4 ∧ u'.ls0 = BitVec.ofNat 14 (f 0x38 2) ∧ u'.le0 = BitVec.ofNat 14 (f 0x3A 2)
        ∧ u'.ls1 = BitVec.ofNat 14 (f 0x3C 2) ∧ u'.le1 = BitVec.ofNat 14 (f 0x3E 2)
        ∧ (∀ g : Reg, g ≠ 0 → (t.reg c g).toNat = f (0x40 + 4 * (g.toNat - 1)) 4)
        ∧ (∀ i : TileId, ((t.core c).mat.tile i).inuse = (f (0x80 + 4 * i.toNat) 4).testBit 31 ∧ ((t.core c).mat.tile i).srow = BitVec.ofNat 16 (f (0x80 + 4 * i.toNat) 4)
            ∧ ((t.core c).mat.tile i).elems = (k.mat.tile i).elems)
        ∧ (u.espAct = true → u'.espAct = false ∧ u'.tsSaved = u.tsSaved) ∧ (u.espAct = false → u'.tsSaved = false ∧ u'.espAct = false)
        ∧ u'.qAct = false ∧ u'.shadow = true ∧ u'.sds = u.sds ∧ u'.cds = u.cds ∧ u'.prog = u.prog ∧ u'.xvb = u.xvb ∧ u'.intp = u.intp ∧ u'.inte = u.inte
        ∧ (t.core c).pad = k.pad ∧ (t.core c).vec = k.vec ∧ (t.core c).que.rings = k.que.rings
        ∧ (∀ d, d ≠ c → t.core d = s.core d) ∧ { t with cores := s.cores, net := s.net } = s.localSee addr 256 ∧ (k.run.stall = false → t.net = s.net)))

/-- R99 (Table 4.8): the block that an entry writes has 256 bytes, and a reti from it restores every field that the table marks, whatever the core has done since. -/
def Obligations.BlockRoundTrip : Prop :=
  ∀ (k k' : Core) (e : Cause) (escr : Nat), k.cpu.depth.toNat ≤ 8 →
    let bs := blockBytes k e escr
    let u := k.cpu
    let r := k'.restored bs
    bs.length = 256 ∧ blockField bs 0x04 4 = e.pc.toNat ∧ blockField bs 0x20 8 = e.faddr.toNat ∧ blockField bs 0x28 4 = e.fpc.toNat
      ∧ r.cpu.sup = u.sup ∧ r.cpu.rso = u.rso ∧ r.cpu.ie = u.ie ∧ r.cpu.top = u.top ∧ r.cpu.depth = u.depth
      ∧ (∀ i, i < 8 → Table.get 0 r.cpu.rstack i = Table.get 0 u.rstack i)
      ∧ r.cpu.lc0 = u.lc0 ∧ r.cpu.lc1 = u.lc1 ∧ r.cpu.ls0 = u.ls0 ∧ r.cpu.le0 = u.le0 ∧ r.cpu.ls1 = u.ls1 ∧ r.cpu.le1 = u.le1
      ∧ (∀ g, r.cpu.reg g = u.reg g)
      ∧ (∀ i : TileId, (r.mat.tile i).inuse = (k.mat.tile i).inuse ∧ (r.mat.tile i).srow = (k.mat.tile i).srow ∧ (r.mat.tile i).elems = (k'.mat.tile i).elems)

/-- R110: a supervisor's write of QUIET with ACT = 1 opens a window of LEN + 1 cycles unless one is open or an interrupt is pending that R94 would take, and one with ACT = 0 closes it; OVR clears where a 1 is written to it; when LEFT has reached 0 hardware clears ACT and sets OVR. That an ignored write of QUIET writes LEN and clears OVR, and what LEFT reads after a close, a reti and an escalation, is log entry 154. -/
def Obligations.QuietWindow : Prop :=
  ∀ (s : State) (c : CoreId) (gs : Reg),
    let k := s.core c
    let u := k.cpu
    let v := s.reg c gs
    let blocked := (u.intp &&& u.inte ≠ 0) ∧ u.ie = true ∧ u.tsSaved = false ∧ u.espAct = false
    let w : Cpu := { u with qLen := v.setWidth 8, qOvr := u.qOvr && !v.getLsbD 30, shadow := false }
    let after (u' : Cpu) (t : State) : Prop := (t.core c).cpu = u'.advance u.pc 1 ∧ Beside k (t.core c) ∧ Apart s t c
    (Ready s c [gs] 1 → u.sup = true → v.getLsbD 31 = true →
        ((u.qAct = true ∨ blocked) → Does (exec (.quietOpen c gs) s) (after w))
        ∧ (u.qAct = false → ¬ blocked → Does (exec (.quietOpen c gs) s) (after { w with qAct := true, qLeft := BitVec.ofNat 9 ((v.toNat % 256) + 1) })))
    ∧ (Ready s c [gs] 1 → u.sup = true → v.getLsbD 31 = false → Does (exec (.quietClose c gs) s) (after { w with qAct := false, qLeft := 0 }))
    ∧ (u.qAct = true → u.qLeft = 0 → Does (exec (.quietExpiry c) s) (fun t =>
        (t.core c).cpu = { u with qAct := false, qOvr := true } ∧ t.core c = { k with cpu := (t.core c).cpu } ∧ Apart s t c))

/-! ## Memory accesses of a core (chapter 5) -/

/-- R76 and R91: the segment checks of a scalar access in their order: V, level, rights, limit, alignment (no scalar access passes through a ROW segment; an access to the core's own control region gives sub-cause 1, R15), carry beyond bit 55, no target, address class against KIND for every class of Table 10.3, disabled region, and way memory not converted (R136). The first that fails raises its fault at the instruction, with sdN as INFO and BASE + offset as FADDR. The offset is gi + d × size without wrap (R74). FADDR keeps the device field as BASE has it (log entry 12). R74, R128 and R130: a load through a MEMU segment, or a MEM segment with DC_CTL.DIS = 1, from stack memory of this device sends one read with the order flag, after every buffered store to its line, and leaves every register as it is until the response comes; a MEM load that hits the cache writes the bytes of the line, zero- or sign-extended, into g. R129, R134 and R135: one that hits the side buffer writes its bytes and moves the line into a cache way (for a software prefetch too, log entry 179); one that misses joins a fill of its line, or starts one with a 64-byte read and then the next-line prefetches of DC_CTL.PFD below the segment's end, or waits as a fifth miss; a software prefetch (g0) that misses starts a prefetch fill, a ninth is dropped. A parity error is none of these cases. Log entry 15 settles that every store older than one to the line leaves with it. -/
def Obligations.ScalarLoads : Prop :=
  (∀ (s : State) (c : CoreId) (g gi : Reg) (sd : SdId) (d : BitVec 7) (par : Bool), Ready s c [g, gi] 2 → CanEnter s c →
    let u := (s.core c).cpu
    let x : BitVec 128 := Table.get 0 u.sds sd.toNat
    ∀ f ∈ [(Instr.ldB c g gi sd d par, 1, false), (.ldBS c g gi sd d par, 1, false), (.ldH c g gi sd d par, 2, false), (.ldHS c g gi sd d par, 2, false),
           (.ldW c g gi sd d par, 4, false), (.stB c g gi sd d, 1, true), (.stH c g gi sd d, 2, true), (.stW c g gi sd d, 4, true)],
      let n := f.2.1
      let off := (s.reg c gi).toNat + d.toNat * n
      let addr := (x.extractLsb' 0 56).toNat + off
      let kind := (x.extractLsb' 56 2).toNat
      let faults (v sub : Nat) : Prop := Does (exec f.1 s) (fun t =>
        Entered s t c (s.core c) { kind := 0, vec := v, sub, pc := u.pc, info := sd.toNat, faddr := BitVec.ofNat 56 addr, fpc := u.pc })
      let c1 := x.getLsbD 63 = true
      let c2 := u.sup = true ∨ x.getLsbD 62 = true
      let c3 := if f.2.2 then x.getLsbD 61 = true else x.getLsbD 60 = true
      let c4 := off + n ≤ (x.extractLsb' 64 32).toNat
      let own := s.resolveDev (BitVec.ofNat 10 (addr / 2 ^ 46)) = s.own
      let at_ := targetOf (addr % 2 ^ 46)
      (¬ c1 → faults 4 1) ∧ (c1 → ¬ c2 → faults 4 2) ∧ (c1 → c2 → ¬ c3 → faults 4 3) ∧ (c1 → c2 → c3 → ¬ c4 → faults 4 4)
        ∧ (c1 → c2 → c3 → c4 → kind = 2 → faults 2 0)
        ∧ (c1 → c2 → c3 → c4 → kind ≠ 2 → addr % n ≠ 0 →
            let mine := kind = 3 ∧ addr < 2 ^ 56 ∧ own ∧ ∃ o, at_ = .coreCtl c.toNat o
            (mine → faults 2 1) ∧ (¬ mine → faults 2 0))
        ∧ (c1 → c2 → c3 → c4 → kind ≠ 2 → addr % n = 0 →
            (2 ^ 56 ≤ addr → faults 3 0)
            ∧ (addr < 2 ^ 56 → match at_ with
                | .nothing => faults 3 3
                | .hole m => faults 3 (if own ∧ s.coreOn m = false then 2 else 3)
                | .data _ _ _ _ | .side _ _ _ _ | .command _ => faults 3 1
                | .way m o => (kind = 3 ∨ ¬ own ∨ m ≠ c.toNat → faults 3 1)
                    ∧ (kind ≠ 3 → own → m = c.toNat → (s.core c).lsu.waymem.toNat * 0x2000 ≤ o → faults 3 3)
                | .mem _ _ => kind = 3 → faults 3 1
                | .newt _ _ | .mctl _ _ | .devCtl _ => kind ≠ 3 → faults 3 1
                | .coreCtl m _ => (kind ≠ 3 → faults 3 1) ∧ (kind = 3 → own → s.coreOn m = false → faults 3 2)
                | .clusCtl m _ => (kind ≠ 3 → faults 3 1) ∧ (kind = 3 → own → s.cluOn m = false → faults 3 2))))
  ∧ (∀ (s : State) (c : CoreId) (g gi : Reg) (sd : SdId) (d : BitVec 7), Ready s c [g, gi] 2 →
    let k := s.core c
    let x : BitVec 128 := Table.get 0 k.cpu.sds sd.toNat
    ∀ f ∈ [(Instr.ldB c g gi sd d false, 1, false), (.ldBS c g gi sd d false, 1, true), (.ldH c g gi sd d false, 2, false), (.ldHS c g gi sd d false, 2, true),
           (.ldW c g gi sd d false, 4, false)],
      let n := f.2.1
      let off := (s.reg c gi).toNat + d.toNat * n
      let addr := (x.extractLsb' 0 56).toNat + off
      let kind := (x.extractLsb' 56 2).toNat
      let fa := mkFAddr s.own (addr % 2 ^ 46)
      let same (t : State) : Prop := Advanced k.cpu (t.core c).cpu 2 ∧ Special k.cpu (t.core c).cpu ∧ (t.core c).pad = k.pad ∧ (t.core c).mat = k.mat
        ∧ (t.core c).vec = k.vec ∧ (∀ e, e ≠ c → t.core e = s.core e) ∧ { t with cores := s.cores, net := s.net, links := s.links, log := s.log, cnt := s.cnt } = s
      ∀ st sa, segCheck s c sd x false off n = .ok (.mem st sa) → s.resolveDev (BitVec.ofNat 10 (addr / 2 ^ 46)) = s.own →
        ((kind = 1 ∨ k.lsu.dis = true) → Does (exec f.1 s) (fun t => same t ∧ (∀ r, t.reg c r = s.reg c r)
            ∧ ∃ a p b w, t.net = s.net ++ a ++ [p] ++ b ∧ p.kind = .rd ∧ p.ord = true ∧ p.addr = fa ∧ sizeBytes p.size = n
              ∧ (t.core c).lsu.outs.getLast? = some (p.tid, .load w) ∧ w.reg = g ∧ w.width = n ∧ w.sext = f.2.2 ∧ w.pc = k.cpu.pc
              ∧ (∀ e ∈ (t.core c).lsu.sbuf, e.line ≠ lineOf fa)))
        ∧ (kind = 0 → k.lsu.dis = false → ∀ way line data, k.lsu.hit (lineOf fa) = some way →
            Table.look k.lsu.lines (fa.toNat / 64 % 128 * 4 + way) = some (line, data) → Does (exec f.1 s) (fun t => same t
            ∧ (∃ v : Word, RegIs s t c g v ∧
                ∀ i, i < 32 → v.getLsbD i = if i < 8 * n then data.getLsbD (8 * (addr % 64) + i) else (f.2.2 && data.getLsbD (8 * (addr % 64) + 8 * n - 1)))
            ∧ { (t.core c).lsu with lru := k.lsu.lru } = k.lsu))
        ∧ (kind = 0 → k.lsu.dis = false → k.lsu.hit (lineOf fa) = none →
            let line := lineOf fa
            let w : LoadWait := { reg := g, width := n, sext := f.2.2, addr := BitVec.ofNat 56 addr, pc := k.cpu.pc, sd }
            let regs (t : State) : Prop := ∀ r, t.reg c r = s.reg c r
            let asks (t : State) (a : List Packet) (fl : Fill) : Prop := ∃ p b, t.net = s.net ++ a ++ [p] ++ b ∧ p.kind = .rd ∧ p.ord = true ∧ sizeBytes p.size = 64
              ∧ p.addr.toNat = line.toNat * 64 ∧ p.tid = fl.tid ∧ ∀ e ∈ (t.core c).lsu.sbuf, e.line ≠ line
            let fresh (fl : Fill) : Prop := fl.line = line ∧ fl.mask = 0 ∧ fl.dropped = false
            let top := (s.resolve (x.extractLsb' 0 56).toNat).toNat + (x.extractLsb' 64 32).toNat
            let wanted (i : Nat) : Prop := 1 ≤ i ∧ i ≤ k.lsu.pfd.toNat ∧ k.lsu.hit (line + BitVec.ofNat 50 i) = none ∧ k.lsu.sideHit (line + BitVec.ofNat 50 i) = none
              ∧ k.lsu.filling (line + BitVec.ofNat 50 i) = false ∧ (line + BitVec.ofNat 50 i).toNat * 64 < top
            (∀ data, k.lsu.sideHit line = some data → Does (exec f.1 s) (fun t => same t
                ∧ (∃ v : Word, RegIs s t c g v ∧
                  ∀ i, i < 32 → v.getLsbD i = if i < 8 * n then data.getLsbD (8 * (addr % 64) + i) else (f.2.2 && data.getLsbD (8 * (addr % 64) + 8 * n - 1)))
                ∧ (∃ way, way < 4 - k.lsu.waymem.toNat ∧ Table.look (t.core c).lsu.lines (fa.toNat / 64 % 128 * 4 + way) = some (line, data))
                ∧ (∀ e, e ∈ (t.core c).lsu.side ↔ e ∈ k.lsu.side ∧ e.1 ≠ line) ∧ (t.core c).lsu.fills = k.lsu.fills ∧ (k.run.stall = false → t.net = s.net)))
            ∧ (k.lsu.sideHit line = none →
              (k.lsu.filling line = true → g ≠ 0 → Does (exec f.1 s) (fun t => same t ∧ regs t ∧ { (t.core c).lsu with fills := k.lsu.fills } = k.lsu
                ∧ (t.core c).lsu.fills = k.lsu.fills.map (fun fl =>
                    if fl.line = line ∧ fl.dropped = false then { fl with waiters := fl.waiters ++ [{ w with mask := fl.mask, seen := fl.merged }] } else fl)))
              ∧ (k.lsu.filling line = false → g ≠ 0 → k.lsu.misses < 4 → Does (exec f.1 s) (fun t => same t ∧ regs t
                ∧ ∃ a fl more, asks t a fl ∧ fresh fl ∧ fl.pref = false ∧ fl.waiters = [w] ∧ (t.core c).lsu.fills = k.lsu.fills ++ fl :: more
                  ∧ (∀ m ∈ more, m.pref = true ∧ m.soft = none ∧ m.waiters = [] ∧ ∃ i, wanted i ∧ m.line = line + BitVec.ofNat 50 i)
                  ∧ (k.lsu.prefs + k.lsu.pfd.toNat ≤ 8 → ∀ i, wanted i → ∃ m ∈ more, m.line = line + BitVec.ofNat 50 i)))
              ∧ (k.lsu.filling line = false → g ≠ 0 → 4 ≤ k.lsu.misses → Does (exec f.1 s) (fun t =>
                t.core c = { k with run := { k.run with wait := .other, held := (t.core c).run.held } } ∧ Apart s t c))
              ∧ (k.lsu.filling line = false → g = 0 → k.lsu.prefs < 8 → Does (exec f.1 s) (fun t => same t ∧ regs t
                ∧ ∃ a fl, asks t a fl ∧ fresh fl ∧ fl.pref = true ∧ fl.soft = some w ∧ fl.waiters = [] ∧ (t.core c).lsu.fills = k.lsu.fills ++ [fl]))
              ∧ (k.lsu.filling line = false → g = 0 → 8 ≤ k.lsu.prefs → Does (exec f.1 s) (fun t => same t ∧ regs t ∧ (t.core c).lsu = k.lsu)))))

/-- R130: a store through a MEM or MEMU segment merges its bytes into the youngest store-buffer entry where that covers its line and holds no CTRL store, and takes a new entry otherwise; a ninth entry makes it wait. A MEM store with DC_CTL.DIS = 0 also updates the cached line it hits, or the side-buffer copy, or is merged into the fill in flight, and changes the cache in no other way. A store through a CTRL segment, but to the core's own control region, takes an entry of its own. Memory and every register stay as they are. A store that merges with all 8 entries occupied does not wait (log entry 178). R15, R128 and R130: a store through a CTRL segment to any control region but the core's own takes a store-buffer entry of its own, whatever the youngest entry holds, with its width, and leaves the cache as it is; with all 8 entries occupied it waits. R130: the oldest entry leaves the store buffer as one write, a merged one as 64 bytes with a byte enable for each byte stored (none set where all are; the words that hold them are log entry 17), a CTRL store as one access of its own width (R15). -/
def Obligations.ScalarStores : Prop :=
  (∀ (s : State) (c : CoreId) (g gi : Reg) (sd : SdId) (d : BitVec 7), Ready s c [g, gi] 2 →
    let k := s.core c
    let x : BitVec 128 := Table.get 0 k.cpu.sds sd.toNat
    ∀ f ∈ [(Instr.stB c g gi sd d, 1), (.stH c g gi sd d, 2), (.stW c g gi sd d, 4)],
      let n := f.2
      let off := (s.reg c gi).toNat + d.toNat * n
      let addr := (x.extractLsb' 0 56).toNat + off
      let line := lineOf (mkFAddr (s.resolveDev (BitVec.ofNat 10 (addr / 2 ^ 46))) (addr % 2 ^ 46))
      let kind := (x.extractLsb' 56 2).toNat
      let merges (e : SbEntry) : Prop := k.lsu.sbuf.getLast? = some e ∧ e.line = line ∧ e.ctrl = false
      let stored (m : BitVec 64) (b : BitVec 512) (e : SbEntry) : Prop := e.line = line ∧ e.ctrl = false
        ∧ (∀ i, i < 64 → e.mask.getLsbD i = (m.getLsbD i || (decide (addr % 64 ≤ i) && decide (i < addr % 64 + n))))
        ∧ (∀ i, i < 512 → e.bytes.getLsbD i =
            if 8 * (addr % 64) ≤ i ∧ i < 8 * (addr % 64 + n) then (s.reg c g).getLsbD (i - 8 * (addr % 64)) else b.getLsbD i)
      ∀ st sa, segCheck s c sd x true off n = .ok (.mem st sa) →
        let same (t : State) : Prop := (∀ r, t.reg c r = s.reg c r) ∧ Advanced k.cpu (t.core c).cpu 2 ∧ Special k.cpu (t.core c).cpu ∧ (t.core c).pad = k.pad
          ∧ (t.core c).mat = k.mat ∧ (t.core c).vec = k.vec ∧ Apart s t c
        (∀ e, merges e → Does (exec f.1 s) (fun t => same t ∧ ∃ e', (t.core c).lsu.sbuf = k.lsu.sbuf.dropLast ++ [e'] ∧ stored e.mask e.bytes e'
            ∧ e'.pc = e.pc ∧ e'.sd = e.sd ∧ e'.addr = e.addr))
        ∧ ((∀ e, ¬ merges e) → k.lsu.sbuf.length < 8 → Does (exec f.1 s) (fun t => same t ∧ ∃ e', (t.core c).lsu.sbuf = k.lsu.sbuf ++ [e'] ∧ stored 0 0 e'
            ∧ e'.pc = k.cpu.pc ∧ e'.sd = sd ∧ e'.addr = BitVec.ofNat 56 addr))
        ∧ ((∀ e, ¬ merges e) → 8 ≤ k.lsu.sbuf.length → Does (exec f.1 s) (fun t => t.core c = { k with run := { k.run with wait := .other, held := (t.core c).run.held } } ∧ Apart s t c))
        ∧ ((∃ e, merges e) ∨ k.lsu.sbuf.length < 8 → Does (exec f.1 s) (fun t =>
            let l := (t.core c).lsu
            let plain : Prop := l.lines = k.lsu.lines ∧ l.lru = k.lsu.lru
            { l with lines := k.lsu.lines, lru := k.lsu.lru, side := k.lsu.side, fills := k.lsu.fills, sbuf := k.lsu.sbuf } = k.lsu
            ∧ (kind = 1 ∨ k.lsu.dis = true → plain ∧ l.side = k.lsu.side ∧ l.fills = k.lsu.fills)
            ∧ (kind = 0 → k.lsu.dis = false → ∃ put : BitVec 512 → BitVec 512,
                (∀ (b : BitVec 512) (i : Nat), i < 512 → (put b).getLsbD i =
                  if 8 * (addr % 64) ≤ i ∧ i < 8 * (addr % 64 + n) then (s.reg c g).getLsbD (i - 8 * (addr % 64)) else b.getLsbD i)
                ∧ (∀ way tag data, k.lsu.hit line = some way → Table.look k.lsu.lines (line.toNat % 128 * 4 + way) = some (tag, data) →
                    l.side = k.lsu.side ∧ l.fills = k.lsu.fills
                    ∧ ∀ j, Table.look l.lines j = if j = line.toNat % 128 * 4 + way then some (tag, put data) else Table.look k.lsu.lines j)
                ∧ (k.lsu.hit line = none → k.lsu.sideHit line ≠ none → plain ∧ l.fills = k.lsu.fills
                    ∧ l.side = k.lsu.side.map (fun e => if e.1 = line then (e.1, put e.2) else e))
                ∧ (k.lsu.hit line = none → k.lsu.sideHit line = none → plain ∧ l.side = k.lsu.side ∧ l.fills.length = k.lsu.fills.length
                    ∧ ∀ p ∈ k.lsu.fills.zip l.fills, if p.1.line = line ∧ p.1.dropped = false
                      then { p.2 with mask := p.1.mask, merged := p.1.merged } = p.1 ∧ p.2.merged = put p.1.merged
                        ∧ ∀ i, i < 64 → p.2.mask.getLsbD i = (p.1.mask.getLsbD i || (decide (addr % 64 ≤ i) && decide (i < addr % 64 + n)))
                      else p.2 = p.1)))))
  ∧ (∀ (s : State) (c : CoreId) (g gi : Reg) (sd : SdId) (d : BitVec 7), Ready s c [g, gi] 2 →
    let k := s.core c
    let x : BitVec 128 := Table.get 0 k.cpu.sds sd.toNat
    ∀ f ∈ [(Instr.stB c g gi sd d, 1), (.stH c g gi sd d, 2), (.stW c g gi sd d, 4)],
      let n := f.2
      let off := (s.reg c gi).toNat + d.toNat * n
      let addr := (x.extractLsb' 0 56).toNat + off
      ∀ tgt, segCheck s c sd x true off n = .ok tgt → (x.extractLsb' 56 2).toNat = 3 →
        (s.resolveDev (BitVec.ofNat 10 (addr / 2 ^ 46)) = s.own → ∀ o, tgt ≠ .coreCtl c.toNat o) →
        (k.lsu.sbuf.length < 8 → Does (exec f.1 s) (fun t => (∀ r, t.reg c r = s.reg c r) ∧ Advanced k.cpu (t.core c).cpu 2 ∧ Special k.cpu (t.core c).cpu
          ∧ (t.core c).pad = k.pad ∧ (t.core c).mat = k.mat ∧ (t.core c).vec = k.vec ∧ Apart s t c
          ∧ ∃ e, (t.core c).lsu = { k.lsu with sbuf := k.lsu.sbuf ++ [e] } ∧ e.ctrl = true ∧ e.width = n ∧ e.addr = BitVec.ofNat 56 addr ∧ e.pc = k.cpu.pc ∧ e.sd = sd
            ∧ ∀ i, i < 8 * n → e.bytes.getLsbD (8 * (addr % 64) + i) = (s.reg c g).getLsbD i))
        ∧ (8 ≤ k.lsu.sbuf.length → Does (exec f.1 s) (fun t => t.core c = { k with run := { k.run with wait := .other, held := (t.core c).run.held } } ∧ Apart s t c)))
  ∧ (∀ (s : State) (c : CoreId) (e : SbEntry) (es : List SbEntry), s.coreOn c.toNat = true → (s.core c).lsu.sbuf = e :: es →
    s.resolveDev (devOf (if e.ctrl then e.addr else BitVec.ofNat 56 (e.line.toNat * 64))) = s.own →
    let k := s.core c
    Does (exec (.storeBufferSend c) s) (fun t =>
      t.core c = { k with lsu := { k.lsu with sbuf := es, nextTid := k.lsu.nextTid + 1, outs := k.lsu.outs ++ [(k.lsu.nextTid, .store e.pc e.sd e.addr)] } }
        ∧ (∀ d, d ≠ c → t.core d = s.core d) ∧ { t with cores := s.cores, net := s.net } = s
        ∧ ∃ p, t.net = s.net ++ [p] ∧ p.kind = .wr ∧ p.tid = k.lsu.nextTid
          ∧ (e.ctrl = false → sizeBytes p.size = 64 ∧ p.addr.toNat % 2 ^ 46 = e.line.toNat * 64 % 2 ^ 46
              ∧ (∀ i, i < 512 → p.data.getLsbD i = e.bytes.getLsbD i)
              ∧ (e.mask = BitVec.allOnes 64 → p.op6 = 0 ∧ p.op7 = 0) ∧ (e.mask ≠ BitVec.allOnes 64 → p.op7 ++ p.op6 = e.mask))
          ∧ (e.ctrl = true → e.width ∈ [1, 2, 4] → sizeBytes p.size = e.width ∧ p.addr.toNat % 2 ^ 46 = e.addr.toNat % 2 ^ 46
              ∧ ∀ i, i < 8 * e.width → p.side.getLsbD i = e.bytes.getLsbD (8 * (e.addr.toNat % 64) + i))))

/-- R132 and R136 (Tables 5.8, 5.9): DC_INV drops the lines it names (device 0x3FF is this device, R229), or all, from cache and side buffer and marks their fills; DC_CTL takes DIS, PFD and WAYMEM, and each way whose role changes loses its lines and its memory content. -/
def Obligations.CacheControl : Prop :=
  ∀ (s : State) (c : CoreId) (v : DWord) (w : Word), s.coreOn c.toNat = true →
    let k := s.core c
    let first : BitVec 50 := if v.extractLsb' 46 10 = 0x3FF then s.own ++ v.extractLsb' 6 40 else v.extractLsb' 6 50
    let names (line : BitVec 50) : Prop := ∃ i, i ≤ (v.extractLsb' 58 6).toNat ∧ line = first + BitVec.ofNat 50 i
    let frame (t : State) : Prop := (∀ d, d ≠ c → t.core d = s.core d) ∧ { t with cores := s.cores, free := s.free } = s
      ∧ t.core c = { k with lsu := (t.core c).lsu } ∧ (t.core c).lsu.sbuf = k.lsu.sbuf ∧ (t.core c).lsu.outs = k.lsu.outs
    let flips (i : Nat) : Prop := 1 ≤ i ∧ ((4 - k.lsu.waymem.toNat ≤ i) ↔ ¬ (4 - w.toNat % 4 ≤ i))
    (v.getLsbD 0 = false → Does (exec (.dcInvLines c v) s) (fun t => frame t
        ∧ (∀ e, e ∈ (t.core c).lsu.lines ↔ e ∈ k.lsu.lines ∧ ¬ names e.2.1) ∧ (∀ e, e ∈ (t.core c).lsu.side ↔ e ∈ k.lsu.side ∧ ¬ names e.1)
        ∧ (∀ f ∈ (t.core c).lsu.fills, names f.line → f.dropped = true)))
    ∧ Does (exec (.dcInvAll c) s) (fun t => frame t ∧ (t.core c).lsu.lines = [] ∧ (t.core c).lsu.side = [] ∧ (∀ f ∈ (t.core c).lsu.fills, f.dropped = true))
    ∧ Does (exec (.dcCtlWrite c w) s) (fun t => frame t
        ∧ (t.core c).lsu.dis = w.getLsbD 8 ∧ (t.core c).lsu.pfd = w.extractLsb' 4 2 ∧ (t.core c).lsu.waymem = w.extractLsb' 0 2
        ∧ (∀ e, e ∈ (t.core c).lsu.lines ↔ e ∈ k.lsu.lines ∧ ¬ flips (e.1 % 4))
        ∧ (∀ e, e ∈ (t.core c).lsu.wmem ↔ e ∈ k.lsu.wmem ∧ ¬ flips (3 - e.1 / 0x2000)))

/-! ## Matrix engines (chapters 2, 6 and 7) -/

/-- R41: before the window, a NaN among the running value and the products of a step gives the canonical NaN, infinities of both signs the canonical NaN, and infinities of one sign that infinity, so that an accumulator that holds NaN keeps it; an element under a NaN scale (R30) is NaN, a product with a NaN is NaN, and so is a product of zero and infinity. -/
def Obligations.SpecialAddends : Prop :=
  (∀ (a : Word) (prods : List FVal),
    let xs := fp32.decode a.toNat :: prods
    let pos := FVal.inf false
    let neg := FVal.inf true
    (FVal.nan ∈ xs → accStep a prods = 0x7FC00000)
    ∧ (FVal.nan ∉ xs → pos ∈ xs → neg ∈ xs → accStep a prods = 0x7FC00000)
    ∧ (FVal.nan ∉ xs → pos ∈ xs → neg ∉ xs → accStep a prods = 0x7F800000)
    ∧ (FVal.nan ∉ xs → pos ∉ xs → neg ∈ xs → accStep a prods = 0xFF800000))
  ∧ fp32.decode 0x7FC00000 = .nan ∧ fp32.decode 0x7F800000 = .inf false ∧ fp32.decode 0xFF800000 = .inf true
  ∧ (∀ (x : FVal) (n : Bool), x.mul .nan = .nan ∧ FVal.nan.mul x = .nan ∧ (x.isZero = true → x.mul (.inf n) = .nan ∧ (FVal.inf n).mul x = .nan))
  ∧ (∀ (f : Nat) (r : Row) (k : Nat), 4 ≤ f → f ≤ 9 → k < 1024 → r.side.extractLsb' (8 * (k / 32)) 8 = 0xFF → rowElem f r k = .nan)

/-- R39, R40 and R42: no step error is positive: where every addend of a step is finite and the result is a non-zero finite number, the result does not exceed the exact sum of the running value and the products. All values are taken in units of 2^q, for any q at or below the exponents that occur. -/
def Obligations.StepErrorNotPositive : Prop :=
  ∀ (a : Word) (prods : List FVal) (q : Int) (neg : Bool) (m : Nat) (e : Int),
    let units : FVal → Int := fun x => match x with | .fin n k i => (if n then -1 else 1) * ((k * 2 ^ (i - q).toNat : Nat) : Int) | _ => 0
    (∀ x ∈ fp32.decode a.toNat :: prods, ∃ n k i, x = .fin n k i ∧ q ≤ i) →
    fp32.decode (accStep a prods).toNat = .fin neg m e → m ≠ 0 → q ≤ e →
    units (.fin neg m e) ≤ units (fp32.decode a.toNat) + (prods.map units).sum

/-- R145, R146 and R152: an mm that passes its checks requests pass SROW into a free stage buffer and sets BUSY; with CLR at SROW = 0 it sets INUSE and the configured shape; after the last pass SROW is 0 and the pc goes on, and otherwise the instruction holds issue; each further pass is requested when a stage buffer is free. R154 (Table 6.9): the tile shape checks of mm in table order: the first condition that holds raises vector 5 with its sub-cause and INFO, TILE at the tile and ROW 0; nothing moves and no tile state changes but what every entry does. -/
def Obligations.MatrixMultiplies : Prop :=
  (∀ (s : State) (c : CoreId) (tile : TileId) (gl gs : Reg) (clr : Bool),
    let k := s.core c
    let tl := k.mat.tile tile
    let e := k.mat.eng (engOf tile)
    let others (t : State) : Prop := (∀ x, x ≠ tile → (t.core c).mat.tile x = k.mat.tile x) ∧ (t.core c).pad = k.pad ∧ (t.core c).lsu = k.lsu ∧ (t.core c).vec = k.vec
      ∧ (∀ r, t.reg c r = s.reg c r) ∧ Special k.cpu (t.core c).cpu ∧ Apart s t c
    (Ready s c [gl, gl + 1, gs] 2 → gl.toNat % 2 = 0 → e.used < 2 →
      let l := s.reg c gl
      let r := s.reg c (gl + 1)
      let msh := s.reg c gs
      let kp := passCount l r msh
      let i := tl.srow.toNat
      let first := clr = true ∧ i = 0
      mmShape tl tile l r msh clr = none → Does (exec (.mm c tile gl gs clr) s) (fun t =>
        let k' := t.core c
        let tl' := k'.mat.tile tile
        (k'.mat.eng (engOf tile)).queue = e.queue ++ [{ tile, left := l, right := r, msh, clr := decide first, idx := i }]
          ∧ tl'.busy = true ∧ tl'.elems = tl.elems
          ∧ (first → tl'.inuse = true ∧ tl'.ms = msh.extractLsb' 0 5 ∧ tl'.ns = msh.extractLsb' 5 5)
          ∧ (¬ first → tl'.inuse = tl.inuse ∧ tl'.ms = tl.ms ∧ tl'.ns = tl.ns)
          ∧ (i + 1 = kp → tl'.srow = 0 ∧ k'.run.hold = .none ∧ Advanced k.cpu k'.cpu 2)
          ∧ (i + 1 ≠ kp → tl'.srow = tl.srow ∧ k'.run.hold = .mm tile l r msh clr (i + 1) kp k.cpu.pc ∧ k'.cpu.pc = k.cpu.pc)
          ∧ others t))
    ∧ (∀ l r msh next kp pc, k.run.hold = .mm tile l r msh clr next kp pc → s.coreOn c.toNat = true → k.run.st = .running → s.beat.frz = false → e.used < 2 →
        k.run.stopRq = false → k.run.due = none → next < 0x10000 → Does (exec (.mmPassRequest c (engOf tile)) s) (fun t =>
        let k' := t.core c
        let tl' := k'.mat.tile tile
        (k'.mat.eng (engOf tile)).queue = e.queue ++ [{ tile, left := l, right := r, msh, clr := clr && decide (next = 0), idx := next }]
          ∧ tl'.busy = true ∧ tl'.elems = tl.elems ∧ tl'.inuse = tl.inuse
          ∧ (next + 1 = kp → tl'.srow = 0 ∧ k'.run.hold = .none ∧ k'.cpu = k.cpu.advance pc 2)
          ∧ (next + 1 ≠ kp → tl'.srow.toNat = next ∧ k'.run.hold = .mm tile l r msh clr (next + 1) kp pc ∧ k'.cpu = k.cpu)
          ∧ others t)))
  ∧ (∀ (s : State) (c : CoreId) (tile : TileId) (gl gs : Reg) (clr : Bool), Ready s c [gl, gl + 1, gs] 2 → CanEnter s c → gl.toNat % 2 = 0 →
    let k := s.core c
    let tl := k.mat.tile tile
    (k.mat.eng (engOf tile)).used < 2 →
    let l := s.reg c gl
    let r := s.reg c (gl + 1)
    let msh := s.reg c gs
    let m := (msh.extractLsb' 0 5).toNat + 1
    let n := (msh.extractLsb' 5 5).toNat + 1
    let g := (msh.extractLsb' 10 16).toNat + 1
    let T (v : Word) : Prop := v.getLsbD 31 = true
    let fmt (v : Word) : Nat := (v.extractLsb' 26 4).toNat
    let row (v : Word) : Nat := (v.extractLsb' 16 10).toNat
    let istr (v : Word) : Nat := (v.extractLsb' 8 8).toNat
    let pstr (v : Word) : Nat := (v.extractLsb' 0 8).toNat
    let kp := if l.getLsbD 31 || r.getLsbD 31 then g else (g + gpr (fmt l) - 1) / gpr (fmt l)
    let last (v : Word) (d : Nat) : Nat :=
      if v.getLsbD 31 then row v + (32 * kp - 1) * istr v
      else if l.getLsbD 31 || r.getLsbD 31 then row v + (d - 1) * istr v + (kp - 1) / 8 * pstr v
      else row v + (d - 1) * istr v + (kp - 1) * pstr v
    let beyond (v : Word) (d : Nat) : Prop := (if v.getLsbD 30 then 383 else 767) < last v d ∨ (T v ∧ epr (fmt v) < 16 * pstr v + d)
    let acc := clr = false ∨ tl.srow ≠ 0
    let faults (sub : Nat) (info : Word) : Prop := Does (exec (.mm c tile gl gs clr) s) (fun t =>
      Entered s t c k { kind := 0, vec := 5, sub, pc := k.cpu.pc, info := info.toNat, fpc := k.cpu.pc, tile := tile.toNat })
    let c0 := msh.extractLsb' 26 6 ≠ 0 ∨ (if tile.toNat < 2 then 16 else 32) < m
    let fam (v : Word) := family (fmt v)
    let c3 := beyond l m
    let c4 := beyond r n
    let c5 := acc ∧ tl.inuse = false
    let c6 := acc ∧ (tl.ms.toNat + 1 ≠ m ∨ tl.ns.toNat + 1 ≠ n)
    let c7 := kp ≤ tl.srow.toNat
    (c0 → faults 0 msh)
    ∧ (¬ c0 → fam l = none → faults 1 l)
    ∧ (¬ c0 → fam l ≠ none → (fam r = none ∨ (fam l).map (·.1) ≠ (fam r).map (·.1)) → faults 1 r)
    ∧ (¬ c0 → ∀ f p, fam l = some (f, p) → fam r = some (f, p) →
        (p = false → T l → faults 2 l) ∧ (p = false → ¬ T l → T r → faults 2 r)
        ∧ ((p = true ∨ (¬ T l ∧ ¬ T r)) →
            (c3 → faults 3 l) ∧ (¬ c3 → c4 → faults 4 r) ∧ (¬ c3 → ¬ c4 → c5 → faults 5 msh) ∧ (¬ c3 → ¬ c4 → ¬ c5 → c6 → faults 6 msh)
            ∧ (¬ c3 → ¬ c4 → ¬ c5 → ¬ c6 → c7 → faults 7 msh))))

/-- R141, R144 and R155: each port delivers the rows that the requested passes' operands name one by one, in order, to the first pass that wants one; the pass at the head of an engine's stage buffers enters the array with the rows delivered before and, for the others, the rows as they are now, and a clearing pass sets its tile to +0; the pass that leaves writes into element 32m + n, for m < M and n < N, the steps of its groups in increasing K on what the element held; BUSY clears where no pass of the tile is left. The rows are read without error. R147, R149 and R154: mdrain writes the configured shape's elements, in the order m × N + n, through the store converter into ⌈M × N / EPR⌉ consecutive rows of A or P, and with REL clears INUSE; mrel clears INUSE and SROW; both wait while the tile is BUSY. mdrain of a tile not in use, a destination beyond its memory, and FMT 0xF raise vector 5 with sub-causes 8, 9 and 10. The rows of a pass reach its stage buffer one a port and cycle, PASS_BEGIN delivers the rest, and the sums are written at PASS_SUMS_WRITTEN (log entry 51); the row check of mdrain takes 512 elements a row for FMT 0xF (log entry 180). -/
def Obligations.PassesAndDrain : Prop :=
  (∀ (s : State) (c : CoreId) (eng : Engine), s.coreOn c.toNat = true → s.beat.frz = false →
    let k := s.core c
    let e := k.mat.eng eng
    let frame (t : State) : Prop := (t.core c).cpu = k.cpu ∧ (t.core c).run = k.run ∧ (t.core c).pad = k.pad ∧ (t.core c).lsu = k.lsu ∧ (t.core c).vec = k.vec ∧ (t.core c).que = k.que
      ∧ (∀ d, d ≠ c → t.core d = s.core d) ∧ { t with cores := s.cores } = s
    (∀ p ps, e.queue = p :: ps → e.tail = none → engOf p.tile = eng →
      let nar := p.left.getLsbD 31 || p.right.getLsbD 31
      let lrs := passRows p.left nar ((p.msh.extractLsb' 0 5).toNat + 1) p.idx
      let rrs := passRows p.right nar ((p.msh.extractLsb' 5 5).toNat + 1) p.idx
      (∀ r ∈ lrs, (k.row (modPad p.left) r).err = .clean) → (∀ r ∈ rrs, (k.row (modPad p.right) r).err = .clean) →
      let rows (got : List Row) (v : Word) (rs : List Nat) : List Row := got ++ (rs.drop got.length).map (k.row (modPad v))
      Does (exec (.passBegin c eng .clean) s) (fun t =>
        (t.core c).mat.eng eng = { queue := ps, array := some { pass := { p with lrows := [], rrows := [] }, lrows := rows p.lrows p.left lrs, rrows := rows p.rrows p.right rrs, left := passGroups p * stepCycles (modFmt p.left) }, tail := e.array }
          ∧ (p.clr = true → e.array = none → ∀ i, ((t.core c).mat.tile p.tile).elem i = 0)
          ∧ (p.clr = false → ∀ x, (t.core c).mat.tile x = k.mat.tile x)
          ∧ (∀ x, x ≠ p.tile → (t.core c).mat.tile x = k.mat.tile x) ∧ frame t))
    ∧ (∀ (ps qs : List Pass) (q : Pass) (right : Bool), e.queue = ps ++ q :: qs →
      let v := if right then q.right else q.left
      let d := (if right then q.msh.extractLsb' 5 5 else q.msh.extractLsb' 0 5).toNat + 1
      let got := if right then q.rrows else q.lrows
      ∀ r, (passRows v (q.left.getLsbD 31 || q.right.getLsbD 31) d q.idx)[got.length]? = some r → (∀ x ∈ ps, x.want right = none) →
        (k.row (modPad v) r).err = .clean →
        let t := s.operandCycle c eng right
        (t.core c).mat.eng eng = { e with queue := ps ++ (if right then { q with rrows := q.rrows ++ [k.row (modPad v) r] } else { q with lrows := q.lrows ++ [k.row (modPad v) r] }) :: qs }
          ∧ (∀ x, (t.core c).mat.tile x = k.mat.tile x) ∧ frame t)
    ∧ (∀ q e', ((e.tail = some q ∧ e' = { e with tail := none }) ∨ (e.tail = none ∧ e.array = some q ∧ e' = { e with array := none })) → engOf q.pass.tile = eng →
      let m := (q.pass.msh.extractLsb' 0 5).toNat + 1
      let n := (q.pass.msh.extractLsb' 5 5).toNat + 1
      let tl := k.mat.tile q.pass.tile
      let old (i : Nat) : Word := if q.pass.clr then 0 else tl.elem i
      Does (exec (.passSumsWritten c eng) s) (fun t =>
        let tl' := (t.core c).mat.tile q.pass.tile
        (t.core c).mat.eng eng = e'
          ∧ (∀ i j, i < m → j < n → tl'.elem (32 * i + j) = passElem q i j (old (32 * i + j)))
          ∧ (∀ i, (m ≤ i / 32 ∨ n ≤ i % 32) → tl'.elem i = old i)
          ∧ tl'.busy = e'.holds q.pass.tile ∧ tl'.inuse = tl.inuse ∧ tl'.srow = tl.srow ∧ tl'.ms = tl.ms ∧ tl'.ns = tl.ns
          ∧ (∀ x, x ≠ q.pass.tile → (t.core c).mat.tile x = k.mat.tile x) ∧ frame t)))
  ∧ (∀ (s : State) (c : CoreId) (tile : TileId) (gs : Reg) (cd : CdId) (rel : Bool),
    let k := s.core c
    let tl := k.mat.tile tile
    let others (t : State) : Prop := (∀ x, x ≠ tile → (t.core c).mat.tile x = k.mat.tile x) ∧ (t.core c).mat.f = k.mat.f ∧ (t.core c).mat.b = k.mat.b ∧ (t.core c).lsu = k.lsu
      ∧ (t.core c).vec = k.vec ∧ (∀ r, t.reg c r = s.reg c r) ∧ Advanced k.cpu (t.core c).cpu 2 ∧ Special k.cpu (t.core c).cpu ∧ Apart s t c
    let waits (t : State) : Prop := t.core c = { k with run := { k.run with wait := .other, held := (t.core c).run.held } } ∧ Apart s t c
    (Ready s c [] 2 →
      (tl.busy = false → Does (exec (.mrel c tile) s) (fun t =>
        (t.core c).mat.tile tile = { tl with inuse := false, srow := 0 } ∧ (t.core c).pad = k.pad ∧ others t))
      ∧ (tl.busy = true → Does (exec (.mrel c tile) s) waits))
    ∧ (Ready s c [gs] 2 →
      let dw := s.reg c gs
      let x : Word := Table.get 0 k.cpu.cds cd.toNat
      let f := (x.extractLsb' 0 4).toNat
      let pad : Pad := if dw.getLsbD 9 then .p else .a
      let row := (dw.extractLsb' 0 9).toNat
      let nr := ((tl.ms.toNat + 1) * (tl.ns.toNat + 1) + epr f - 1) / epr f
      let fits := dw.extractLsb' 10 22 = 0 ∧ row + nr ≤ (if dw.getLsbD 9 then 128 else 384)
      let faults (sub info : Nat) : Prop := Does (exec (.mdrain c tile gs cd rel) s) (fun t =>
        Entered s t c k { kind := 0, vec := 5, sub, pc := k.cpu.pc, info, fpc := k.cpu.pc, tile := tile.toNat })
      fmtReserved f = false →
      ((tl.busy = true ∨ k.passReads pad = true) → Does (exec (.mdrain c tile gs cd rel) s) waits)
      ∧ (tl.busy = false → k.passReads pad = false →
        (CanEnter s c → (tl.inuse = false → faults 8 0) ∧ (tl.inuse = true → ¬ fits → faults 9 dw.toNat) ∧ (tl.inuse = true → fits → f = 0xF → faults 10 cd.toNat))
        ∧ (tl.inuse = true → fits → f ≠ 0xF → Does (exec (.mdrain c tile gs cd rel) s) (fun t =>
            (∀ j, j < nr → (t.core c).row pad (row + j) = convertRow x ((tl.shaped.drop (j * epr f)).take (epr f)))
              ∧ (∀ m r, (m ≠ pad ∨ r < row ∨ row + nr ≤ r) → (t.core c).row m r = k.row m r)
              ∧ (t.core c).mat.tile tile = { tl with inuse := !rel } ∧ others t)))))

/-- R148, R95, R96 and R97: through a ROW segment mld and mst request their rows from SROW on, one a cycle, SROW naming the row. A row of the core's own window moves at once: of a data row mld writes elements 128r to 128r + 127 with subnormals flushed and takes the shape from row 0's tag, mst writes the row with the shape in its tag; a row of another core's window is requested by one packet, and its answer awaited. After the last row SROW is 0, a released tile of an mst is free, and the pc goes on; until then the instruction holds issue. A row that fails its check raises its fault with ROW and TILE set, INUSE set and SROW at the row; a segment of another KIND raises vector 5, sub-cause 11. -/
def Obligations.TileTransfers : Prop :=
  ∀ (s : State) (c : CoreId) (tile : TileId) (sd : SdId) (gi : Reg) (d : BitVec 5) (rel : Bool),
    let k := s.core c
    let x : BitVec 128 := Table.get 0 k.cpu.sds sd.toNat
    let tl := k.mat.tile tile
    let off := (s.reg c gi).toNat + d.toNat * 512
    let total (z : TileId) := if z.toNat < 2 then 4 else 8
    let start := tl.srow.toNat
    let word (r : Row) (i : Nat) : Word := r.data.extractLsb' (32 * i) 32
    let tagged (z : TileId) (r : Row) : Prop := r.side.extractLsb' 252 4 = 0 ∧ r.side.extractLsb' 250 2 = 2 ∧ (r.side.extractLsb' 240 5).toNat < (if z.toNat < 2 then 16 else 32)
    let own (x : BitVec 128) (off r : Nat) : Prop := s.resolveDev (BitVec.ofNat 10 ((sdBase x + off + 512 * r) / 2 ^ 46)) = s.own
    let loaded (z : TileId) (old new : Tile) (st r : Nat) (v : Row) : Prop :=
      (∀ i, i < 128 → new.elem (128 * r + i) = flush32 (word v i)) ∧ (∀ i, (i < 128 * r ∨ 128 * r + 128 ≤ i) → new.elem i = old.elem i)
        ∧ (r = 0 → st = 0 → tagged z v → new.ms = v.side.extractLsb' 240 5 ∧ new.ns = v.side.extractLsb' 245 5)
        ∧ (r = 0 → st = 0 → ¬ tagged z v → new.ms = (if z.toNat < 2 then 15 else 31) ∧ new.ns = 31)
        ∧ ((r ≠ 0 ∨ st ≠ 0) → new.ms = old.ms ∧ new.ns = old.ns)
    let stored (tl : Tile) (r : Nat) (v : Row) : Prop :=
      (∀ i, i < 128 → word v i = tl.elem (128 * r + i)) ∧ v.side.toNat = (0b10 * 2 ^ 10 + tl.ns.toNat * 2 ^ 5 + tl.ms.toNat) * 2 ^ 240
    let asks (p : Packet) (store : Bool) (a : Nat) : Prop := p.kind = (if store then .wr else .rd) ∧ sizeBytes p.size = 512 ∧ p.addr = mkFAddr s.own (a % 2 ^ 46)
    let same (z : TileId) (t : State) : Prop := (∀ i, i ≠ z → (t.core c).mat.tile i = k.mat.tile i) ∧ (t.core c).vec = k.vec ∧ (∀ r, t.reg c r = s.reg c r)
      ∧ Special k.cpu (t.core c).cpu ∧ (∀ e, e ≠ c → t.core e = s.core e)
    (Ready s c [gi] 2 → tl.busy = false → start < total tile → k.passReads .w = false → k.passReads .a = false →
      let held (store rel : Bool) (left : Nat) : Hold := .rows { store, tile, sd, desc := x, off, rel, start, next := start + 1, left, pc := k.cpu.pc }
      let goesOn (store rel : Bool) (t : State) : Prop :=
        (start + 1 = total tile → ((t.core c).mat.tile tile).srow = 0 ∧ (t.core c).run.hold = .none ∧ Advanced k.cpu (t.core c).cpu 2)
          ∧ (start + 1 ≠ total tile → ((t.core c).mat.tile tile).srow = tl.srow ∧ (t.core c).run.hold = held store rel 0 ∧ (t.core c).cpu.pc = k.cpu.pc)
      (x.extractLsb' 56 2 = 2 →
        (∀ pad q, own x off start → segCheck s c sd x false (off + 512 * start) 512 = .ok (.data c.toNat pad q 0) → (k.row pad q).err = .clean →
          Does (exec (.mld c tile sd gi d) s) (fun t =>
            loaded tile tl ((t.core c).mat.tile tile) start start (k.row pad q) ∧ ((t.core c).mat.tile tile).inuse = true
              ∧ (t.core c).pad = k.pad ∧ goesOn false false t ∧ Apart s t c ∧ same tile t))
        ∧ (∀ pad q, own x off start → segCheck s c sd x true (off + 512 * start) 512 = .ok (.data c.toNat pad q 0) →
          Does (exec (.mst c tile sd gi d rel) s) (fun t =>
            stored tl start ((t.core c).row pad q) ∧ (∀ m r, (m ≠ pad ∨ r ≠ q) → (t.core c).row m r = k.row m r)
              ∧ ((t.core c).mat.tile tile).elems = tl.elems ∧ ((t.core c).mat.tile tile).inuse = (tl.inuse && !(rel && decide (start + 1 = total tile)))
              ∧ goesOn true rel t ∧ Apart s t c ∧ same tile t))
        ∧ (∀ n pad q (store : Bool), n ≠ c.toNat → own x off start → segCheck s c sd x store (off + 512 * start) 512 = .ok (.data n pad q 0) →
          Does (exec (if store then .mst c tile sd gi d rel else .mld c tile sd gi d) s) (fun t =>
            (t.core c).run.hold = held store (store && rel) 1 ∧ (t.core c).cpu.pc = k.cpu.pc
              ∧ (t.core c).mat.tile tile = { tl with inuse := tl.inuse || !store } ∧ (t.core c).pad = k.pad
              ∧ (t.core c).lsu.outs = k.lsu.outs ++ [(k.lsu.nextTid, .row start (BitVec.ofNat 56 (sdBase x + off + 512 * start)))]
              ∧ (∃ p b, t.net = s.net ++ [p] ++ b ∧ asks p store (sdBase x + off + 512 * start) ∧ p.tid = k.lsu.nextTid ∧ (k.run.stall = false → b = [])
                  ∧ (store = true → stored tl start { data := p.data, side := p.side }))
              ∧ { t with cores := s.cores, net := s.net } = s ∧ same tile t))
        ∧ (∀ f (store : Bool), segCheck s c sd x store (off + 512 * start) 512 = .error f → CanEnter s c →
          Does (exec (if store then .mst c tile sd gi d rel else .mld c tile sd gi d) s) (fun t =>
            Entered s t c { k with mat := k.mat.setTile tile { tl with inuse := true } }
              { kind := 0, vec := f.vec, sub := f.sub, pc := k.cpu.pc, info := sd.toNat, faddr := f.faddr, fpc := k.cpu.pc, row := true, tile := tile.toNat })))
      ∧ (x.extractLsb' 56 2 ≠ 2 → CanEnter s c →
        let faults (t : State) : Prop := Entered s t c k { kind := 0, vec := 5, sub := 11, pc := k.cpu.pc, info := sd.toNat, fpc := k.cpu.pc, tile := tile.toNat }
        Does (exec (.mld c tile sd gi d) s) faults ∧ Does (exec (.mst c tile sd gi d rel) s) faults))
    ∧ (∀ m : TileMove,
      let r := m.next
      let t := (s.requestRow c m).1
      let m' := (s.requestRow c m).2.1
      let old := k.mat.tile m.tile
      let new := (t.core c).mat.tile m.tile
      (∀ f, segCheck s c m.sd m.desc m.store (m.off + 512 * r) 512 = .error f → t = s ∧ m' = { m with fail := some (r, f.vec, f.sub, f.faddr) })
      ∧ (∀ n pad q, own m.desc m.off r → segCheck s c m.sd m.desc m.store (m.off + 512 * r) 512 = .ok (.data n pad q 0) →
          same m.tile t ∧ (t.core c).cpu = k.cpu ∧ new.srow = BitVec.ofNat 16 r ∧ new.inuse = old.inuse
          ∧ (n = c.toNat → m' = { m with next := r + 1 } ∧ Apart s t c ∧ t.net = s.net
            ∧ (m.store = false → loaded m.tile old new m.start r (k.row pad q) ∧ (t.core c).pad = k.pad)
            ∧ (m.store = true → new.elems = old.elems ∧ stored old r ((t.core c).row pad q) ∧ (∀ m r, (m ≠ pad ∨ r ≠ q) → (t.core c).row m r = k.row m r)))
          ∧ (n ≠ c.toNat → m' = { m with next := r + 1, left := m.left + 1 } ∧ new.elems = old.elems ∧ (t.core c).pad = k.pad
            ∧ (t.core c).lsu.outs = k.lsu.outs ++ [(k.lsu.nextTid, .row r (BitVec.ofNat 56 (sdBase m.desc + m.off + 512 * r)))]
            ∧ ∃ p, t = { s with cores := t.cores, net := s.net ++ [p] } ∧ asks p m.store (sdBase m.desc + m.off + 512 * r)
                ∧ (m.store = true → stored old r { data := p.data, side := p.side }))))

/-! ## Vector unit (chapter 8) -/

/-- R177, R178 and R179: every lane of vd takes the operation of Table 8.2 on its lanes of va, vb and vd: exact sum, difference, product or quotient rounded once to the lane type, INT8 sums saturated at −128 and 127; NaN operands make vmax and vmin canonical NaN and comparisons false; vsel tests bits; vredsum is the fixed pairwise tree, vredmax the same tree of maxima. TY 0b11, and INT8 where Table 8.2 has a dash, are illegal opcodes with sub-cause 0. R188: the function tables' corner cases: a NaN gives the canonical NaN in every mode; mode 0 without EXT clamps below 0 to V[0] and from 128 on to V[127] + S[127], and within the table interpolates from segment ⌊t⌋; mode 1 gives +0 at t = −∞ and +∞ at t = +∞; mode 2 gives NaN below zero, and at zero and at +∞ the values of PS. -/
def Obligations.LanesAndTables : Prop :=
  (∀ (s : State) (c : CoreId) (ty : BitVec 2) (vd va vb : VReg) (tb : BitVec 3), Ready s c [] 2 →
    let k := s.core c
    let y := ty.toNat
    let L := if y = 1 then 32 else if y = 2 then 64 else 16
    let W := if y = 1 then 16 else if y = 2 then 8 else 32
    let lane (v : BitVec 512) (l : Nat) : Nat := (v.extractLsb' (W * l) W).toNat
    let a (l : Nat) := lane (k.vreg va.toNat) l
    let b (l : Nat) := lane (k.vreg vb.toNat) l
    let d (l : Nat) := lane (k.vreg vd.toNat) l
    let fa (l : Nat) := ofLane y (a l)
    let fb (l : Nat) := ofLane y (b l)
    let clamp (z : Int) : Nat := (BitVec.ofInt 8 (max (-128) (min 127 z))).toNat
    let int (x : Nat) : Int := (BitVec.ofNat 8 x).toInt
    let R (i : Instr) (p : Nat → Nat → Prop) : Prop := Does (exec i s) (fun t => VecWrote s t c (· = vd.toNat) ∧ ∀ l, l < L → p l (lane ((t.core c).vreg vd.toNat) l))
    let illegal (i : Instr) : Prop := Does (exec i s) (fun t => ∃ info, Entered s t c k { kind := 0, vec := 1, sub := 0, pc := k.cpu.pc, info, fpc := k.cpu.pc })
    let ones (p : Prop) (v : Nat) : Prop := (p → v = 2 ^ W - 1) ∧ (¬ p → v = 0)
    let tree (f : Nat → Nat → Nat) (v : Nat) : Prop := ∃ T : Nat → Nat → Nat, (∀ l, T 0 l = a l) ∧ (∀ n i, T (n + 1) i = f (T n (2 * i)) (T n (2 * i + 1)))
      ∧ v = T (if y = 1 then 5 else if y = 2 then 6 else 4) 0
    (y ≠ 3 →
      R (.vadd c ty vd va vb) (fun l v => v = if y = 2 then clamp (int (a l) + int (b l)) else toLane y (FVal.add false (fa l) (fb l)))
      ∧ R (.vsub c ty vd va vb) (fun l v => v = if y = 2 then clamp (int (a l) - int (b l)) else toLane y (FVal.add false (fa l) (fb l).neg))
      ∧ R (.vmax c ty vd va vb) (fun l v => ((fa l = .nan ∨ fb l = .nan) → v = toLane y .nan) ∧ ((fa l).lt (fb l) = true → v = toLane y (fb l)) ∧ ((fb l).lt (fa l) = true → v = toLane y (fa l)))
      ∧ R (.vmin c ty vd va vb) (fun l v => ((fa l = .nan ∨ fb l = .nan) → v = toLane y .nan) ∧ ((fa l).lt (fb l) = true → v = toLane y (fa l)) ∧ ((fb l).lt (fa l) = true → v = toLane y (fb l)))
      ∧ R (.vand c ty vd va vb) (fun l v => v = a l &&& b l) ∧ R (.vor c ty vd va vb) (fun l v => v = a l ||| b l) ∧ R (.vxor c ty vd va vb) (fun l v => v = a l ^^^ b l)
      ∧ R (.vredmax c ty vd va) (fun _ v => tree (lanePick y true) v)
      ∧ R (.vclt c ty vd va vb) (fun l v => ones ((fa l).lt (fb l) = true) v) ∧ R (.vceq c ty vd va vb) (fun l v => ones ((fa l).eq (fb l) = true) v)
      ∧ R (.vsel c ty vd va vb) (fun l v => v = if d l = 0 then b l else a l))
    ∧ (y < 2 →
      R (.vmul c ty vd va vb) (fun l v => v = toLane y ((fa l).mul (fb l)))
      ∧ R (.vfma c ty vd va vb) (fun l v => v = toLane y (FVal.add false ((fa l).mul (fb l)) (ofLane y (d l))))
      ∧ R (.vdiv c ty vd va vb) (fun l v => v = toLane y ((fa l).div (fb l)))
      ∧ R (.vfn c ty vd va tb) (fun l v => v = if y = 1 then (toBf16 (ofFp32 (k.vec.fn tb.toNat (toFp32 (fa l))))).toNat else (k.vec.fn tb.toNat (BitVec.ofNat 32 (a l))).toNat)
      ∧ R (.vredsum c ty vd va) (fun _ v => tree (fun p q => toLane y (FVal.add false (ofLane y p) (ofLane y q))) v))
    ∧ (CanEnter s c → (y = 3 → illegal (.vadd c ty vd va vb) ∧ illegal (.vsel c ty vd va vb))
        ∧ (2 ≤ y → illegal (.vmul c ty vd va vb) ∧ illegal (.vfma c ty vd va vb) ∧ illegal (.vdiv c ty vd va vb) ∧ illegal (.vfn c ty vd va tb) ∧ illegal (.vredsum c ty vd va))))
  ∧ (∀ (v : Vec) (t : Nat) (x : Word),
    let c : Word := Table.get 0 v.ftc t
    let mode := (c.extractLsb' 0 2).toNat
    let ps := c.getLsbD 3
    let inv : Word := Table.get 0x3F800000 v.ftinv t
    let w0 := mul32 (add32 x (Table.get 0 v.ftx0 t ^^^ 0x80000000)) inv
    let q0 := ofFp32 w0
    let q1 := ofFp32 (mul32 x inv)
    let V (i : Nat) : Word := Table.get 0 v.ftab (t * 256 + 2 * i)
    let S (i : Nat) : Word := Table.get 0 v.ftab (t * 256 + 2 * i + 1)
    let int (n : Nat) : FVal := .fin false n 0
    (ofFp32 x = .nan → v.fn t x = 0x7FC00000)
    ∧ (ofFp32 x ≠ .nan →
      ((mode = 0 ∨ mode = 3) → c.getLsbD 2 = false →
        (q0.lt (int 0) = true → v.fn t x = toFp32 (ofFp32 (V 0))) ∧ (q0 ≠ .nan → q0.lt (int 128) = false → v.fn t x = add32 (V 127) (S 127))
        ∧ (∀ i, i < 128 → q0.lt (int i) = false → q0.lt (int (i + 1)) = true →
            v.fn t x = fma32 (S i) (add32 w0 (toFp32 (int i) ^^^ 0x80000000)) (V i)))
      ∧ (mode = 1 → (q1 = .inf true → v.fn t x = 0) ∧ (q1 = .inf false → v.fn t x = 0x7F800000))
      ∧ (mode = 2 → ((ofFp32 x).lt (int 0) = true → v.fn t x = 0x7FC00000)
        ∧ ((ofFp32 x).isZero = true → v.fn t x = if ps then 0 else 0x7F800000) ∧ (ofFp32 x = .inf false → v.fn t x = if ps then 0x7F800000 else 0))))

/-- R182, R183, R185 and R186: vld decodes a row of the own window into the group's lanes and vst converts the group into a row, or copies bytes under FMT 0xF; vmvt and vmvf copy tile segments; vbcast, vext and vfirst move between lanes and general registers. Register numbers wrap modulo 32 and segments modulo the tile's. The wrap of register and segment numbers is log entry 53. -/
def Obligations.VectorMoves : Prop :=
  ∀ (s : State) (c : CoreId) (v : VReg) (sd : SdId) (gi gw g : Reg) (cd : CdId) (tile : TileId) (seg : BitVec 6) (nm1 : BitVec 5) (ty : BitVec 2) (l : BitVec 6),
    let k := s.core c
    let x : BitVec 128 := Table.get 0 k.cpu.sds sd.toNat
    let desc : Word := Table.get 0 k.cpu.cds cd.toNat
    let f := (desc.extractLsb' 0 4).toNat
    let w := s.reg c gw
    let nr := (w.extractLsb' 11 5).toNat + 1
    let y := if w.extractLsb' 9 2 = 3 then 0 else (w.extractLsb' 9 2).toNat
    let es := (w.extractLsb' 0 6).toNat
    let L (y : Nat) := if y = 1 then 32 else if y = 2 then 64 else 16
    let W (y : Nat) := if y = 1 then 16 else if y = 2 then 8 else 32
    let lane (y : Nat) (d : BitVec 512) (l : Nat) : Nat := (d.extractLsb' (W y * l) (W y)).toNat
    let num (i : Nat) := (v.toNat + i) % 32
    let segs := if tile.toNat < 2 then 32 else 64
    let tl := k.mat.tile tile
    let scalars (t : State) : Prop := (∀ r, t.reg c r = s.reg c r) ∧ Advanced k.cpu (t.core c).cpu 2 ∧ Special k.cpu (t.core c).cpu ∧ (t.core c).vec = k.vec ∧ (t.core c).lsu = k.lsu ∧ Apart s t c
    (Ready s c [gi, gw] 2 → fmtReserved f = false → ∀ pad row,
      s.resolveDev (BitVec.ofNat 10 ((sdBase x + (s.reg c gi).toNat) / 2 ^ 46)) = s.own →
      (segCheck s c sd x false (s.reg c gi).toNat 512 = .ok (.data c.toNat pad row 0) → (k.row pad row).err = .clean →
        Does (exec (.vld c v sd gi cd gw .clean) s) (fun t => VecWrote s t c (fun n => ∃ i, i < nr ∧ n = num i)
          ∧ ∀ i, i < nr → (f = 15 → ∀ j, j < 512 → ((t.core c).vreg (num i)).getLsbD j = (k.row pad row).data.getLsbD (512 * (es + i) + j))
            ∧ (f ≠ 15 → ∀ l, l < L y → lane y ((t.core c).vreg (num i)) l = if epr f ≤ 16 * es + i * L y + l then 0 else toLane y (rowElem f (k.row pad row) (16 * es + i * L y + l)))))
      ∧ (segCheck s c sd x true (s.reg c gi).toNat 512 = .ok (.data c.toNat pad row 0) → k.passReads pad = false →
        Does (exec (.vst c v sd gi cd gw) s) (fun t => scalars t ∧ (t.core c).mat = k.mat ∧ (∀ m r, (m ≠ pad ∨ r ≠ row) → (t.core c).row m r = k.row m r)
          ∧ (f = 15 → ((t.core c).row pad row).side.toNat = 0xF000 * 2 ^ 240
              ∧ ∀ j, j < 4096 → ((t.core c).row pad row).data.getLsbD j = (decide (512 * es ≤ j) && decide (j < 512 * (es + nr)) && (k.vreg (num (j / 512 - es))).getLsbD (j % 512)))
          ∧ (f ≠ 15 → (t.core c).row pad row = convertRow desc (List.replicate (16 * es) (FVal.fin false 0 0)
              ++ (List.range nr).flatMap (fun i => (List.range (L y)).map (fun l => ofLane y (lane y (k.vreg (num i)) l))))))))
    ∧ (Ready s c [] 2 → tl.busy = false →
      Does (exec (.vmvt c v tile seg nm1) s) (fun t => VecWrote s t c (fun n => ∃ i, i ≤ nm1.toNat ∧ n = num i)
        ∧ ∀ i l, i ≤ nm1.toNat → l < 16 → lane 0 ((t.core c).vreg (num i)) l = (tl.elem (16 * ((seg.toNat + i) % segs) + l)).toNat)
      ∧ Does (exec (.vmvf c tile seg v nm1) s) (fun t => scalars t ∧ (t.core c).pad = k.pad ∧ (∀ z, z ≠ tile → (t.core c).mat.tile z = k.mat.tile z)
        ∧ { (t.core c).mat.tile tile with elems := tl.elems } = { tl with inuse := true }
        ∧ (∀ i l, i ≤ nm1.toNat → l < 16 → ((t.core c).mat.tile tile).elem (16 * ((seg.toNat + i) % segs) + l) = flush32 (BitVec.ofNat 32 (lane 0 (k.vreg (num i)) l)))
        ∧ (∀ e, (∀ i, i ≤ nm1.toNat → e / 16 ≠ (seg.toNat + i) % segs) → ((t.core c).mat.tile tile).elem e = tl.elem e)))
    ∧ (Ready s c [g] 2 → ty ≠ 3 →
      Does (exec (.vbcast c v g ty) s) (fun t => VecWrote s t c (· = v.toNat) ∧ ∀ l, l < L ty.toNat → lane ty.toNat ((t.core c).vreg v.toNat) l = (s.reg c g).toNat % 2 ^ W ty.toNat)
      ∧ Does (exec (.vext c g v l ty) s) (fun t => Wrote s t c 2 g
          (let e := lane ty.toNat (k.vreg v.toNat) (l.toNat % L ty.toNat)
           if ty = 2 then (BitVec.ofNat 8 e).signExtend 32 else BitVec.ofNat 32 e))
      ∧ Does (exec (.vfirst c g v ty) s) (fun t => ∃ n, Wrote s t c 2 g (BitVec.ofNat 32 n) ∧ n ≤ L ty.toNat ∧ (∀ i, i < n → lane ty.toNat (k.vreg v.toNat) i = 0)
          ∧ (n < L ty.toNat → lane ty.toNat (k.vreg v.toNat) n ≠ 0)))

/-! ## Queue units (chapter 12) -/

/-- R271, R272, R275, R280 and R290 to R293: qsend and qcmb check their source rows, their entry and their landing rows in the order of R291, wait for credits and for room among the 8 rows of the send buffer, then take the credits, take and advance MSGID, and send their rows in order, row 0 with the ORD of the command and the others with ORD = 1; each row carries the operation words of Table 12.6. A row is in the send buffer until it takes its first link (log entry 55), the faults of qsend and qcmb have FADDR 0 (log entry 12), and an encoding fault is judged before the level (log entry 10). -/
def Obligations.QueueSends : Prop :=
  ∀ (s : State) (c : CoreId) (e : BitVec 5) (gs gl : Reg) (lm1 : BitVec 3) (rf : BitVec 2) (red ord : Bool), Ready s c [gs, gl] 2 →
    let k := s.core c
    let u := k.cpu
    let x : DWord := Table.get 0 k.que.sct e.toNat
    let fld (lo n : Nat) : Nat := (x.extractLsb' lo n).toNat
    let kind := fld 62 2
    let cm := x.getLsbD 61
    let dev : DevId := x.extractLsb' 51 10
    let home := s.resolveDev dev
    let lpad : Pad := if x.getLsbD 36 then .p else .a
    let src := s.reg c gs
    let mem : Option Pad := match (src.extractLsb' 10 2).toNat with | 0 => some .w | 1 => some .a | 2 => some .p | _ => none
    let row := (src.extractLsb' 0 10).toNat
    let land := (s.reg c gl).toNat % 1024
    let L := lm1.toNat + 1
    let cost := if cm = false then 0 else if kind = 0 then 2 * L - 1 else if kind = 2 then L else 0
    let check (n : Nat) (cmb : Bool) : Option Nat :=
      match mem with
      | none => some 3
      | some m =>
        if m.rows < row + n ∨ x.getLsbD 19 = false then some 3
        else if (cmb = true ↔ kind ≠ 3) ∨ (cmb = false ∧ kind ≠ 1 ∧ gl ≠ 0) then some 1
        else if (kind = 1 ∨ kind = 3) ∧ lpad.rows < fld 26 10 + land + n then some 3
        else if kind ≠ 2 ∧ home = s.own ∧ s.coreOn (fld 41 10) = false then some 2
        else none
    let loc (i : Nat) : Nat := if kind = 0 then 0x100000000000 + fld 41 10 * 0x100000 else if kind = 2 then 0x200008010000 + fld 41 10 * 0x200000
      else 0x100000000000 + fld 41 10 * 0x100000 + lpad.base + (fld 26 10 + land + i) * 512
    let word (i : Nat) : Nat := fld 12 7 * 2 ^ 25 + i * 2 ^ 22 + lm1.toNat * 2 ^ 19 + bnat cm * 2 ^ 18 + e.toNat * 2 ^ 13
      + (if kind = 0 then fld 37 4 * 2 ^ 9 else 0) + kind * 2 ^ 6 + (if kind = 1 then fld 20 6 else 0)
    let pkt (m : Pad) (kd : PKind) (i : Nat) : Packet := { kind := kd, sb := true, tid := k.lsu.nextTid + BitVec.ofNat 12 i, dst := (targetOf (loc i)).dest.1, dport := (targetOf (loc i)).dest.2, ddev := home, src := BitVec.ofNat 11 c.toNat, sport := 1, sdev := s.own, addr := mkFAddr home (loc i), side := (k.row m (row + i)).side, data := (k.row m (row + i)).data }
    let busError (sub : Nat) (t : State) : Prop := Entered s t c k { kind := 0, vec := 3, sub, pc := u.pc, info := e.toNat, fpc := u.pc }
    let illegal (sub : Nat) (t : State) : Prop := ∃ info, Entered s t c k { kind := 0, vec := 1, sub, pc := u.pc, info, fpc := u.pc }
    let scalars (t : State) : Prop := (∀ r, t.reg c r = s.reg c r) ∧ Advanced u (t.core c).cpu 2 ∧ Special u (t.core c).cpu ∧ (t.core c).pad = k.pad ∧ (t.core c).mat = k.mat ∧ (t.core c).vec = k.vec
      ∧ { (t.core c).que with sct := k.que.sct, qswc := k.que.qswc, stalled := k.que.stalled } = k.que
    let unsent (p : Packet) : Bool := (decide (p.kind = .msg) || decide (p.kind = .cmb)) && decide (p.src.toNat = c.toNat) && decide (p.sport = 1) && decide (p.sdev = s.own) && decide (p.hop = 0)
    let room (n : Nat) : Prop := (s.net.filter unsent).length + n ≤ 8
    let waits (i : Instr) : Prop := Does (exec i s) (fun t => (t.core c).run.wait = .send e ∧ (t.core c).cpu = u ∧ Beside k (t.core c) ∧ Apart s t c)
    let out (n : Nat) : List (BitVec 12 × OutOp) := (List.range n).map (fun i => (k.lsu.nextTid + BitVec.ofNat 12 i, OutOp.msg e))
    (∀ sub, check L false = some sub → CanEnter s c → Does (exec (.qsend c e gs gl lm1 ord) s) (busError sub))
    ∧ (check L false = none → (fld 0 12 < cost ∨ ¬ room L) → waits (.qsend c e gs gl lm1 ord))
    ∧ (check L false = none → cost ≤ fld 0 12 → room L → ∀ m, mem = some m → (∀ i, i < L → (k.row m (row + i)).err = .clean) →
        Does (exec (.qsend c e gs gl lm1 ord) s) (fun t =>
          Sent s t c ((List.range L).map (fun i => { pkt m .msg i with ord := ord || decide (i ≠ 0), op6 := BitVec.ofNat 32 (word i) }))
          ∧ scalars t ∧ (t.core c).lsu = { k.lsu with nextTid := k.lsu.nextTid + BitVec.ofNat 12 L, outs := k.lsu.outs ++ out L }
          ∧ (∀ n, n ≠ e.toNat → Table.get 0 (t.core c).que.sct n = Table.get 0 k.que.sct n)
          ∧ (let y : DWord := Table.get 0 (t.core c).que.sct e.toNat
             (y.extractLsb' 0 12).toNat = fld 0 12 - cost ∧ y.extractLsb' 12 7 = x.extractLsb' 12 7 + 1 ∧ y.extractLsb' 19 45 = x.extractLsb' 19 45)))
    ∧ (rf ≠ 3 → (red && ord) = false → (∀ sub, check 1 true = some sub → CanEnter s c → Does (exec (.qcmb c e gs gl rf red ord) s) (busError sub))
      ∧ (check 1 true = none → ¬ room 1 → waits (.qcmb c e gs gl rf red ord))
      ∧ (check 1 true = none → room 1 → ∀ m, mem = some m → (k.row m row).err = .clean →
        Does (exec (.qcmb c e gs gl rf red ord) s) (fun t =>
          Sent s t c [{ pkt m .cmb 0 with ord, red, rfmt := rf, cnt := 1, op6 := BitVec.ofNat 32 (fld 37 3) }] ∧ scalars t
          ∧ (t.core c).lsu = { k.lsu with nextTid := k.lsu.nextTid + 1, outs := k.lsu.outs ++ if red then [] else out 1 } ∧ (t.core c).que.sct = k.que.sct)))
    ∧ (CanEnter s c → (rf = 3 → Does (exec (.qcmb c e gs gl rf red ord) s) (illegal 0)) ∧ (rf ≠ 3 → red = true → ord = true → Does (exec (.qcmb c e gs gl rf red ord) s) (illegal 1)))

/-- R294, R278 and R297: qstat writes RSTAT, with NPUB the complete messages before the first incomplete one, or 0 for a disabled ring; qpop releases a published head message, returns its rows as credits and writes them into gd, and otherwise writes 0 and changes nothing; qcred writes CRED; qarm sets EXP and clears CNT, DONE and OVF. A waiting send whose QSWC has reached 2^LOG2N sets EVT and INTP.SSD once, counted and logged. -/
def Obligations.QueueCommands : Prop :=
  ∀ (s : State) (c : CoreId) (g : Reg),
    let k := s.core c
    let whole (m : MsgRec) : Bool := decide (m.landed.toNat = 2 ^ m.len - 1)
    (∀ r : BitVec 4, Ready s c [g] 2 →
      let cfg : Word := Table.get 0 k.que.rcfg r.toNat
      let ring := Table.get {} k.que.rings r.toNat
      let npub := (ring.recs.takeWhile whole).length
      let head (f : MsgRec → Nat) : Nat := if npub = 0 then 0 else (ring.recs.head?.map f).getD 0
      Does (exec (.qstat c g r) s) (fun t => Wrote s t c 2 g
          (if cfg.getLsbD 31 then BitVec.ofNat 32 (bnat ring.cv * 2 ^ 31 + head (·.start) * 2 ^ 21 + npub * 2 ^ 12 + head (·.len)) else 0))
      ∧ ((cfg.getLsbD 31 = false ∨ npub = 0) → Does (exec (.qpop c g r) s) (fun t => Wrote s t c 2 g 0))
      ∧ (∀ m ms, cfg.getLsbD 31 = true → ring.recs = m :: ms → whole m = true →
          Does (exec (.qpop c g r) s) (fun t =>
            RegIs s t c g (BitVec.ofNat 32 (m.len + m.waste)) ∧ Advanced k.cpu (t.core c).cpu 2 ∧ Special k.cpu (t.core c).cpu
            ∧ (t.core c).pad = k.pad ∧ (t.core c).lsu = k.lsu ∧ (t.core c).mat = k.mat ∧ (t.core c).vec = k.vec
            ∧ { (t.core c).que with rings := k.que.rings, qswc := k.que.qswc, stalled := k.que.stalled } = k.que
            ∧ (∀ n, Table.get {} (t.core c).que.rings n = if n = r.toNat then { ring with recs := ms, occ := ring.occ - (m.len + m.waste) } else Table.get {} k.que.rings n)
            ∧ Sent s t c (if m.cm && decide (0 < m.len + m.waste) then [{ kind := .crd, src := BitVec.ofNat 11 c.toNat, sport := 1, sdev := s.own, dst := m.key.node, dport := 1, ddev := m.key.dev, op6 := m.key.entry.setWidth 32, op7 := BitVec.ofNat 32 (m.len + m.waste) }] else []))))
    ∧ (∀ e : BitVec 5, Ready s c [g] 2 →
      Does (exec (.qcred c g e) s) (fun t => Wrote s t c 2 g (((Table.get 0 k.que.sct e.toNat : DWord).extractLsb' 0 12).setWidth 32)))
    ∧ (∀ q : BitVec 3, Ready s c [g] 2 →
      Does (exec (.qarm c q g) s) (fun t =>
        (∀ n, Table.get 0 (t.core c).que.cqexp n = if n = q.toNat then (s.reg c g).setWidth 24 else Table.get 0 k.que.cqexp n)
        ∧ (∀ n, Table.get {} (t.core c).que.cqstat n = if n = q.toNat then {} else Table.get {} k.que.cqstat n)
        ∧ (∀ r, t.reg c r = s.reg c r) ∧ Advanced k.cpu (t.core c).cpu 2 ∧ Special k.cpu (t.core c).cpu ∧ Apart s t c
        ∧ Beside k { t.core c with que := { (t.core c).que with cqexp := k.que.cqexp, cqstat := k.que.cqstat } }))
    ∧ (∀ e, k.run.wait = .send e → s.coreOn c.toNat = true → k.que.ssdEn = true → k.que.stalled = false → 2 ^ k.que.ssdLog.toNat ≤ k.que.qswc.toNat →
      Does (exec (.sendStallEvent c) s) (fun t =>
        t.core c = { k with que := { k.que with ssdEvt := true, stalled := true }, cpu := { k.cpu with intp := k.cpu.intp ||| 4 } }
        ∧ (∀ d, d ≠ c → t.core d = s.core d) ∧ Table.get 0 t.cnt 0x404003 = (Table.get 0 s.cnt 0x404003 + 1) % 2 ^ 64
        ∧ (∃ fields, t.log = (s.logEv 0x0704 false fields).log) ∧ { t with cores := s.cores, cnt := s.cnt, log := s.log } = s
        ∧ exec (.sendStallEvent c) t = .next t))

/-- R276 to R285: row 0 of a message is discarded with an ERR of status 0x1 where its ring is disabled, its landing rows leave A or P memory or its KIND is neither RING nor DIRECT; it waits at the head of the ingress buffer where its ring has no room or no record is free, with a credit violation on a credited ring; otherwise it is allocated: a RING message is never split, a wrap writes a marker row, and a credited ring returns L − 1 − waste credits at once. -/
def Obligations.RingAllocation : Prop :=
  ∀ (s : State) (n : Nat) (p : Packet), Arrives s n p → p.kind = .msg → p.dst.toNat < 1024 → p.psn = false → (p.op6.extractLsb' 22 3).toNat = 0 →
    ∀ (c core : CoreId) (pad : Pad) (at_ off : Nat), c = BitVec.ofNat 10 p.dst.toNat → targetOf (p.addr.toNat % 2 ^ 46) = .data core.toNat pad at_ off →
    let k := s.core c
    let q := k.que
    q.ingress = [] →
    let kind := (p.op6.extractLsb' 6 3).toNat
    let L := (p.op6.extractLsb' 19 3).toNat + 1
    let cm := p.op6.getLsbD 18
    let r := (p.op6.extractLsb' 9 4).toNat
    let cfg : Word := Table.get 0 q.rcfg r
    let ring := Table.get {} q.rings r
    let size := (cfg.extractLsb' 0 9).toNat
    let base := (cfg.extractLsb' 16 10).toNat
    let rpad : Pad := if cfg.getLsbD 26 then .p else .a
    let waste := if L ≤ size - ring.w then 0 else size - ring.w
    let start := if waste = 0 then ring.w else 0
    let done (m : MsgRec) : Bool := decide (m.landed.toNat = 2 ^ m.len - 1)
    let all := q.rings.flatMap (fun e => e.2.recs)
    let records := all.length + q.direct.length
    let partial_ := (all.filter (fun m => !done m)).length + q.direct.length
    let key : MsgKey := { dev := p.sdev, node := p.src, port := p.sport, entry := p.op6.extractLsb' 13 5, msgid := p.op6.extractLsb' 25 7 }
    let answer (kd : PKind) (st : BitVec 4) : Packet := { kind := kd, size := p.size, tid := p.tid, dst := p.src, dport := p.sport, ddev := p.sdev, src := p.dst, sport := p.dport, sdev := s.own, addr := p.addr, status := st }
    let crd : Packet := { kind := .crd, src := BitVec.ofNat 11 c.toNat, sport := 1, sdev := s.own, dst := p.src, dport := 1, ddev := p.sdev, op6 := key.entry.setWidth 32, op7 := BitVec.ofNat 32 (L - 1 - waste) }
    let bad := (kind = 0 ∧ cfg.getLsbD 31 = false) ∨ (kind = 1 ∧ (pad = .w ∨ pad.rows < at_ + L)) ∨ 2 ≤ kind
    let full := kind = 0 ∧ size < ring.occ + L + waste
    let tight := 256 ≤ records ∨ 16 ≤ partial_
    let waits (v : Bool) (t : State) : Prop := (t.core c).que.ingress = [p] ∧ { t.core c with que := { (t.core c).que with ingress := [], rings := q.rings } } = k
      ∧ (∀ i, Table.get {} (t.core c).que.rings i = if i = r ∧ v then { ring with cv := true } else Table.get {} q.rings i) ∧ (∀ d, d ≠ c → t.core d = s.core d)
    let landed (old : Row) : Row := { data := p.data, side := if p.sb then p.side else old.side }
    let one (m : MsgRec) : MsgRec := { m with landed := 1 }
    let m0 : MsgRec := { key, start, len := L, waste, landed := 0, cm, lsem := 0x3F }
    let sem : Packet := { kind := .sem, dst := BitVec.ofNat 11 (nwOf (clusterOf c.toNat)), dport := 3, ddev := s.own, src := BitVec.ofNat 11 c.toNat, sport := 1, sdev := s.own, addr := mkFAddr s.own (semAddr c.toNat (p.op6.extractLsb' 0 6).toNat), op6 := BitVec.ofNat 32 (kOf c.toNat * 2 ^ 24 + (p.op6.extractLsb' 0 6).toNat * 2 ^ 18), op7 := 1 }
    let held := (s.sans n).modCore c (fun k => { k with que := { k.que with ingress := [p] } })
    (bad → Does (exec (.messageRow n false) s) (fun t => ∃ fields, t = (((s.sans n).count 0x4040 1).logEv 0x0701 true fields).inject (answer .err 1)))
    ∧ (¬ bad → full → Does (exec (.messageRow n false) s) (fun t => waits (cfg.getLsbD 30) t ∧ { t with cores := s.cores, cnt := s.cnt, log := s.log } = s.sans n))
    ∧ (¬ bad → ¬ full → tight → Does (exec (.messageRow n false) s) (fun t => waits false t ∧ { t with cores := s.cores } = s.sans n))
    ∧ (¬ bad → ¬ full → ¬ tight → kind = 0 → (∀ m ∈ ring.recs, m.key = key → done m = true) →
        Does (exec (.messageRow n false) s) (fun t =>
          Answered (s.sans n) t c ((if cm && decide (0 < L - 1 - waste) then [crd] else []) ++ [answer .wack 0])
          ∧ Table.get {} (t.core c).que.rings r = { ring with w := (start + L) % size, occ := ring.occ + L + waste, recs := ring.recs ++ [one m0] }
          ∧ (∀ i, i ≠ r → Table.get {} (t.core c).que.rings i = Table.get {} q.rings i)
          ∧ (t.core c).row rpad (base + start) = landed (if waste ≠ 0 ∧ start = ring.w then { data := 0, side := BitVec.ofNat 256 (0xF001 * 2 ^ 240) } else k.row rpad (base + start))
          ∧ (waste ≠ 0 → start ≠ ring.w → (t.core c).row rpad (base + ring.w) = { data := 0, side := BitVec.ofNat 256 (0xF001 * 2 ^ 240) })
          ∧ (∀ m i, ¬ (m = rpad ∧ (i = base + start ∨ (waste ≠ 0 ∧ i = base + ring.w))) → (t.core c).row m i = k.row m i)
          ∧ { t.core c with pad := k.pad, que := { (t.core c).que with rings := q.rings } } = k))
    ∧ (¬ bad → ¬ tight → kind = 1 → (∀ m ∈ q.direct, m.key ≠ key) →
        Does (exec (.messageRow n false) s) (fun t =>
          Answered (s.sans n) t c (answer .wack 0 :: if L = 1 ∧ p.op6.extractLsb' 0 6 ≠ 0x3F then [sem] else [])
          ∧ (t.core c).que = { q with direct := q.direct ++ if L = 1 then [] else [one { key, start := 0, len := L, waste := 0, landed := 0, cm := false, lsem := p.op6.extractLsb' 0 6 }] }
          ∧ (t.core c).row pad at_ = landed (k.row pad at_) ∧ (∀ m i, ¬ (m = pad ∧ i = at_) → (t.core c).row m i = k.row m i)
          ∧ { t.core c with pad := k.pad, que := q } = k))
    ∧ (¬ bad → ¬ full → ¬ tight → Does (exec (.row0Allocate c) held) (fun t => exec (.messageRow n false) s = .next t))

/-- R276, R278, R285 and R284: a later row of an accepted message lands at its place, whatever order the rows come in, and is answered with WACK; the last row of a DIRECT message frees its record and adds 1 to LSEM; a row that no record awaits is discarded, counted and logged, with an ERR of status 0x1. R287, R288, R289 and R280: a contribution for an enabled queue and a row of its range is added into the row, a poisoned one fills it with NaN; CNT grows by its CNT and saturates; reaching EXP ≠ 0 sets DONE and adds 1 to SEM; one after DONE sets OVF, logged once; one that no queue takes is discarded. A credit return raises CRED of its entry, saturating at 4,095. -/
def Obligations.LandingRows : Prop :=
  (∀ (s : State) (n : Nat) (p : Packet) (c core : CoreId) (pad : Pad) (at_ off : Nat), Arrives s n p → p.kind = .msg → p.dst.toNat < 1024 → c = BitVec.ofNat 10 p.dst.toNat →
    p.psn = false → targetOf (p.addr.toNat % 2 ^ 46) = .data core.toNat pad at_ off → (s.core c).que.ingress = [] →
    let k := s.core c
    let q := k.que
    let i := (p.op6.extractLsb' 22 3).toNat
    let kind := (p.op6.extractLsb' 6 3).toNat
    let r := (p.op6.extractLsb' 9 4).toNat
    let cfg : Word := Table.get 0 q.rcfg r
    let ring := Table.get {} q.rings r
    let rpad : Pad := if cfg.getLsbD 26 then .p else .a
    let done (m : MsgRec) : Bool := decide (m.landed.toNat = 2 ^ m.len - 1)
    let key : MsgKey := { dev := p.sdev, node := p.src, port := p.sport, entry := p.op6.extractLsb' 13 5, msgid := p.op6.extractLsb' 25 7 }
    let awaits (m : MsgRec) : Prop := m.key = key ∧ done m = false ∧ i < m.len ∧ m.landed.getLsbD i = false
    let answer (kd : PKind) (st : BitVec 4) : Packet := { kind := kd, size := p.size, tid := p.tid, dst := p.src, dport := p.sport, ddev := p.sdev, src := p.dst, sport := p.dport, sdev := s.own, addr := p.addr, status := st }
    let landed (old : Row) : Row := { data := p.data, side := if p.sb then p.side else old.side }
    let put (m : MsgRec) : MsgRec := { m with landed := m.landed ||| BitVec.ofNat 8 (2 ^ i) }
    i ≠ 0 →
    (∀ a m b, kind = 0 → ring.recs = a ++ m :: b → (∀ x ∈ a, ¬ awaits x) → awaits m →
        Does (exec (.messageRow n false) s) (fun t =>
          Answered (s.sans n) t c [answer .wack 0] ∧ Table.get {} (t.core c).que.rings r = { ring with recs := a ++ put m :: b }
          ∧ (∀ j, j ≠ r → Table.get {} (t.core c).que.rings j = Table.get {} q.rings j)
          ∧ (∀ x j, (t.core c).row x j = if x = rpad ∧ j = (cfg.extractLsb' 16 10).toNat + m.start + i then landed (k.row x j) else k.row x j)
          ∧ { t.core c with pad := k.pad, que := { (t.core c).que with rings := q.rings } } = k))
    ∧ (∀ a m b, kind = 1 → q.direct = a ++ m :: b → (∀ x ∈ a, ¬ awaits x) → awaits m →
        Does (exec (.messageRow n false) s) (fun t =>
          (t.core c).que.direct = (if done (put m) then (a ++ b).filter (fun x => x ≠ put m) else a ++ put m :: b)
          ∧ Answered (s.sans n) t c (answer .wack 0 :: if done (put m) ∧ m.lsem ≠ 0x3F then [semPkt s (BitVec.ofNat 11 c.toNat) 1 0 s.own c.toNat m.lsem.toNat 0 0 1 false] else [])
          ∧ (∀ x j, (t.core c).row x j = if x = pad ∧ j = at_ then landed (k.row x j) else k.row x j)
          ∧ { t.core c with pad := k.pad, que := { (t.core c).que with direct := q.direct } } = k))
    ∧ ((kind = 0 → ∀ m ∈ ring.recs, ¬ awaits m) → (kind = 1 → ∀ m ∈ q.direct, ¬ awaits m) →
        Does (exec (.messageRow n false) s) (fun t => ∃ fields, t = (((s.sans n).count 0x4040 1).logEv 0x0701 true fields).inject (answer .err 1))))
  ∧ (∀ (s : State) (n : Nat) (p : Packet) (c core : CoreId) (pad : Pad) (r off : Nat), Arrives s n p → p.dst.toNat < 1024 → c = BitVec.ofNat 10 p.dst.toNat →
    let k := s.core c
    let q := k.que
    let i := (p.op6.extractLsb' 0 3).toNat
    let cfg : Word := Table.get 0x3F q.cqcfg i
    let st := Table.get {} q.cqstat i
    let exp := (Table.get 0 q.cqexp i : BitVec 24).toNat
    let cnt := min (st.cnt.toNat + p.cnt.toNat) 0xFFFFFF
    let base := (cfg.extractLsb' 17 10).toNat
    let takes := cfg.getLsbD 31 = true ∧ pad = (if cfg.getLsbD 27 then .p else .a) ∧ base ≤ r ∧ r < base + (cfg.extractLsb' 8 9).toNat
    let now := st.done = false ∧ exp ≠ 0 ∧ exp ≤ cnt
    let exceeds := st.done = true ∧ st.ovf = false
    let answer (kd : PKind) (st : BitVec 4) : List Packet := if p.red then [] else [{ kind := kd, size := p.size, tid := p.tid, dst := p.src, dport := p.sport, ddev := p.sdev, src := p.dst, sport := p.dport, sdev := s.own, addr := p.addr, status := st }]
    let sem := (cfg.extractLsb' 0 6).toNat
    let add : List Packet := if sem = 0x3F then [] else [semPkt s (BitVec.ofNat 11 c.toNat) 1 0 s.own c.toNat sem 0 0 1 false]
    (p.kind = .cmb → targetOf (p.addr.toNat % 2 ^ 46) = .data core.toNat pad r off → (p.psn = false ∨ p.red = true) → q.ingress = [] →
      (takes → (k.row pad r).err = .clean → Does (exec (.combiningContribution n false .clean) s) (fun t =>
        (∀ x j, (t.core c).row x j = if x = pad ∧ j = r then { data := if p.psn then poisonRow p.rfmt.toNat else addRows p.rfmt.toNat (k.row x j).data p.data, side := if p.sb then p.side else (k.row x j).side } else k.row x j)
        ∧ (∀ j, Table.get {} (t.core c).que.cqstat j = if j = i then { done := st.done || decide (exp ≠ 0 ∧ exp ≤ cnt), ovf := st.ovf || st.done, cnt := BitVec.ofNat 24 cnt } else Table.get {} q.cqstat j)
        ∧ { t.core c with pad := k.pad, que := { (t.core c).que with cqstat := q.cqstat } } = k ∧ (∀ d, d ≠ c → t.core d = s.core d)
        ∧ (¬ exceeds → Answered (s.sans n) t c ((if now then add else []) ++ answer .wack 0))
        ∧ (exceeds → ∃ fields, { t with cores := s.cores } = ((((s.sans n).count 0x4040 4).logEv 0x0703 true fields).injectAll (answer .wack 0)))))
      ∧ (¬ takes → Does (exec (.combiningContribution n false .clean) s) (fun t => ∃ fields, t = (((s.sans n).count 0x4040 1).logEv 0x0701 true fields).injectAll (answer .err 1))))
    ∧ (p.kind = .crd → Does (exec (.creditReturn n false) s) (fun t =>
        Answered (s.sans n) t c [] ∧ { t.core c with que := { (t.core c).que with sct := q.sct } } = k
        ∧ ∀ e, (Table.get 0 (t.core c).que.sct e : DWord) = if e = (p.op6.extractLsb' 0 5).toNat then
            (Table.get 0 q.sct e).extractLsb' 12 52 ++ BitVec.ofNat 12 (min 4095 (((Table.get 0 q.sct e : DWord).extractLsb' 0 12).toNat + p.op7.toNat)) else Table.get 0 q.sct e)))

/-! ## Fabric, memory and their answers (chapters 10 and 11) -/

/-- R247, R250, R251, R252 and R265: a packet between two cores takes its source's row ring to the destination's column and then that column's ring, link after link, on each in the direction of increasing position where (q - p) mod 34 is at most 17; between a core and a unit of its own rim it takes the row ring where r + c + u + a[9] is even and the column ring otherwise, to a unit of the other rim always the row ring, and the answer takes the mirror; between units of two rims it takes row ring a[13:9] ^ u_src ^ u_dst; RT lies between 18 cc and 84 cc in mesochronous mode and between 18 cc and 102 cc in asynchronous mode for every core and every stack. -/
def Obligations.Routes : Prop :=
  ∀ (r c r' c' u v : Nat) (east : Bool) (a : FAddr), r < 32 → c < 32 → r' < 32 → c' < 32 → u < 9 → v < 9 →
    let dist (p q : Nat) : Nat := min ((q + 34 - p) % 34) ((p + 34 - q) % 34)
    let pos (x : Nat) : Nat := if x % 2 = 0 then 1 + x / 2 else 18 + (31 - x) / 2
    let along (ls : List RingLink) (col : Bool) (ring p q : Nat) : Prop := ls.length = dist p q
      ∧ ∀ i l, ls[i]? = some l → l.col = col ∧ l.ring = ring ∧ (l.up = true ↔ (q + 34 - p) % 34 ≤ 17) ∧ l.pos = (if l.up then (p + i) % 34 else (p + 34 - i) % 34)
    let edge (east : Bool) : Nat := if east then 17 else 0
    let own : Prop := east = decide (16 ≤ c)
    let odd : Prop := (r + c + u + (if a.getLsbD 9 then 1 else 0)) % 2 = 1
    (∃ x y, pathOf a (.core r c) (.core r' c') = x ++ y ∧ along x false r (pos c) (pos c') ∧ along y true c' (pos r) (pos r'))
    ∧ (own → odd → along (pathOf a (.core r c) (.unit east u)) true c (pos r) (if r < 16 then 0 else 17))
    ∧ (¬ own ∨ ¬ odd → along (pathOf a (.core r c) (.unit east u)) false r (pos c) (edge east))
    ∧ pathOf a (.unit east u) (.core r c) = ((pathOf a (.core r c) (.unit east u)).map RingLink.back).reverse
    ∧ pathOf a (.unit east u) (.unit east v) = []
    ∧ along (pathOf a (.unit east u) (.unit (!east) v)) false ((a.toNat / 512 % 32 ^^^ u ^^^ v) % 32) (edge east) (edge (!east))
    ∧ (u < 4 → 18 ≤ roundTrip false a (.core r c) (.unit east u) ∧ roundTrip false a (.core r c) (.unit east u) ≤ 84
      ∧ 18 ≤ roundTrip true a (.core r c) (.unit east u) ∧ roundTrip true a (.core r c) (.unit east u) ≤ 102)

/-- R259, R256, R258 and R117: a packet does not arrive while an earlier one must arrive first (one of its virtual channel and path, or, where it carries ORD = 1, any but a reduce-flagged contribution, a credit return or a control signal), nor, with ORD = 1, while the answer to an earlier request of its source to its destination on another virtual channel is on its way, nor while every buffer for its virtual channel behind a link of its way is held, nor while it is for another device, nor, as a row, while its core's ingress buffer holds four rows: no command that delivers it changes anything. R267 and R268: a VC0 flit with an uncorrectable error is discarded without an answer and moves the device to FAULT with cause 3; a poisoned RD of stack memory is not performed but answered with status 0x3, counted and logged; a packet for a unit of a disabled region is answered with status 0x2, and a contribution or a credit return is discarded, counted, the contribution logged besides. R261, R262 and R257: of two reduce-flagged contributions of equal destination, address, format, side-band flag and operation words, one that holds a router buffer and one that can come to that router bound for the same output merge in the former's place: CNT and PSN add up, its side band stays, elements add (FP32, BF16 or modulo 2^32), one merge is counted, and it may leave 2 cc after the other's last flit; unlike ones, one that stands in a core's injection queue, and one bound for another output do not merge. A packet that injects or turns and has waited 64 cc takes its next link under the two-buffer rule, counted as one grant; one that has waited less, or travels, or finds fewer than two buffers free, does not. -/
def Obligations.FabricDelivery : Prop :=
  (∀ (s : State) (i j : Nat) (q p : Packet) (flt : Bool) (ecc : Ecc), s.net[j]? = some p →
    let path := q.src = p.src ∧ q.sport = p.sport ∧ q.sdev = p.sdev ∧ q.dst = p.dst ∧ q.dport = p.dport ∧ q.ddev = p.ddev
    let behind := s.net[i]? = some q ∧ i < j ∧ path ∧ ((q.vc = p.vc ∧ q.route = p.route ∧ q.out = none ∧ p.out = none)
      ∨ (p.ord = true ∧ ¬ (q.kind = .cmb ∧ q.red = true) ∧ q.kind ≠ .crd ∧ q.kind ≠ .ctl))
    let awaited := s.net[i]? = some q ∧ i < j ∧ p.ord = true ∧ (q.dst = p.src ∧ q.dport = p.sport ∧ q.ddev = p.sdev ∧ q.src = p.dst ∧ q.sport = p.dport ∧ q.sdev = p.ddev)
      ∧ ((q.kind = .rdr ∧ p.vc ≠ 1) ∨ (q.kind = .sack ∧ p.vc ≠ 0))
    let blocked := ∃ n l, p.hop ≤ n ∧ p.route[n]? = some l ∧ (if p.vc = 0 then 4 else 3) ≤ s.net.countP (fun x => decide (x.vc = p.vc) && decide (x.hop ≠ 0) && decide (x.route[x.hop - 1]? = some l))
    let crowded := p.dst.toNat < 1024 ∧ p.dport = 1 ∧ (p.kind = .rd ∨ p.kind = .wr ∨ p.kind = .msg ∨ p.kind = .cmb) ∧ 4 ≤ (s.core (BitVec.ofNat 10 p.dst.toNat)).que.ingress.length
    (behind ∨ awaited ∨ blocked ∨ crowded ∨ p.ddev ≠ s.own) →
      ∀ i ∈ [Instr.readRequest j flt ecc, .writeRequest j flt ecc, .messageRow j flt, .combiningContribution j flt ecc, .newtCommandRow j flt, .readResponse j flt,
        .writeAcknowledgement j flt, .errorReply j flt, .saveWriteAck j, .geckoFetch j flt, .semaphoreAdd j flt, .semaphoreSubtract j flt, .semaphoreWait j flt,
        .semaphoreWaitSubtract j flt, .armWatch j flt, .cancelWait j flt, .semaphoreResponse j flt, .creditReturn j flt], exec i s = .next s)
  ∧ (∀ (s : State) (n : Nat) (p : Packet) (ecc : Ecc), s.net[n]? = some p → s.mayArrive n p = true →
    let answer (st : BitVec 4) : Packet := { kind := .err, size := p.size, tid := p.tid, dst := p.src, dport := p.sport, ddev := p.sdev, src := p.dst, sport := p.dport, sdev := s.own, addr := p.addr, status := st, red := decide (p.kind = .sem) }
    let lost (t : State) : Prop := t = ((s.sans n).logEv 0x0A01 true p.ends).deviceFault 3
    (p.kind = .sem → p.op6.extractLsb' 28 4 = 0 → Does (exec (.semaphoreAdd n true) s) lost)
    ∧ (p.kind = .crd → Does (exec (.creditReturn n true) s) lost) ∧ (p.kind = .sack → Does (exec (.semaphoreResponse n true) s) lost)
    ∧ (s.dstOn p = true → ∀ st sa, targetOf (p.addr.toNat % 2 ^ 46) = .mem st sa →
        let u := ((s.sans n).count 0x4030 2).logEv 0x0A01 true p.ends
        (p.kind = .rd → Does (exec (.readRequest n true ecc) s) (fun t => t = u.inject (answer 3)))
        ∧ (p.kind = .wr → Does (exec (.writeRequest n true ecc) s) (fun t => t = u.inject (answer 3))))
    ∧ (s.dstOn p = false →
        (p.kind = .rd → Does (exec (.readRequest n false ecc) s) (fun t => t = (s.sans n).inject (answer 2)))
        ∧ (p.kind = .wr → Does (exec (.writeRequest n false ecc) s) (fun t => t = (s.sans n).inject (answer 2)))
        ∧ (p.kind = .sem → p.op6.extractLsb' 28 4 = 0 → Does (exec (.semaphoreAdd n false) s) (fun t => t = (s.sans n).inject (answer 2)))
        ∧ (p.kind = .cmb → p.red = true → Does (exec (.combiningContribution n false ecc) s) (fun t => t = ((s.sans n).count 0x4030 5).logEv 0x0A01 true p.ends))
        ∧ (p.kind = .crd → Does (exec (.creditReturn n false) s) (fun t => t = (s.sans n).count 0x4030 5))))
  ∧ (∀ (s : State) (a b : Nat) (p q : Packet) (l : RingLink), s.net[a]? = some p → s.net[b]? = some q → a ≠ b →
    let now := s.beat.devt.toNat
    let bumps (t : State) (sub : Nat) : Prop := ∀ i, Table.get 0 t.cnt i = if i = 0x403000 + sub then (Table.get 0 s.cnt i + 1) % 2 ^ 64 else Table.get 0 s.cnt i
    let alike := p.kind = .cmb ∧ q.kind = .cmb ∧ p.red = true ∧ q.red = true ∧ p.dst = q.dst ∧ p.dport = q.dport ∧ p.ddev = q.ddev ∧ p.addr = q.addr
      ∧ p.rfmt = q.rfmt ∧ p.sb = q.sb ∧ p.op6 = q.op6 ∧ p.op7 = q.op7 ∧ p.cnt.toNat + q.cnt.toNat ≤ 65535
    let held (x : RingLink) (v : Nat) : Nat := s.net.countP (fun y => decide (y.vc = v) && decide (y.hop ≠ 0) && decide (y.route[y.hop - 1]? = some x))
    let queued (x : Packet) : Prop := x.hop = 0 ∧ x.via = none ∧ x.src.toNat < 1024
    let W := if p.rfmt = 1 then 16 else 32
    let el (d : BitVec 4096) (i : Nat) : Nat := (d.extractLsb' (W * i) W).toNat
    let sum (x y : Nat) : Nat := if p.rfmt = 0 then (add32 (BitVec.ofNat 32 x) (BitVec.ofNat 32 y)).toNat else if p.rfmt = 1 then (add16 (BitVec.ofNat 16 x) (BitVec.ofNat 16 y)).toNat else (x + y) % 2 ^ 32
    (alike → s.meets b p q = true → Does (exec (.reduceMerge a b) s) (fun t => ∃ data, t.net = (s.net.set a { p with cnt := p.cnt + q.cnt, psn := p.psn || q.psn, data, ready := max p.ready (now + q.flits + 2) }).eraseIdx b
        ∧ (∀ i, i < 4096 / W → el data i = sum (el p.data i) (el q.data i)) ∧ { t with net := s.net, cnt := s.cnt, links := s.links } = s ∧ (q.via = none ∨ q.hop ≠ 0 → t.links = s.links) ∧ bumps t 3))
    ∧ ((¬ alike ∨ queued p ∨ (p.route[p.hop]? = some l ∧ l ∉ q.route)) → exec (.reduceMerge a b) s = .next s)
    ∧ (p.route[p.hop]? = some l → p.entering = true → 64 ≤ p.wait → s.mayHop a p = true → Does (exec (.antiStarvationGrant a) s) (fun t => t.net = s.net.set a (p.hopped l s.dev.async now) ∧ (p.hopped l s.dev.async now).hop = p.hop + 1
        ∧ now < Table.get 0 t.rings l.key ∧ { t with net := s.net, rings := s.rings, cnt := s.cnt, links := s.links } = s ∧ (p.via = none ∨ p.hop ≠ 0 → t.links = s.links) ∧ bumps t 4))
    ∧ (p.wait < 64 ∨ p.entering = false ∨ (p.route[p.hop]? = some l ∧ (if p.vc = 0 then 3 else 2) ≤ held l p.vc) → exec (.antiStarvationGrant a) s = .next s))

/-- R225, R227 and Table 11.3: a read of stack memory is counted for its channel, and answered with the bytes it names, a corrected burst counted, and with ERR 0x3, counted, where a burst of it is uncorrectable; a write puts its bytes there, of a 64-byte write those that its byte enables name, and is answered with WACK; every other byte stays; a write that covers bursts whole makes them good again. R115, R116, R126 and R232: a fabric read of a scratchpad row answers with its data and its side band, a write puts the data there and with SB = 1 the side band too; the side-band windows move 32-byte bands, or 16 at once; any other size or place is answered with ERR 0x1, an uncorrectable row with ERR 0x3; control registers refuse a peer device with 0x4. The words that hold byte enables (log entry 17), what a write makes good and how several bursts are met at once (log entry 50), that several findings of one access count as one (log entry 134), and the statuses of way memory, of part of a row and of a command window (log entry 16) are the model's. -/
def Obligations.TargetRequests : Prop :=
  (∀ (s : State) (n : Nat) (p : Packet) (st sa : Nat), Arrives s n p → p.psn = false → p.size.toNat < 7 → targetOf (p.addr.toNat % 2 ^ 46) = .mem st sa →
    let len := [1, 2, 4, 8, 32, 64, 512].getD p.size.toNat 0
    let key := st * 2 ^ 37 + sa
    let within (b : Nat) : Prop := key / 64 ≤ b ∧ b ≤ (key + len - 1) / 64
    let sick := ∃ b ∈ s.badMem, within b
    let soft := ∃ b ∈ s.softMem, within b
    let bumps (u : State) (q : Prop) : Prop := u.imb = (s.dieSide st sa).imb ∧ ∀ i, (i = 0x300200 + st + 1 → q → Table.get 0 u.cnt i = (Table.get 0 s.cnt i + 1) % 2 ^ 64) ∧ ((i ≠ 0x300200 + st + 1 ∨ ¬ q) → Table.get 0 u.cnt i = Table.get 0 s.cnt i)
    let be (i : Nat) : Bool := len ≠ 64 || (p.op6 = 0 && p.op7 = 0) || (if i < 32 then p.op6.getLsbD i else p.op7.getLsbD (i - 32))
    let byte (i : Nat) : Byte := if len ≤ 32 then p.side.extractLsb' (8 * i) 8 else p.data.extractLsb' (8 * i) 8
    let answer (kd : PKind) (st : BitVec 4) : Packet := { kind := kd, size := p.size, tid := p.tid, dst := p.src, dport := p.sport, ddev := p.sdev, src := p.dst, sport := p.dport, sdev := s.own, addr := p.addr, status := st }
    (p.kind = .rd →
      (¬ sick → Does (exec (.readRequest n false .clean) s) (fun t => ∃ side data, ∃ u : State, { u with imb := s.imb, cnt := s.cnt } = s.sans n ∧ bumps u soft ∧ t = u.inject { answer .rdr 0 with side, data }
        ∧ ∀ i, i < len → (if len ≤ 32 then side.extractLsb' (8 * i) 8 else data.extractLsb' (8 * i) 8) = s.memByte (key + i)))
      ∧ (sick → Does (exec (.readRequest n false .clean) s) (fun t => t.mem = s.mem ∧ t.badMem = s.badMem ∧ t.cores = s.cores
        ∧ ∃ u : State, u.net = s.net.eraseIdx n ∧ Table.get 0 u.cnt (0x300300 + st + 1) = (Table.get 0 s.cnt (0x300300 + st + 1) + 1) % 2 ^ 64 ∧ t = u.inject (answer .err 3))))
    ∧ (p.kind = .wr → ¬ sick → Does (exec (.writeRequest n false .clean) s) (fun t =>
        (∃ u : State, { u with mem := s.mem, imb := s.imb, cnt := s.cnt, softMem := s.softMem } = s.sans n
          ∧ bumps u (soft ∧ ¬ (len = 512 ∨ (len = 64 ∧ ∀ i, i < 64 → be i = true))) ∧ t = u.inject (answer .wack 0))
        ∧ (∀ b, b ∈ t.softMem ↔ b ∈ s.softMem ∧ ¬ within b)
        ∧ ∀ a, t.memByte a = if key ≤ a ∧ a < key + len ∧ be (a - key) then byte (a - key) else s.memByte a))
    ∧ (p.kind = .wr → len = 512 → key % 64 = 0 → Does (exec (.writeRequest n false .clean) s) (fun t =>
        (∀ i, i < 512 → t.memByte (key + i) = byte i) ∧ ∀ b, key / 64 ≤ b → b < key / 64 + 8 → b ∉ t.badMem)))
  ∧ (∀ (s : State) (n : Nat) (p : Packet) (core : CoreId) (pad : Pad) (r off : Nat), Arrives s n p → p.psn = false → p.dst.toNat = core.toNat →
    let k := s.core core
    k.que.ingress = [] →
    let answer (kd : PKind) (st : BitVec 4) : Packet := { kind := kd, size := p.size, tid := p.tid, dst := p.src, dport := p.sport, ddev := p.sdev, src := p.dst, sport := p.dport, sdev := s.own, addr := p.addr, status := st }
    let replies (i : Instr) (q : Packet) : Prop := Does (exec i s) (fun t => t = (s.sans n).inject q)
    let sets (i : Instr) (f : Nat → Row → Row) : Prop := Does (exec i s) (fun t => Answered (s.sans n) t core [answer .wack 0]
      ∧ (∀ m j, (t.core core).row m j = if m = pad then f j (k.row m j) else k.row m j) ∧ { t.core core with pad := k.pad } = k)
    (targetOf (p.addr.toNat % 2 ^ 46) = .data core.toNat pad r off →
      (p.kind = .rd → (p.size = 6 → off = 0 → (k.row pad r).err = .clean → replies (.readRequest n false .clean) { answer .rdr 0 with sb := true, side := (k.row pad r).side, data := (k.row pad r).data })
        ∧ (p.size = 6 → off = 0 → (k.row pad r).err = .uncorrectable → Does (exec (.readRequest n false .clean) s) (fun t => Answered (s.sans n) t core [answer .err 3] ∧ ∀ m j, (t.core core).row m j = k.row m j))
        ∧ ((p.size ≠ 6 ∨ off ≠ 0) → replies (.readRequest n false .clean) (answer .err 1)))
      ∧ (p.kind = .wr → (p.size = 6 → off = 0 → sets (.writeRequest n false .clean) (fun j w => if j = r then { data := p.data, side := if p.sb then p.side else w.side } else w))
        ∧ ((p.size ≠ 6 ∨ off ≠ 0) → replies (.writeRequest n false .clean) (answer .err 1))))
    ∧ (targetOf (p.addr.toNat % 2 ^ 46) = .side core.toNat pad r off → off = 0 →
      (p.size = 4 → (p.kind = .rd → (k.row pad r).err = .clean → replies (.readRequest n false .clean) { answer .rdr 0 with side := (k.row pad r).side })
        ∧ (p.kind = .wr → sets (.writeRequest n false .clean) (fun j w => if j = r then { w with side := p.side } else w)))
      ∧ (p.size = 6 → r % 16 = 0 → (p.kind = .rd → (∀ i, i < 16 → (k.row pad (r + i)).err = .clean) →
          Does (exec (.readRequest n false .clean) s) (fun t => ∃ data, t = (s.sans n).inject { answer .rdr 0 with data } ∧ ∀ i, i < 16 → data.extractLsb' (256 * i) 256 = (k.row pad (r + i)).side))
        ∧ (p.kind = .wr → sets (.writeRequest n false .clean) (fun j w => if r ≤ j ∧ j < r + 16 then { w with side := p.data.extractLsb' (256 * (j - r)) 256 } else w))))
    ∧ (∀ o, targetOf (p.addr.toNat % 2 ^ 46) = .coreCtl core.toNat o → p.sdev ≠ s.own →
        (p.kind = .rd → replies (.readRequest n false .clean) (answer .err 4)) ∧ (p.kind = .wr → replies (.writeRequest n false .clean) (answer .err 4))))

/-- R89, R90, R102, R108, R109, R129, R84 and Table 11.5: an RDR writes the register of the load that awaits it, from a fill for every load that joined it, with the bytes merged by then, and the line enters the cache; a WACK ends a store's or a row's wait; an ERR becomes the pending response-time bus error with the sub-cause of its status, or sets MORE where one is pending; in the escalation handler it stops the core at its next boundary; the last save acknowledgement completes an entry; a save write's ERR is an escalation condition with reason 3 for the fault of its own entry, the core's pc and, in a frame, the core's end. That a fault in the escalation handler stops the core at its next boundary is log entry 158. -/
def Obligations.AnswersToCores : Prop :=
  ∀ (s : State) (n : Nat) (p : Packet) (c : CoreId) (op : OutOp), Arrives s n p → p.dst.toNat = c.toNat → p.psn = false →
    let k := s.core c
    let mine := p.dport.toNat < 2 ∧ (∃ o ∈ k.lsu.outs, o.1 = p.tid) ∧ (∀ o ∈ k.lsu.outs, o.1 = p.tid → o.2 = op) ∧ (∀ f ∈ k.lsu.fills, p.dport = 0 → f.tid ≠ p.tid)
    let calm := (∀ e, k.run.hold ≠ .trap e) ∧ (∀ pc n, k.run.hold ≠ .done pc n) ∧ (∀ m, k.run.hold = .rows m → m.over = false) ∧ k.run.due = none ∧ k.run.stopRq = false ∧ k.run.stall = false
    let rest (t : State) : Prop := (∀ d, d ≠ c → t.core d = s.core d) ∧ { t with cores := s.cores } = s.sans n
    let ended := { k.lsu with outs := k.lsu.outs.filter (fun o => decide (o.1 ≠ p.tid)) }
    let value (w : LoadWait) (v : Nat) : Word := if w.sext then (BitVec.ofNat (8 * w.width) v).signExtend 32 else BitVec.ofNat 32 v
    let sub := match p.status.toNat with | 1 => 3 | 2 => 2 | 5 => 5 | _ => 4
    let faulted (f : RespFault) : RunCtl := if k.run.pend.isSome ∨ ∃ v ∈ k.run.saving, v.cause.getLsbD 7 = true then { k.run with more := true } else { k.run with pend := some f }
    let atBoundary := k.run.hold = .none ∧ k.run.st = .running ∧ k.lsu.busy = [] ∧ s.beat.frz = false
    calm →
    (∀ w, mine → op = .load w → p.size.toNat < 5 →
      (p.kind = .rdr → Does (exec (.readResponse n false) s) (fun t => RegIs s t c w.reg (value w (leNat (p.payload)))
          ∧ t.core c = { k with cpu := { k.cpu with regs := (t.core c).cpu.regs }, lsu := ended } ∧ rest t))
      ∧ (p.kind = .err → p.red = false → k.cpu.espAct = false → Does (exec (.errorReply n false) s) (fun t =>
          t.core c = { k with lsu := ended, run := faulted { vec := 3, sub := BitVec.ofNat 8 sub, info := w.sd.setWidth 32, faddr := w.addr, fpc := w.pc } } ∧ rest t)))
    ∧ (∀ pc sd addr, mine → op = .store pc sd addr →
      (p.kind = .wack → Does (exec (.writeAcknowledgement n false) s) (fun t => t.core c = { k with lsu := ended } ∧ rest t))
      ∧ (p.kind = .err → p.red = false → k.cpu.espAct = false → Does (exec (.errorReply n false) s) (fun t =>
          t.core c = { k with lsu := ended, run := faulted { vec := 3, sub := BitVec.ofNat 8 sub, info := sd.setWidth 32, faddr := addr, fpc := pc } } ∧ rest t))
      ∧ (p.kind = .err → p.red = false → k.cpu.espAct = true → atBoundary → s.dev.st ≠ .off → Does (exec (.errorReply n false) s) (fun t =>
          (t.core c).run.st = .failed ∧ (t.core c).run.spc = k.cpu.pc ∧ (t.core c).cpu = k.cpu ∧ t.dev.st = .fault)))
    ∧ (∀ e, mine → op = .msg e → p.kind = .wack → Does (exec (.writeAcknowledgement n false) s) (fun t => t.core c = { k with lsu := ended } ∧ rest t))
    ∧ (∀ a v b, mine → op = .save v.tid → p.dport = 0 → k.run.saving = a ++ v :: b → (∀ x ∈ a ++ b, x.tid ≠ v.tid ∧ x.left ≠ 0) →
      let saving' : List Saving := a ++ (if v.left ≤ 1 then [] else [{ v with left := v.left - 1 }]) ++ b
      (p.kind = .wack → Does (exec (.saveWriteAck n) s) (fun t => t.core c = { k with lsu := ended, run := { k.run with saving := saving' } } ∧ rest t))
      ∧ (p.kind = .err → p.red = false → atBoundary →
        let w := v.cause
        (v.frame = false → k.cpu.espAct = false → k.cpu.espV = true → Does (exec (.errorReply n false) s) (fun t =>
          Escalated (s.sans n) t c { k with lsu := ended, run := { k.run with saving := saving' } }
            { kind := (w.extractLsb' 30 2).toNat, vec := (w.extractLsb' 16 8).toNat, sub := (w.extractLsb' 8 8).toNat, pc := k.cpu.pc, info := v.info.toNat,
              faddr := v.faddr, fpc := v.fpc, imp := w.getLsbD 7, row := w.getLsbD 5, tile := (w.extractLsb' 3 2).toNat } 3))
        ∧ (v.frame = true → s.dev.st ≠ .off → Does (exec (.errorReply n false) s) (fun t => (t.core c).run.st = .failed ∧ (t.core c).run.spc = v.pc ∧ t.dev.st = .fault))))
    ∧ (∀ f, k.lsu.fills.find? (fun g => decide (g.tid = p.tid)) = some f → p.dport = 0 → p.kind = .rdr → Does (exec (.readResponse n false) s) (fun t =>
        let line : BitVec 512 := p.data.setWidth 512
        let byte (m : BitVec 64) (exceeds : BitVec 512) (i : Nat) : Byte := if m.getLsbD i then exceeds.extractLsb' (8 * i) 8 else line.extractLsb' (8 * i) 8
        (∀ w ∈ f.waiters, w.reg ≠ 0 → (∀ v ∈ f.waiters, v.reg = w.reg → v = w) → w.addr.toNat % 64 + w.width ≤ 64 →
          t.reg c w.reg = value w (leNat ((List.range w.width).map (fun i => byte w.mask w.seen (w.addr.toNat % 64 + i)))))
        ∧ (∀ g, (∀ w ∈ f.waiters, w.reg ≠ g) → t.reg c g = s.reg c g)
        ∧ (t.core c).lsu.fills = k.lsu.fills.filter (fun g => decide (g.tid ≠ p.tid))
        ∧ (f.dropped = false → (f.pref = false ∨ f.waiters ≠ []) → ∃ e ∈ (t.core c).lsu.lines, e.2.1 = f.line ∧ ∀ i, i < 64 → e.2.2.extractLsb' (8 * i) 8 = byte f.mask f.merged i)
        ∧ (f.dropped = true → (t.core c).lsu.lines = k.lsu.lines)
        ∧ (t.core c).pad = k.pad ∧ (t.core c).run = k.run ∧ (t.core c).mat = k.mat ∧ (t.core c).vec = k.vec ∧ (t.core c).que = k.que ∧ (t.core c).lsu.sbuf = k.lsu.sbuf ∧ rest t))

/-! ## Synchronisation units (chapter 13) -/

/-- R302, R303, R305 to R308: a semaphore command whose name word passes the checks sends one SEM packet to the owner's unit and, with H = 0, goes on; with H = 1, and for every swait, it holds issue at its own address. A failed check is a bus error with the sub-cause of R306 and the value word's address; a ninth outstanding operation waits. R317 and R93: in virtual mode a name word is translated by its core's context: a held valid entry gives CORE and SEM, a held invalid one or a VID above 4,095 a bus error with sub-cause 3, and a missing one makes the command wait and is counted once for the command; the fill reads the entry from stack memory, and reports what it finds there; TBINV drops every entry. A management request sets INTP.MGMT. That a virtual name whose bits [31:28] are not 0 is not valid is log entry 24. -/
def Obligations.SemaphoreIssue : Prop :=
  (∀ (s : State) (c : CoreId) (gn gv : Reg) (imm : BitVec 9) (h ord d : Bool),
    let k := s.core c
    let v := s.reg c gn
    let a := s.reg c gv
    let core := (v.extractLsb' 22 10).toNat
    let sem := (v.extractLsb' 16 6).toNat
    let home := s.resolveDev (v.extractLsb' 6 10)
    let addr := mkFAddr home (semAddr core sem)
    let tid := k.lsu.nextTid
    let fail (wait : Bool) : Option Nat := if 48 ≤ sem then some 3 else if home = s.own ∧ s.coreOn core = false then some 2 else if wait ∧ ¬ (home = s.own ∧ core = c.toNat) then some 1 else none
    let pkt (op : Nat) (val : Word) (ord : Bool) : Packet := { kind := .sem, ord, tid, dst := BitVec.ofNat 11 (nwOf (clusterOf core)), dport := 3, ddev := home, src := BitVec.ofNat 11 c.toNat, sport := 0, sdev := s.own, addr, op6 := BitVec.ofNat 32 (op * 2 ^ 28 + kOf core * 2 ^ 24 + sem * 2 ^ 18 + if op = 4 then (v.extractLsb' 0 6).toNat * 2 ^ 12 else 0), op7 := val }
    let does (i : Instr) (op : Nat) (val : Word) (held wait ord : Bool) : Prop :=
      (8 ≤ k.lsu.sems.length → Does (exec i s) (fun t => (t.core c).run.wait = .other ∧ (t.core c).cpu = k.cpu ∧ Beside k (t.core c) ∧ Apart s t c))
      ∧ (k.lsu.sems.length < 8 →
        (∀ sub, fail wait = some sub → CanEnter s c → Does (exec i s) (fun t => Entered s t c k { kind := 0, vec := 3, sub, pc := k.cpu.pc, faddr := addr, fpc := k.cpu.pc }))
        ∧ (fail wait = none → Does (exec i s) (fun t => Sent s t c [pkt op val ord] ∧ (∀ r, t.reg c r = s.reg c r) ∧ Special k.cpu (t.core c).cpu
            ∧ (t.core c).lsu = { k.lsu with nextTid := tid + 1, sems := k.lsu.sems ++ [(tid, held, v, addr, k.cpu.pc)] }
            ∧ (t.core c).pad = k.pad ∧ (t.core c).mat = k.mat ∧ (t.core c).vec = k.vec ∧ { (t.core c).que with qswc := k.que.qswc, stalled := k.que.stalled } = k.que
            ∧ (held = false → Advanced k.cpu (t.core c).cpu 2 ∧ (t.core c).run.hold = .none)
            ∧ (held = true → (t.core c).cpu = { k.cpu with shadow := (t.core c).cpu.shadow } ∧ (t.core c).run.hold = .sem tid v wait false k.cpu.pc))))
    (Ready s c [gn, gv] 2 → (s.clu (clusterOf c.toNat)).sync.vm = false →
      does (.sadd c gn gv imm h ord) 0 (a + imm.setWidth 32) h false ord ∧ does (.ssub c gn gv imm h ord) 1 (a + imm.setWidth 32) h false ord
      ∧ does (.swait c gn gv d) (if d then 3 else 2) (a &&& 0x7FFFFFFF) true true false ∧ does (.swatch c gn gv h ord) 4 (a &&& 0x7FFFFFFF) h false ord)
    ∧ (∀ (tid : BitVec 12) (v : Word) (pc : PAddr), s.coreOn c.toNat = true → k.run.st = .running → s.beat.frz = false → k.run.hold = .sem tid v true false pc → k.cpu.intp &&& k.cpu.inte ≠ 0 →
        k.cpu.ie = true → k.cpu.tsSaved = false → k.cpu.espAct = false → k.cpu.shadow = false → k.cpu.qAct = false →
        let owner := (v.extractLsb' 22 10).toNat
        let i := (v.extractLsb' 16 6).toNat
        let d := s.resolveDev (v.extractLsb' 6 10)
        Does (exec (.swaitCancel c) s) (fun t => t.core c = { k with run := { k.run with hold := .sem tid v true true pc } }
          ∧ Answered s t c [{ kind := .sem, tid, dst := BitVec.ofNat 11 (nwOf (clusterOf owner)), dport := 3, ddev := d, src := BitVec.ofNat 11 c.toNat, sdev := s.own, addr := mkFAddr d (semAddr owner i), op6 := BitVec.ofNat 32 (5 * 2 ^ 28 + kOf owner * 2 ^ 24 + i * 2 ^ 18) }])))
  ∧ (∀ (s : State) (c : CoreId) (gn gv : Reg) (imm : BitVec 9) (ord : Bool) (v : Word),
    let cl := clusterOf c.toNat
    let y := (s.clu cl).sync
    let k := s.core c
    let w := s.reg c gn
    let ctx := (y.vctx >>> (4 * kOf c.toNat)).toNat % 16
    let key := ctx * 4096 + (w.extractLsb' 16 12).toNat
    let hit := y.tlb.find? (fun e => decide (e.1 = key))
    (Ready s c [gn, gv] 2 → y.vm = true → k.lsu.sems.length < 8 →
      (w.extractLsb' 28 4 = 0 → hit = none → Does (exec (.sadd c gn gv imm false ord) s) (fun t =>
          (t.clu cl).sync.misses = (if key ∈ y.misses then y.misses else y.misses ++ [key])
          ∧ (k.run.wait ≠ .miss key → ∀ i, Table.get 0 t.cnt i = if i = 0x405003 then (Table.get 0 s.cnt i + 1) % 2 ^ 64 else Table.get 0 s.cnt i) ∧ (k.run.wait = .miss key → t.cnt = s.cnt)
          ∧ t.net = s.net ∧ (t.core c).cpu = k.cpu ∧ (t.core c).run.wait = .miss key ∧ { t with cores := s.cores, clus := s.clus, cnt := s.cnt } = s))
      ∧ (∀ e, w.extractLsb' 28 4 = 0 → hit = some (key, e) → e.getLsbD 31 = true → (e.extractLsb' 0 6).toNat < 48 → s.coreOn (e.extractLsb' 16 10).toNat = true →
          Does (exec (.sadd c gn gv imm false ord) s) (fun t => ∃ p, Sent s t c [p] ∧ p.kind = .sem ∧ p.ddev = s.resolveDev (w.extractLsb' 6 10)
            ∧ p.addr = mkFAddr p.ddev (semAddr (e.extractLsb' 16 10).toNat (e.extractLsb' 0 6).toNat) ∧ p.op7 = s.reg c gv + imm.setWidth 32 ∧ Advanced k.cpu (t.core c).cpu 2))
      ∧ (CanEnter s c → (w.extractLsb' 28 4 ≠ 0 ∨ ∃ e, hit = some (key, e) ∧ e.getLsbD 31 = false) →
          Does (exec (.sadd c gn gv imm false ord) s) (fun t => Entered s t c k { kind := 0, vec := 3, sub := 3, pc := k.cpu.pc, fpc := k.cpu.pc })))
    ∧ (s.cluOn cl = true →
      (∀ m ms, y.misses = m :: ms → Does (exec (.translationMissFill (BitVec.ofNat 6 cl)) s) (fun t =>
        let a := y.vtbase.toNat * 2 ^ 14 + m / 4096 * 2 ^ 14 + m % 4096 * 4
        let e : Word := if memTop ≤ a ∨ s.localBad a 4 = true then 0 else BitVec.ofNat 32 (leNat (s.localRead a 4)) &&& 0x83FF003F
        { t with clus := s.clus } = (if memTop ≤ a then s else s.localSee a 4) ∧ (∀ i, i ≠ cl → t.clu i = s.clu i)
        ∧ t.clu cl = { s.clu cl with sync := { y with misses := ms, tlb := if y.tlb.length < 64 then y.tlb ++ [(m, e)] else (y.tlb ++ [(m, e)]).drop 1 } }))
      ∧ (v.getLsbD 0 = true → Does (exec (.tbinv (BitVec.ofNat 6 cl) v) s) (fun t =>
        { t with clus := s.clus } = s ∧ (∀ i, i ≠ cl → t.clu i = s.clu i) ∧ t.clu cl = { s.clu cl with sync := { y with tlb := [] } })))
    ∧ (s.coreOn c.toNat = true → Does (exec (.managementRequest c) s) (fun t =>
        { t with cores := s.cores } = s ∧ (∀ d, d ≠ c → t.core d = s.core d) ∧ t.core c = { k with cpu := { k.cpu with intp := k.cpu.intp ||| 1 } })))

/-- R301, R303 and R304: a formed SEM packet acts on one semaphore: an add that would pass 2^31 − 1 and a subtract below zero change nothing and are answered with status 0x2 or 0x1, counted; otherwise the value changes and the answer is 0x0; a wait that the value satisfies is answered at once, with its subtraction, and any other takes the core's wait slot; an add that satisfies the owner's wait answers it in the same application, after its subtraction; a cancel removes its sender's wait with status 0x3. A packet whose operation is reserved or whose K and SEM do not name its address is answered with 0x5, one for the memory class with ERR 0x4 (R232). Which unit counts a refusal is log entry 21. -/
def Obligations.SemaphoreOperations : Prop :=
  ∀ (s : State) (n : Nat) (p : Packet), Arrives s n p → p.kind = .sem → p.dst.toNat < 1024 →
    let cl := clusterOf p.dst.toNat
    let y := (s.clu cl).sync
    let op := (p.op6.extractLsb' 28 4).toNat
    let k := (p.op6.extractLsb' 24 4).toNat
    let sem := (p.op6.extractLsb' 18 6).toNat
    let idx := k * 48 + sem
    let val := (Table.get 0 y.sems idx : Word).toNat
    let amount := p.op7.toNat
    let thr := p.op7.toNat % 2 ^ 31
    let formed := p.dport = 3 ∧ op < 6 ∧ sem < 48 ∧ p.addr.toNat % 2 ^ 46 = 0x200004000000 + cl * 0x10000 + k * 0xC0 + 4 * sem
    let sack (q : Packet) (st : BitVec 4) : Packet := { kind := .sack, size := q.size, tid := q.tid, dst := q.src, dport := q.sport, ddev := q.sdev, src := q.dst, sport := q.dport, sdev := s.own, addr := q.addr, status := st }
    let due (core verb : Nat) : Packet := { kind := .ctl, src := BitVec.ofNat 11 (nwOf cl), sport := 3, sdev := s.own, dst := 0x408, ddev := s.own, op6 := BitVec.ofNat 32 (verb * 2 ^ 28 + core) }
    let core := nwOf cl + k / 4 * 32 + k % 4
    let sets (t : State) (v : Nat) (y' : Sync) (ps : List Packet) : Prop :=
      (∀ i, (Table.get 0 (t.clu cl).sync.sems i : Word).toNat = if i = idx then v else (Table.get 0 y.sems i : Word).toNat)
      ∧ { (t.clu cl).sync with sems := y.sems } = y' ∧ { t.clu cl with sync := y } = s.clu cl ∧ (∀ j, j ≠ cl → t.clu j = s.clu j) ∧ { t with clus := s.clus } = (s.sans n).injectAll ps
    let silent (v : Nat) : Prop := (∀ w, let e : BitVec 256 := Table.get 0 y.watches w; e.getLsbD 31 = true → e.getLsbD 30 = true →
        (let j := (e.extractLsb' 26 4).toNat * 48 + (e.extractLsb' 20 6).toNat; if j = idx then v else (Table.get 0 y.sems j : Word).toNat) < (e.extractLsb' 64 31).toNat)
      ∧ ∀ e ∈ y.chwaits, e.2.sem = idx → v < e.2.thr
    let alone (v : Nat) : Prop := silent v ∧ ∀ w, Table.look y.waits k = some w → w.sem = idx → v < w.thr
    let bad (i : Instr) (st : BitVec 4) : Prop := Does (exec i s) (fun t => t = ((s.sans n).count 0x4050 1).inject (sack p st))
    let mine (w : WaitSlot) : Prop := w.req.src = p.src ∧ w.req.sport = p.sport ∧ w.req.sdev = p.sdev
    (¬ formed → (op = 0 ∨ 6 ≤ op) →
      ((∀ st sa, targetOf (p.addr.toNat % 2 ^ 46) ≠ .mem st sa) → bad (.semaphoreAdd n false) 5)
      ∧ (∀ st sa, targetOf (p.addr.toNat % 2 ^ 46) = .mem st sa → Does (exec (.semaphoreAdd n false) s) (fun t => t = (s.sans n).inject { sack p 4 with kind := .err, red := true })))
    ∧ (formed → op = 0 → (2 ^ 31 - 1 < val + amount → bad (.semaphoreAdd n false) 2)
      ∧ (val + amount < 2 ^ 31 → alone (val + amount) → Does (exec (.semaphoreAdd n false) s) (fun t => sets t (val + amount) y [sack p 0]))
      ∧ (∀ w, val + amount < 2 ^ 31 → Table.look y.waits k = some w → w.sem = idx → w.thr ≤ val + amount →
          let v := if w.sub then val + amount - w.thr else val + amount
          silent v → Does (exec (.semaphoreAdd n false) s) (fun t => sets t v { y with waits := Table.erase y.waits k } (sack w.req 0 :: (if w.due then [due core 2] else []) ++ [sack p 0]))))
    ∧ (formed → op = 1 → (val < amount → bad (.semaphoreSubtract n false) 1)
      ∧ (amount ≤ val → alone (val - amount) → Does (exec (.semaphoreSubtract n false) s) (fun t => sets t (val - amount) y [sack p 0])))
    ∧ (formed → op = 2 → (thr ≤ val → Does (exec (.semaphoreWait n false) s) (fun t => t = (s.sans n).inject (sack p 0)))
      ∧ (val < thr → p.sport ≠ 2 → Does (exec (.semaphoreWait n false) s) (fun t =>
          let d := (Table.get 0 s.beat.due core : BitVec 48).getLsbD sem
          sets t val { y with waits := Table.put y.waits k { sem := idx, thr, sub := false, req := p, due := d } } (if d then [due core 1] else []))))
    ∧ (formed → op = 3 → (thr ≤ val → silent (val - thr) → Does (exec (.semaphoreWaitSubtract n false) s) (fun t => sets t (val - thr) y [sack p 0]))
      ∧ (val < thr → p.sport = 2 → Does (exec (.semaphoreWaitSubtract n false) s) (fun t =>
          sets t val { y with chwaits := Table.put y.chwaits (p.tid.toNat / 512) { sem := idx, thr, sub := true, req := p, due := false } } [])))
    ∧ (formed → op = 5 → p.sport ≠ 2 →
      (∀ w, Table.look y.waits k = some w → mine w → Does (exec (.cancelWait n false) s) (fun t =>
          sets t val { y with waits := Table.erase y.waits k } (sack p 3 :: if w.due then [due core 2] else [])))
      ∧ ((∀ w, Table.look y.waits k = some w → ¬ mine w) → Does (exec (.cancelWait n false) s) (fun t => t = (s.sans n).inject (sack p 0))))

/-- R311, R312 and R313: arming a disabled entry is answered with status 0x4; an enabled one takes THR and ARM, and where its semaphore has reached THR it fires at once: ARM clears, WCNT counts, and one notification row leaves for the waiter's ring, with the content of Table 13.7, ahead of the answer; a management write replaces the named word of an entry, but for its res bits and WCNT. R304, R307, R309 and R310: a SACK of status 0x0 completes the command that holds issue for it, and is nothing more to a command that went on; 0x3 ends a hold without completing it; an error is a precise fault of a held command, with the vector and sub-cause of R307, and a pending fault otherwise; a SACK that matches none is discarded; an error on a unit's add is logged and leaves every core alone. Which unit counts a semaphore error is log entry 21, how an error of a unit's own add is logged log entry 22, and INFO 0 of a bus error that a SACK raises log entry 62. -/
def Obligations.WatchesAndAnswers : Prop :=
  (∀ (s : State) (n : Nat) (p : Packet) (cl : ClusterId) (w : BitVec 6) (j : BitVec 2) (v : DWord),
    let y := (s.clu cl.toNat).sync
    let e : BitVec 256 := Table.get 0 y.watches w.toNat
    let k := (e.extractLsb' 26 4).toNat
    let sem := (e.extractLsb' 20 6).toNat
    let val := (Table.get 0 y.sems (k * 48 + sem) : Word).toNat
    let thr := p.op7.toNat % 2 ^ 31
    let home := s.resolveDev (e.extractLsb' 48 10)
    let core := (e.extractLsb' 32 10).toNat
    let sack (st : BitVec 4) : Packet := { kind := .sack, size := p.size, tid := p.tid, dst := p.src, dport := p.sport, ddev := p.sdev, src := p.dst, sport := p.dport, sdev := s.own, addr := p.addr, status := st }
    let note : Packet := { kind := .msg, sb := true, src := BitVec.ofNat 11 (nwOf cl.toNat), sport := 3, sdev := s.own, dst := BitVec.ofNat 11 core, dport := 1, ddev := home, addr := mkFAddr home (0x100000000000 + core * 0x100000), op6 := BitVec.ofNat 32 ((e.extractLsb' 16 4).toNat * 2 ^ 9), side := BitVec.ofNat 256 (0xF002 * 2 ^ 240), data := BitVec.ofNat 4096 (w.toNat + (e.extractLsb' 0 16).toNat * 2 ^ 16 + val * 2 ^ 32 + thr * 2 ^ 64 + ((nwOf cl.toNat + k / 4 * 32 + k % 4) * 2 ^ 22 + sem * 2 ^ 16 + s.own.toNat * 2 ^ 6 + w.toNat) * 2 ^ 96 + (s.beat.bcnt.toNat % 2 ^ 32) * 2 ^ 128) }
    let other (t : State) : Prop := (∀ i, i ≠ w.toNat → Table.get 0 (t.clu cl.toNat).sync.watches i = Table.get 0 y.watches i) ∧ { t.clu cl.toNat with sync := { (t.clu cl.toNat).sync with watches := y.watches } } = s.clu cl.toNat
      ∧ (∀ i, i ≠ cl.toNat → t.clu i = s.clu i)
    (Arrives s n p → p.kind = .sem → p.dst.toNat < 1024 → p.dport = 3 → clusterOf p.dst.toNat = cl.toNat → p.op6.extractLsb' 28 4 = 4 → p.op6.extractLsb' 12 6 = w → (p.op6.extractLsb' 18 6).toNat < 48 →
      p.addr.toNat % 2 ^ 46 = 0x200004000000 + cl.toNat * 0x10000 + (p.op6.extractLsb' 24 4).toNat * 0xC0 + 4 * (p.op6.extractLsb' 18 6).toNat →
      (e.getLsbD 31 = false → Does (exec (.armWatch n false) s) (fun t => t = (s.sans n).inject (sack 4)))
      ∧ (e.getLsbD 31 = true → Does (exec (.armWatch n false) s) (fun t => other t
          ∧ (let f : BitVec 256 := Table.get 0 (t.clu cl.toNat).sync.watches w.toNat
             (f.extractLsb' 64 31).toNat = thr ∧ f.extractLsb' 0 30 = e.extractLsb' 0 30 ∧ f.getLsbD 31 = true ∧ f.extractLsb' 32 32 = e.extractLsb' 32 32 ∧ f.extractLsb' 128 128 = e.extractLsb' 128 128
             ∧ (val < thr → f.getLsbD 30 = true ∧ f.extractLsb' 96 32 = e.extractLsb' 96 32) ∧ (thr ≤ val → f.getLsbD 30 = false ∧ f.extractLsb' 96 32 = e.extractLsb' 96 32 + 1))
          ∧ (val < thr → { t with clus := s.clus } = (s.sans n).inject (sack 0))
          ∧ (thr ≤ val → { t with clus := s.clus } = ((s.sans n).count 0x4050 2).injectAll [note, sack 0]))))
    ∧ (s.cluOn cl.toNat = true → (j ≠ 0 ∨ v.getLsbD 30 = false ∨ (Table.get 0 y.sems ((v.extractLsb' 26 4).toNat * 48 + (v.extractLsb' 20 6).toNat) : Word).toNat < (e.extractLsb' 64 31).toNat) → Does (exec (.watchEntryWrite cl w j v) s) (fun t => other t ∧ { t with clus := s.clus } = s
        ∧ (let f : BitVec 256 := Table.get 0 (t.clu cl.toNat).sync.watches w.toNat
           (∀ i, i < 256 → f.getLsbD i = ((BitVec.ofNat 256 0xFFFFFFFF7FFFFFFF03FF03FFFFFFFFFF).getLsbD i
             && (if 96 ≤ i ∧ i < 128 then e.getLsbD i else if 64 * j.toNat ≤ i ∧ i < 64 * j.toNat + 64 then v.getLsbD (i - 64 * j.toNat) else e.getLsbD i)))))))
  ∧ (∀ (s : State) (n : Nat) (p : Packet) (c : CoreId) (held : Bool) (snw : Word) (addr : FAddr) (pc : PAddr), Arrives s n p → p.kind = .sack → p.dst.toNat = c.toNat →
    let k := s.core c
    let u := k.cpu
    let found := k.lsu.sems.find? (fun e => decide (e.1 = p.tid))
    let ended := { k.lsu with sems := k.lsu.sems.filter (fun e => decide (e.1 ≠ p.tid)) }
    let calm := k.run.stopRq = false ∧ k.run.stall = false ∧ k.run.due = none ∧ s.beat.frz = false
    let rest (t : State) : Prop := (∀ d, d ≠ c → t.core d = s.core d) ∧ { t with cores := s.cores } = s.sans n
    let fault := if p.status = 1 then (6, 0, snw) else if p.status = 2 then (6, 1, snw) else (3, 3, (0 : Word))
    let go (q : State → Prop) : Prop := Does (exec (.semaphoreResponse n false) s) q
    (p.dport = 0 → found = none → go (fun t => t = s.sans n))
    ∧ (p.dport = 0 → calm → found = some (p.tid, held, snw, addr, pc) →
      (held = true → (∃ tid v w x, k.run.hold = .sem tid v w x pc) →
        (p.status = 0 → go (fun t => t.core c = { k with lsu := ended, cpu := u.advance pc 2, run := { k.run with hold := .none, held := 0 } } ∧ rest t))
        ∧ (p.status = 3 → go (fun t => t.core c = { k with lsu := ended, run := { k.run with hold := .none, held := 0 } } ∧ rest t))
        ∧ (p.status ≠ 0 → p.status ≠ 3 → CanEnter s c → go (fun t => Entered (s.sans n) t c { k with lsu := ended, run := { k.run with hold := .none } }
            { kind := 0, vec := fault.1, sub := fault.2.1, pc, info := fault.2.2.toNat, faddr := addr, fpc := pc })))
      ∧ (held = false → (∀ e, k.run.hold ≠ .trap e) → (∀ pc n, k.run.hold ≠ .done pc n) → (∀ m, k.run.hold = .rows m → m.over = false) →
        (p.status = 0 → go (fun t => t.core c = { k with lsu := ended } ∧ rest t))
        ∧ (p.status ≠ 0 → k.run.pend = none → k.run.saving = [] → u.espAct = false → go (fun t => t.core c = { k with lsu := ended, run := { k.run with
            pend := some { vec := BitVec.ofNat 8 fault.1, sub := BitVec.ofNat 8 fault.2.1, info := fault.2.2, faddr := addr, fpc := pc } } } ∧ rest t))))
    ∧ (p.dport = 1 → (p.status = 0 → go (fun t => t = s.sans n)) ∧ (p.status ≠ 0 → go (fun t => ∃ fields, t = (s.sans n).logEv 0x0801 true fields))))

/-! ## DMA engines (chapter 14) -/

/-- R328 to R331 and R344: dstart, and a management start, take an idle or ended channel that is not disabled and, at task level, has TASK = 1, clear its registers and put it at the end of the run queue, and return 0; otherwise they change nothing and return 1, 2 or 3; dstat returns DCH_STAT; dabort returns 0 and requests the abort. A queued channel aborts at once, uncounted, a running one keeps its oldest unfinished burst alone, or the CSUM or SIGNAL in progress, a waiting one cancels and keeps its MOVEs; DIS = 1 does the same and refuses later starts. The head of the queue begins at instruction 0. R328, R333, R341 to R344: the answer to a program fetch fills its block; the first error ends the run in ERROR once its writes are answered, with its code, place and index, the interrupt of the owner of a core's run, the log and the count; an aborted channel at rest ends in ABORTED, with its record where HEAD named one. The CRC runs bit by bit over the reflected polynomial 0x82F63B78. How far an abort in CSUM or SIGNAL lets the channel go is log entry 162, the record of an aborted run log entry 65, and the numbering of a channel's packets log entry 23. -/
def Obligations.ChannelControl : Prop :=
  (∀ (s : State) (c : CoreId) (gd gp : Reg) (ch : ChanId) (prog : FAddr),
    let cl := clusterOf c.toNat
    let clu := s.clu cl
    let h : Chan := Table.get {} clu.chans ch.toNat
    let sup := (s.core c).cpu.sup
    let busy := h.st = .queued ∨ h.st = .run ∨ h.st = .wait
    let fresh (prog : FAddr) (owner : BitVec 4) (mgs : Bool) : Chan := { dis := h.dis, task := h.task, st := .queued, owner, mgs, prog, nextTid := h.nextTid, nextSeq := h.nextSeq }
    let clus (t : State) (v : Chan) (q : List ChanId) : Prop := (∀ i, Table.get {} (t.clu cl).chans i = if i = ch.toNat then v else Table.get {} clu.chans i)
      ∧ (t.clu cl).queue = q ∧ (t.clu cl).sync = clu.sync ∧ ∀ i, i ≠ cl → t.clu i = s.clu i
    let chOnly (t : State) (v : Word) : Prop := RegIs s t c gd v ∧ Advanced (s.core c).cpu (t.core c).cpu 2 ∧ Special (s.core c).cpu (t.core c).cpu ∧ Beside (s.core c) (t.core c) ∧ ∀ d, d ≠ c → t.core d = s.core d
    let illegal (t : State) : Prop := ∃ info, Entered s t c (s.core c) { kind := 0, vec := 1, sub := 2, pc := (s.core c).cpu.pc, info, fpc := (s.core c).cpu.pc }
    let code := match h.st with | .idle => 0 | .queued => 1 | .run => 2 | .wait => 3 | .done => 4 | .error => 5 | .aborted => 6
    let refusal := if busy then 1 else if h.dis = true then 2 else 3
    let aborted (t : State) : Prop :=
      (h.st = .queued → clus t { h with st := .aborted } (clu.queue.filter (· ≠ ch)) ∧ t.cnt = s.cnt)
      ∧ (h.st = .run → h.abort = true → clus t h clu.queue)
      ∧ (h.st = .run → h.abort = false → h.inLast = true → clus t { h with abort := true, last := true } clu.queue)
      ∧ (h.st = .run → h.abort = false → h.inLast = false → clus t { h with abort := true, last := false, moves := (h.moves.find? (fun m => decide (m.wrtn < m.len))).toList.map (fun m =>
            let stop := min m.len (((m.dst + m.wrtn) / 4096 + 1) * 4096 - m.dst)
            { m with len := stop, reqd := min m.reqd stop }) } clu.queue)
      ∧ (∀ p, h.st = .wait → h.waitP = some p → clus t { h with abort := true } clu.queue
          ∧ (h.abort = false → p.ddev = s.own → { p with op6 := BitVec.ofNat 32 (5 * 2 ^ 28 + (p.op6.extractLsb' 0 28).toNat), op7 := 0 } ∈ t.net))
    (Ready s c [gd, gp, gp + 1] 2 →
      (gp.toNat % 2 ≠ 0 → CanEnter s c → Does (exec (.dstart c gd ch gp) s) illegal)
      ∧ (gp.toNat % 2 = 0 →
        (¬ busy → h.dis = false → (sup = true ∨ h.task = true) → Does (exec (.dstart c gd ch gp) s) (fun t => chOnly t 0
          ∧ clus t (fresh ((s.reg c (gp + 1)).setWidth 24 ++ s.reg c gp) (BitVec.ofNat 4 (kOf c.toNat)) false) (clu.queue ++ [ch]) ∧ t.mem = s.mem))
        ∧ ((busy ∨ h.dis = true ∨ (sup = false ∧ h.task = false)) → Does (exec (.dstart c gd ch gp) s) (fun t => Wrote s t c 2 gd (BitVec.ofNat 32 refusal)))))
    ∧ (Ready s c [gd] 2 →
      Does (exec (.dstat c gd ch) s) (fun t => Wrote s t c 2 gd (BitVec.ofNat 32 (code * 2 ^ 29 + (if h.st = .error then h.err.toNat * 2 ^ 25 + h.estat.toNat * 2 ^ 21 else 0) + bnat h.mgs * 2 ^ 20 + h.owner.toNat * 2 ^ 16 + h.ipc.toNat)))
      ∧ (busy → (sup = true ∨ h.task = true) → Does (exec (.dabort c gd ch) s) (fun t => chOnly t 0 ∧ aborted t))
      ∧ (¬ busy → Does (exec (.dabort c gd ch) s) (fun t => Wrote s t c 2 gd 1))
      ∧ (busy → sup = false → h.task = false → Does (exec (.dabort c gd ch) s) (fun t => Wrote s t c 2 gd 3)))
    ∧ (s.cluOn cl = true →
      (¬ busy → h.dis = false → Does (exec (.mgmtChannelStart (BitVec.ofNat 6 cl) ch prog) s) (fun t => clus t (fresh prog 0 true) (clu.queue ++ [ch]) ∧ { t with clus := s.clus } = s))
      ∧ ((busy ∨ h.dis = true) → exec (.mgmtChannelStart (BitVec.ofNat 6 cl) ch prog) s = .next s)
      ∧ ((h.st = .queued ∨ h.st = .run) → h.moves = [] → h.failing = none → Does (exec (.dchAbort (BitVec.ofNat 6 cl) ch) s) aborted)
      ∧ (¬ busy → h.failing = none → h.moves = [] → Does (exec (.dchDisable (BitVec.ofNat 6 cl) ch) s) (fun t => clus t { h with dis := true } clu.queue ∧ { t with clus := s.clus } = s))
      ∧ (h.st = .queued → h.failing = none → h.moves = [] → Does (exec (.dchDisable (BitVec.ofNat 6 cl) ch) s) (fun t => clus t { h with dis := true, st := .aborted } (clu.queue.filter (· ≠ ch))))
      ∧ (∀ q, clu.queue = ch :: q → h.st = .queued → h.prog.toNat % 32 = 0 → (∃ a b, targetOf (h.prog.toNat % 2 ^ 46) = .mem a b) →
          Does (exec (.channelBegin (BitVec.ofNat 6 cl)) s) (fun t => t = (s.setChan cl ch.toNat { h with st := .run }).goTo cl ch.toNat 0))))
  ∧ (∀ (s : State) (cl : ClusterId) (ch : ChanId) (n : Nat) (p : Packet),
    let clu := s.clu cl.toNat
    let h := s.chan cl.toNat ch.toNat
    let chans (t : State) (v : Chan) : Prop := (∀ j, t.chan cl.toNat j = if j = ch.toNat then v else s.chan cl.toNat j) ∧ (t.clu cl.toNat).sync = clu.sync ∧ ∀ i, i ≠ cl.toNat → t.clu i = s.clu i
    let quiet := h.writes = [] ∧ ∀ o ∈ h.outs, ∀ x a, o.2 ≠ .record x a
    (∀ b, Arrives s n p → p.kind = .rdr → p.psn = false → p.dst.toNat < 1024 → clusterOf p.dst.toNat = cl.toNat → p.dport = 2 → p.tid.toNat / 512 = ch.toNat → (∀ o ∈ h.outs, o.1 = p.tid → o.2 = .fetch b) → (∃ o ∈ h.outs, o.1 = p.tid) → h.moves = [] →
      Does (exec (.geckoFetch n false) s) (fun t => { t with clus := s.clus } = s.sans n
        ∧ chans t { h with outs := h.outs.filter (fun o => decide (o.1 ≠ p.tid)), blocks := Table.put h.blocks b p.data } ∧ (t.clu cl.toNat).queue = clu.queue))
    ∧ (∀ e st ipc (a : FAddr), h.failing = none → quiet → h.aba = 0 → e < 16 → st < 16 → ipc < 65536 →
      let t := s.chanFail cl.toNat ch.toNat e st a ipc
      (t.chan cl.toNat ch.toNat).st = .error ∧ ((t.chan cl.toNat ch.toNat).err.toNat = e) ∧ ((t.chan cl.toNat ch.toNat).estat.toNat = st) ∧ (t.chan cl.toNat ch.toNat).faddr = a ∧ (t.chan cl.toNat ch.toNat).ipc.toNat = ipc
      ∧ (t.chan cl.toNat ch.toNat).moves = [] ∧ ch ∉ (t.clu cl.toNat).queue ∧ t.net = s.net ∧ t.mem = s.mem ∧ Table.get 0 t.cnt 0x406001 = (Table.get 0 s.cnt 0x406001 + 1) % 2 ^ 64
      ∧ (∀ c, (t.core c).cpu.intp = if h.mgs = false ∧ c.toNat = nwOf cl.toNat + h.owner.toNat / 4 * 32 + h.owner.toNat % 4 then (s.core c).cpu.intp ||| 8 else (s.core c).cpu.intp))
    ∧ (∀ q, s.cluOn cl.toNat = true → clu.queue = ch :: q → h.st = .run → h.abort = true → h.last = false → h.failing = none → h.moves = [] → quiet →
      Does (exec (.abortComplete cl) s) (fun t => chans t { h with st := .aborted, outs := [], waitP := none, nextTid := if h.aba = 0 then h.nextTid else h.nextTid + 1 } ∧ (t.clu cl.toNat).queue = (ch :: q).filter (· ≠ ch)
        ∧ (h.aba = 0 → { t with clus := s.clus, cnt := s.cnt } = s ∧ Table.get 0 t.cnt 0x406002 = (Table.get 0 s.cnt 0x406002 + 1) % 2 ^ 64)
        ∧ (h.aba ≠ 0 → ∃ r : Packet, { t with clus := s.clus } = (s.inject r).count 0x4060 2 ∧ r.kind = .wr ∧ r.size = 4
            ∧ r.side.toNat = (h.crc ^^^ 0xFFFFFFFF).toNat + (2 ^ 31 + h.ipc.toNat) * 2 ^ 32 + h.bytes.toNat * 2 ^ 64 + (s.beat.bcnt.toNat % 2 ^ 32) * 2 ^ 128)))
    ∧ (∀ (r : Word) (bs : List Byte), crcBytes r bs = bs.foldl (fun (r : Word) (b : Byte) => (List.range 8).foldl (fun (x : Word) _ => (x >>> 1) ^^^ if x.getLsbD 0 then 0x82F63B78 else 0) (r ^^^ b.setWidth 32)) r))

/-- R333 to R335, R339, R340, R342 and R345: LOOP opens a level at index 0, ENDLOOP goes back until COUNT passes or closes it, WAIT sends its wait and holds the channel, SIGNAL sends an add with the order flag and CSUM its record once every earlier write is acknowledged, HEAD names the final record, END makes the run DONE; each goes on with the next instruction, whose block is fetched where it is not held. COUNT 0, a third LOOP, an ENDLOOP with no loop open, an END in a loop and a HEAD elsewhere end the run with ILLEGAL. The packets carry the channel's number in the top bits of their TIDs (log entry 23). R335 to R337 and R345: a MOVE of at most the burst buffer's 16 KiB out of local stack memory reads its source in ascending order, at each place with the largest access that its alignment and what remains allow, and the next instruction is due; LEN 0, a range beyond bit 55 and a range of either side that meets, at any of its bytes, a class of Table 14.6 whose rule it breaks end the run with ILLEGAL or SHAPE before any byte moves. -/
def Obligations.GeckoPrograms : Prop :=
  (∀ (s : State) (cl : ClusterId) (ch : ChanId) (h : Chan) (w : BitVec 256), Gecko s cl ch h w →
    let op := (w.extractLsb' 28 4).toNat
    let i := h.ipc.toNat
    let nat (lo n : Nat) : Nat := (w.extractLsb' (8 * lo) (8 * n)).toNat
    let int (lo : Nat) : Int := (w.extractLsb' (8 * lo) 32).toInt
    let unit : NodeId := BitVec.ofNat 11 (nwOf cl.toNat)
    let tid : BitVec 12 := BitVec.ofNat 12 (ch.toNat * 512 + h.nextTid.toNat)
    let next (h' : Chan) (ps : List Packet) (j : Nat) (t : State) : Prop := t = ((s.setChan cl.toNat ch.toNat h').injectAll ps).goTo cl.toNat ch.toNat j
    let snw : Word := w.extractLsb' 32 32
    let owner := (snw.extractLsb' 22 10).toNat
    let sem := (snw.extractLsb' 16 6).toNat
    let home := s.resolveDev (snw.extractLsb' 6 10)
    let add (op6 : Nat) (v : Word) (dev : DevId) (ord : Bool) : Packet := { kind := .sem, ord, tid, dst := BitVec.ofNat 11 (nwOf (clusterOf owner)), dport := 3, ddev := dev, src := unit, sport := 2, sdev := s.own, addr := mkFAddr dev (semAddr owner sem), op6 := BitVec.ofNat 32 (op6 * 2 ^ 28 + kOf owner * 2 ^ 24 + sem * 2 ^ 18), op7 := v }
    let landed := h.writes = [] ∧ h.moves = [] ∧ ∀ o ∈ h.outs, ∀ x a, o.2 ≠ .record x a
    let place := nat 8 7
    let dest := s.resolveDev (BitVec.ofNat 10 (place / 2 ^ 46))
    let good := place % 32 = 0 ∧ ∃ a b, targetOf (place % 2 ^ 46) = .mem a b
    (op = 2 → nat 4 3 ≠ 0 → h.loops.length < 2 →
      let l : GLoop := { at_ := i, count := nat 4 3, it := 0, sa := int 8, da := int 12, sb := int 16, db := int 20 }
      Does (exec (.geckoLoop cl) s) (next (if h.loops = [] then { h with it0 := 0, loops := [l] } else { h with it1 := 0, loops := h.loops ++ [l] }) [] (i + 1)))
    ∧ (∀ ls l, op = 3 → h.loops = ls ++ [l] →
        (l.it + 1 < l.count → Does (exec (.endloop cl) s) (next (let h' : Chan := { h with loops := ls ++ [{ l with it := l.it + 1 }] }
          if ls = [] then { h' with it0 := BitVec.ofNat 32 (l.it + 1) } else { h' with it1 := BitVec.ofNat 32 (l.it + 1) }) [] (l.at_ + 1)))
        ∧ (l.count ≤ l.it + 1 → Does (exec (.endloop cl) s) (next { h with loops := ls } [] (i + 1))))
    ∧ (op = 4 →
        let thr := (nat 8 4 + if w.getLsbD 27 then nat 12 4 * (if w.getLsbD 26 then h.it1 else h.it0).toNat else 0) % 2 ^ 32
        (thr < 2 ^ 31 → home = s.own → clusterOf owner = cl.toNat → sem < 48 → Does (exec (.geckoWait cl) s) (fun t =>
            t = (s.setChan cl.toNat ch.toNat { h with st := .wait, nextTid := h.nextTid + 1, outs := h.outs ++ [(tid, .sem)], waitP := some (add 2 (BitVec.ofNat 32 thr) s.own false) }).inject (add 2 (BitVec.ofNat 32 thr) s.own false)))
        ∧ (2 ^ 31 ≤ thr → Does (exec (.geckoWait cl) s) (fun t => t = s.chanFail cl.toNat ch.toNat 2 0 0 i))
        ∧ (thr < 2 ^ 31 → (home ≠ s.own ∨ clusterOf owner ≠ cl.toNat ∨ 48 ≤ sem) → Does (exec (.geckoWait cl) s) (fun t => t = s.chanFail cl.toNat ch.toNat 6 0 0 i)))
    ∧ (op = 5 → landed → (home = s.own → s.coreOn owner = true) → Does (exec (.signal cl) s) (next { h with nextTid := h.nextTid + 1 } [add 0 (w.extractLsb' 64 32) home true] (i + 1)))
    ∧ (op = 6 → landed → good → Does (exec (.csum cl) s) (fun t => ∃ side,
        next (let h' : Chan := { h with nextTid := h.nextTid + 1, outs := h.outs ++ [(tid, .record i (BitVec.ofNat 56 place))] }
              if w.getLsbD 27 then { h' with crc := 0xFFFFFFFF, bytes := 0 } else h')
          [{ kind := .wr, size := 4, tid, dst := (targetOf (place % 2 ^ 46)).dest.1, dport := (targetOf (place % 2 ^ 46)).dest.2, ddev := dest, src := unit, sport := 2, sdev := s.own, addr := mkFAddr dest (place % 2 ^ 46), side }] (i + 1) t
        ∧ side.toNat = (h.crc ^^^ 0xFFFFFFFF).toNat + i * 2 ^ 32 + h.bytes.toNat * 2 ^ 64 + (s.beat.bcnt.toNat % 2 ^ 32) * 2 ^ 128))
    ∧ (op = 7 → h.loops = [] → landed → Does (exec (.gend cl) s) (fun t => { t with clus := s.clus } = s ∧ (∀ i, i ≠ cl.toNat → t.clu i = s.clu i)
        ∧ t.chan cl.toNat ch.toNat = { h with st := .done, outs := [], waitP := none } ∧ (t.clu cl.toNat).queue = (s.clu cl.toNat).queue.filter (· ≠ ch)
        ∧ (t.clu cl.toNat).sync = (s.clu cl.toNat).sync ∧ ∀ j, j ≠ ch.toNat → t.chan cl.toNat j = s.chan cl.toNat j))
    ∧ (op = 8 → i = 0 → (place = 0 ∨ good) → Does (exec (.head cl) s) (next { h with aba := BitVec.ofNat 56 place } [] 1))
    ∧ (let illegal (j : Instr) : Prop := Does (exec j s) (fun t => t = s.chanFail cl.toNat ch.toNat 2 0 0 i)
       (op = 2 → (nat 4 3 = 0 ∨ 2 ≤ h.loops.length) → illegal (.geckoLoop cl)) ∧ (op = 3 → h.loops = [] → illegal (.endloop cl))
       ∧ (op = 7 → h.loops ≠ [] → illegal (.gend cl)) ∧ (op = 8 → (i ≠ 0 ∨ (place ≠ 0 ∧ ¬ good)) → illegal (.head cl)))
    ∧ ((op = 5 ∨ op = 6 ∨ op = 7) → h.loops = [] → ¬ landed → (op = 5 → exec (.signal cl) s = .next s) ∧ (op = 6 → exec (.csum cl) s = .next s) ∧ (op = 7 → exec (.gend cl) s = .next s)))
  ∧ (∀ (s : State) (cl : ClusterId) (ch : ChanId) (h : Chan) (w : BitVec 256), Gecko s cl ch h w → (w.extractLsb' 28 4).toNat = 1 →
    let i := h.ipc.toNat
    let nat (lo n : Nat) : Nat := (w.extractLsb' (8 * lo) (8 * n)).toNat
    let len := nat 4 4
    let strides (f : GLoop → Int) (on : Bool) : Int := if on then (h.loops.map (fun l => (l.it : Int) * f l)).sum else 0
    let src : Int := (nat 8 7 : Int) + strides (fun l => if w.getLsbD 24 then l.sb else l.sa) (w.getLsbD 26)
    let dst : Int := (nat 16 7 : Int) + strides (fun l => if w.getLsbD 24 then l.db else l.da) (w.getLsbD 25)
    let inRange := 0 ≤ src ∧ 0 ≤ dst ∧ src + len ≤ 2 ^ 56 ∧ dst + len ≤ 2 ^ 56
    let a := (s.resolve src.toNat).toNat
    let b := (s.resolve dst.toNat).toNat
    let at_ (x : Nat) : Target := targetOf (x % 2 ^ 46)
    let sizes : List Nat := [1, 2, 4, 8, 32, 64, 512]
    let breaks (x : Nat) : Prop := ∃ y, x ≤ y ∧ y < x + len ∧ match at_ y with
      | .mem _ _ | .hole _ | .nothing => False
      | .data _ _ _ _ => x % 512 ≠ 0 ∨ len % 512 ≠ 0
      | .side _ _ _ _ => x % 32 ≠ 0 ∨ len % 32 ≠ 0
      | .way _ _ | .command _ => True
      | .coreCtl _ o => if (0x2000 ≤ o ∧ o < 0x4000) ∨ 0x8000 ≤ o then x % 64 ≠ 0 ∨ len % 64 ≠ 0 else x % 4 ≠ 0 ∨ len % 4 ≠ 0
      | .clusCtl _ _ | .newt _ _ | .mctl _ _ | .devCtl _ => x % 4 ≠ 0 ∨ len % 4 ≠ 0
    let fail (e : Nat) : Prop := Does (exec (.move cl) s) (fun t => t = s.chanFail cl.toNat ch.toNat e 0 0 i)
    (len = 0 → fail 2) ∧ (len ≠ 0 → ¬ inRange → fail 3)
    ∧ (len ≠ 0 → inRange → breaks a ∨ breaks b → fail 3)
    ∧ (∀ x y x' y', len ≠ 0 → len ≤ 16384 → inRange → at_ a = .mem x y → at_ b = .mem x' y' → a / 2 ^ 46 = s.own.toNat → h.moves = [] → h.outs = [] → h.writes = [] → i < 65535 →
        Does (exec (.move cl) s) (fun t => ∃ (zs : List Nat) (ps rest : List Packet),
          t.net = s.net ++ ps ++ rest ∧ zs.sum = len ∧ ps.length = zs.length
          ∧ (∀ k z, zs[k]? = some z → let o := (zs.take k).sum; z ∈ sizes ∧ (a + o) % z = 0 ∧ o + z ≤ len ∧ ∀ z' ∈ sizes, (a + o) % z' = 0 → o + z' ≤ len → z' ≤ z)
          ∧ (∀ k p z, ps[k]? = some p → zs[k]? = some z → p.kind = .rd ∧ p.addr.toNat = a + (zs.take k).sum ∧ sizes[p.size.toNat]? = some z ∧ p.src = BitVec.ofNat 11 (nwOf cl.toNat) ∧ p.sport = 2)
          ∧ t.mem = s.mem ∧ t.cores = s.cores ∧ (∃ m, (t.chan cl.toNat ch.toNat).moves = [m] ∧ m.src = a ∧ m.dst = b ∧ m.len = len ∧ m.reqd = len ∧ m.wrtn = 0 ∧ m.crc = w.getLsbD 27)
          ∧ (t.chan cl.toNat ch.toNat).ipc = BitVec.ofNat 16 (i + 1))))

/-! ## Newt engines and memory controllers (chapters 9 and 10) -/

/-- R200, R203, R205, R207 to R209, R215, R218 and R219: the head descriptor of a free engine starts, the row's credit goes back, and the command of its opcode begins: MARK needs nothing more; ADELTA reads the version that is current, and pulls its source rows piece by piece, as ATTN and OPT do; AVSW turns VNEW, clears SR and writes SWB; SCRUB zeroes its granules and completes with ECC where one does not read as zero. A descriptor that fails a check of Table 9.10 begins with the status of the first one that fails, and the result rows that it names, DOUT or G × DH elements of them from DST on and none with ILLEGAL, RANGE or DISABLED, hold NaN, where no command of another engine names one of them too (R214). A SCRUB makes the bursts it covers good again (log entry 50). -/
def Obligations.NewtStarts : Prop :=
  ∀ (s : State) (st : StackId) (r : NRow) (d : BitVec 512), NewtHead s st r d →
    let k := s.stack st.toNat
    let W (i : Nat) : Nat := (d.extractLsb' (32 * i) 32).toNat
    let op := (d.extractLsb' 24 8).toNat
    let handle := W 12 % 2 ^ 12
    let e : BitVec 1024 := Table.get 0 k.dir handle
    let node : NodeId := BitVec.ofNat 11 (if st.toNat < 4 then 0x400 + st.toNat else 0x410 + (st.toNat - 4))
    let credit : List Packet := if r.cm then [{ kind := .crd, src := node, sport := 1, sdev := s.own, dst := r.node, dport := 1, ddev := r.dev, op6 := r.entry.setWidth 32, op7 := 1 }] else []
    let status := newtCheck k (s.beat.bcnt.setWidth 32) r.node d
    let begins (t : State) (q : NCmd → Prop) : Prop := (∃ c, (t.stack st.toNat).cmds = [c] ∧ c.desc = d ∧ c.dev = r.dev ∧ c.node = r.node ∧ c.port = r.port ∧ q c) ∧ (t.stack st.toNat).ring = []
      ∧ (∀ j, j ≠ st.toNat → t.stack j = s.stack j) ∧ (t.stack st.toNat).kv = k.kv ∧ (t.stack st.toNat).ten = k.ten ∧ (t.stack st.toNat).errs = k.errs ∧ t.cores = s.cores
    let ready (c : NCmd) : Prop := c.phase = .write ∧ c.status = 0 ∧ c.outs = []
    let piece (base pr str i : Nat) : Nat := base + 512 * (i / (pr + 1) * (if str = 0 then pr + 1 else str) + i % (pr + 1))
    let reads (n : Nat) (at_ : Nat → Nat) : List Packet := (List.range n).map (fun i => s.mkPkt .rd node 1 (k.nextTid + BitVec.ofNat 12 i) (BitVec.ofNat 56 (at_ i)))
    let src := (W 2 + W 3 * 2 ^ 32) % 2 ^ 56
    let spr := W 10 / 2 ^ 26
    let sstr := W 10 % 2 ^ 26
    let pulls (i : Instr) (n : Nat) (q : NCmd → Prop) : Prop := 0 < n → Does (exec i s) (fun t => begins t (fun c => c.phase = .pull ∧ c.status = 0 ∧ c.outs.length = n ∧ q c)
      ∧ { t with stks := s.stks } = s.injectAll (credit ++ reads n (piece src spr sstr)) ∧ (t.stack st.toNat).dir = k.dir)
    let dh := if (Table.get 0 k.kv (d.extractLsb' 43 9).toNat : BitVec 256).getLsbD 149 then 128 else 64
    let named : Nat :=
      if status = 1 ∨ status = 4 ∨ status = 7 then 0
      else if op = 1 ∧ e.getLsbD 15 = true then ((e.extractLsb' 48 16).toNat + epr (W 1 % 16) - 1) / epr (W 1 % 16)
      else if op = 2 ∧ (Table.get 0 k.kv (d.extractLsb' 43 9).toNat : BitVec 256).getLsbD 159 = true then ((W 12 / 2 ^ 15 % 16 + 1) * dh + epr (W 1 % 16) - 1) / epr (W 1 % 16)
      else 0
    let dst := (W 4 + W 5 * 2 ^ 32) % 2 ^ 56
    let ofOp (i : Instr) (n : Nat) : Prop := op = n → status ≠ 0 → Does (exec i s) (fun t => begins t (fun c => c.status = status ∧ c.phase = .write ∧ c.rows = named)
      ∧ t.mem = s.mem ∧ (t.stack st.toNat).dir = k.dir
      ∧ ((∀ a, s.clashes st.toNat k.nextId a = false) → ∃ rows, { t with stks := s.stks } = s.injectAll (credit ++ rows) ∧ rows.length = named
          ∧ ∀ j p, rows[j]? = some p → p.data = poisonRow (W 1 % 16) ∧ p.addr = s.resolve (piece dst (W 11 / 2 ^ 26) (W 11 % 2 ^ 26) j)
            ∧ p.kind = (if (W 5).testBit 31 then .cmb else .wr)))
    let eps (f : Nat) : Nat := if f = 0 then 128 else if f = 1 then 256 else 512
    (ofOp (.mark st) 0 ∧ ofOp (.adelta st) 1 ∧ ofOp (.attn st) 2 ∧ ofOp (.opt st) 3 ∧ ofOp (.avsw st) 4 ∧ ofOp (.scrub st false) 15)
    ∧ ((op = 5 ∨ W 5 / 2 ^ 24 % 64 ≠ 0 ∨ src % 512 ≠ 0) → status = 1)
    ∧ (op = 1 → dIllegal d = false → (W 1 / 2 ^ 20 = 0 → status = 2) ∧ (W 1 / 2 ^ 20 ≠ 0 → e.getLsbD 15 = false → status = 4)
      ∧ (W 1 / 2 ^ 20 ≠ 0 → e.getLsbD 15 = true → (e.extractLsb' 16 4 = 1 ∨ e.extractLsb' 16 4 = 4) → (e.extractLsb' 32 16).toNat % epr (W 1 / 2 ^ 4 % 16) = 0 → W 1 / 2 ^ 20 ≠ (e.extractLsb' 20 12).toNat → status = 3))
    ∧ (status = 0 →
      (op = 0 → Does (exec (.mark st) s) (fun t => begins t ready ∧ { t with stks := s.stks } = s.injectAll credit ∧ (t.stack st.toNat).dir = k.dir))
      ∧ (op = 1 → (d.extractLsb' 36 4).toNat = 1 → pulls (.adelta st) (((e.extractLsb' 32 16).toNat + 255) / 256) (fun c =>
          c.ver = if e.getLsbD 13 = true ∨ 0 ≤ (s.beat.bcnt.setWidth 32 - e.extractLsb' 64 32).toInt then e.getLsbD 14 else !e.getLsbD 14))
      ∧ (op = 2 → pulls (.attn st) (((W 12 / 2 ^ 15 % 16 + 3) * dh + 255) / 256) (fun c => c.ctx = 1))
      ∧ (op = 3 → (4 * ((e.extractLsb' 6 6).toNat + 1) * ((e.extractLsb' 32 16).toNat + (e.extractLsb' 48 16).toNat) ≤ 458752) → (e.extractLsb' 32 16).toNat ≠ 0 → Does (exec (.opt st) s) (fun t =>
          let n := ((e.extractLsb' 32 16).toNat * ((e.extractLsb' 6 6).toNat + 1) + eps 0 - 1) / eps 0
          begins t (fun c => c.phase = .pull ∧ c.status = 0 ∧ c.ctx = 1) ∧ (t.stack st.toNat).dir = k.dir ∧ t.mem = s.mem
          ∧ ∃ more, { t with stks := s.stks } = s.injectAll (credit ++ reads n (piece src spr sstr) ++ more) ∧ ∀ p ∈ more, p.kind = .rd ∧ p.src = node))
      ∧ (op = 4 → Does (exec (.avsw st) s) (fun t => begins t ready ∧ { t with stks := s.stks } = s.injectAll credit
          ∧ (∀ h, h ≠ handle → Table.get 0 (t.stack st.toNat).dir h = Table.get 0 k.dir h)
          ∧ ∀ i, i < 1024 → (Table.get 0 (t.stack st.toNat).dir handle : BitVec 1024).getLsbD i = if i = 14 then !e.getLsbD 14 else if i = 13 then false else if 64 ≤ i ∧ i < 96 then (W 13).testBit (i - 64) else e.getLsbD i))
      ∧ (op = 15 →
          let lo := st.toNat * 2 ^ 37 + W 12 * 512
          let hi := lo + W 13 * 512
          Does (exec (.scrub st false) s) (fun t => begins t ready ∧ (∀ a, t.memByte a = if lo ≤ a ∧ a < hi then 0 else s.memByte a) ∧ (∀ b, b ∈ t.badMem ↔ b ∈ s.badMem ∧ (b < lo / 64 ∨ hi / 64 ≤ b))
            ∧ (∀ b, b ∈ t.softMem ↔ b ∈ s.softMem ∧ (b < lo / 64 ∨ hi / 64 ≤ b))
            ∧ { t with stks := s.stks, mem := s.mem, badMem := s.badMem, softMem := s.softMem } = s.injectAll credit)
          ∧ Does (exec (.scrub st true) s) (fun t => begins t (fun c => c.status = 5 ∧ c.phase = .write) ∧ ∀ a, t.memByte a = if lo ≤ a ∧ a < hi then 0 else s.memByte a)))

/-- R199, R200, R206, R207, R210, R220 and R221: a command row that arrives enters the ring, or completes with DISABLED while EN = 0; a command whose writes are all answered writes its 64-byte record, or else sends its add and is gone, counted; a read of NERR1 takes the oldest error into the log; EN = 0 is refused with REF while commands stand, HALTQ stops arrivals, and a table write waits while a command references its entry, and leaves the entry's res bits zero (R12, R196). What 0x3100+s:02 counts is log entry 47, and the code that a TENANT entry is logged with log entry 48. -/
def Obligations.NewtEngine : Prop :=
  ∀ (s : State) (st : StackId) (n : Nat) (p : Packet) (c : NCmd) (v : Word) (off : BitVec 21),
    let k := s.stack st.toNat
    let node : NodeId := BitVec.ofNat 11 (if st.toNat < 4 then 0x400 + st.toNat else 0x410 + (st.toNat - 4))
    let only (t : State) : Prop := { t with stks := s.stks } = s ∧ ∀ j, j ≠ st.toNat → t.stack j = s.stack j
    let desc (i : Nat) : BitVec 512 := p.data.extractLsb' (512 * i) 512
    let op (d : BitVec 512) : Nat := (d.extractLsb' 24 8).toNat
    let W (i : Nat) : Nat := (c.desc.extractLsb' (32 * i) 32).toNat
    let answer : Packet := { kind := .wack, size := p.size, tid := p.tid, dst := p.src, dport := p.sport, ddev := p.sdev, src := p.dst, sport := p.dport, sdev := s.own, addr := p.addr }
    let crd : List Packet := if p.op6.getLsbD 18 then [{ kind := .crd, src := node, sport := 1, sdev := s.own, dst := p.src, dport := 1, ddev := p.sdev, op6 := (p.op6.extractLsb' 13 5).setWidth 32, op7 := 1 }] else []
    (Arrives s n p → p.kind = .msg → p.psn = false → targetOf (p.addr.toNat % 2 ^ 46) = .command st.toNat →
      (k.en = true → k.haltq = false → k.ring = [] → k.heldW = [] → op (desc 0) ≤ 4 → Does (exec (.newtCommandRow n false) s) (fun t =>
        { t with stks := s.stks } = (s.sans n).inject answer ∧ (∀ j, j ≠ st.toNat → t.stack j = s.stack j)
        ∧ t.stack st.toNat = { k with nextId := k.nextId + 1, ring := [{ row := p.data, dev := p.sdev, node := p.src, port := p.sport, cm := p.op6.getLsbD 18, entry := p.op6.extractLsb' 13 5, slot := 0, seq := k.nextId }] }))
      ∧ (k.en = true → (k.haltq = true ∨ 128 ≤ k.ring.length) → exec (.newtCommandRow n false) s = .next s)
      ∧ (k.en = false → (∀ i, 0 < i → i < 8 → op (desc i) = 255) → op (desc 0) ≠ 255 → Does (exec (.newtCommandRow n false) s) (fun t =>
        { t with stks := s.stks } = (s.sans n).injectAll (answer :: crd) ∧ (t.stack st.toNat).ring = k.ring
        ∧ ∃ cs d, (t.stack st.toNat).cmds = cs ++ [d] ∧ cs.length = k.cmds.length ∧ (∀ x ∈ k.cmds, x.id ≠ d.id → x ∈ cs) ∧ d.desc = desc 0 ∧ d.status = 7 ∧ d.phase = .write ∧ d.outs = [])))
    ∧ (k.cmds = [c] → c.phase = .write → c.outs = [] → c.reds = [] → k.ring = [] → k.heldW = [] →
      (c.desc.getLsbD 22 = true → Does (exec (.newtCommandComplete st c.id) s) (fun t => ∃ data,
        (t.stack st.toNat).cmds = [{ c with phase := .record, outs := [(k.nextTid, 0)] }] ∧ (∀ j, j ≠ st.toNat → t.stack j = s.stack j)
        ∧ { t with stks := s.stks } = s.inject { s.mkPkt .wr node 1 k.nextTid (BitVec.ofNat 56 ((W 6 + W 7 * 2 ^ 32) % 2 ^ 56)) with size := 5, data }
        ∧ data.toNat = W 0 / 2 ^ 24 * 2 ^ 24 + c.status.toNat + W 0 % 2 ^ 16 * 2 ^ 32 + c.flags.toNat * 2 ^ 64 + c.rows % 2 ^ 32 * 2 ^ 96 + s.beat.bcnt.toNat % 2 ^ 32 * 2 ^ 128))
      ∧ (c.desc.getLsbD 22 = false → op c.desc ≠ 15 → op c.desc ≠ 2 → c.status = 0 → Does (exec (.newtCommandComplete st c.id) s) (fun t =>
        (t.stack st.toNat).cmds = [] ∧ (t.stack st.toNat).errs = k.errs ∧ (t.stack st.toNat).dir = k.dir ∧ (∀ j, j ≠ st.toNat → t.stack j = s.stack j)
        ∧ Table.get 0 t.cnt ((0x3100 + st.toNat) * 256 + 1) = (Table.get 0 s.cnt ((0x3100 + st.toNat) * 256 + 1) + 1) % 2 ^ 64
        ∧ (W 8 % 2 ^ 16 = 0 → t.net = s.net)
        ∧ (W 8 % 2 ^ 16 ≠ 0 → s.resolveDev (BitVec.ofNat 10 (W 9)) = s.own → ∃ q, t.net = s.net ++ [q] ∧ q.kind = .sem ∧ q.ord = true ∧ q.op7 = BitVec.ofNat 32 (W 8 % 2 ^ 16) ∧ q.addr = mkFAddr s.own (semAddr (W 8 / 2 ^ 22) (W 8 / 2 ^ 16 % 64)))))
      ∧ (c.desc.getLsbD 22 = false → op c.desc ≠ 15 → W 8 % 2 ^ 16 = 0 → c.status ≠ 0 → c.status ≠ 8 → k.errs.length < 64 → Does (exec (.newtCommandComplete st c.id) s) (fun t =>
        (t.stack st.toNat).cmds = [] ∧ t.net = s.net ∧ t.mem = s.mem ∧ Table.get 0 t.cnt ((0x3100 + st.toNat) * 256 + 2) = (Table.get 0 s.cnt ((0x3100 + st.toNat) * 256 + 2) + 1) % 2 ^ 64
        ∧ (t.stack st.toNat).errs = k.errs ++ [{ status := c.status, op := c.desc.extractLsb' 24 8, tag := c.desc.extractLsb' 0 16, dev := c.dev, node := c.node, port := c.port, slot := c.desc.extractLsb' 43 9, ten := c.desc.extractLsb' 52 12 }])))
    ∧ (k.errs = [] → exec (.nerr1Read st) s = .next s)
    ∧ (∀ e es, k.errs = e :: es → Does (exec (.nerr1Read st) s) (fun t => t.stack st.toNat = { k with errs := es } ∧ (∀ j, j ≠ st.toNat → t.stack j = s.stack j)
        ∧ ∃ fields, t.log = (s.logEv (if e.status = 3 then 0x1405 else 0x0D01) true fields).log ∧ t.mem = s.mem ∧ t.net = s.net ∧ t.cores = s.cores))
    ∧ Does (exec (.nctlEnWrite st true) s) (fun t => only t ∧ t.stack st.toNat = { k with en := true })
    ∧ Does (exec (.nctlEnWrite st false) s) (fun t => only t ∧ t.stack st.toNat = if k.ring = [] ∧ k.cmds = [] then { k with en := false } else { k with refd := true })
    ∧ (∀ h, Does (exec (.nctlHaltqWrite st h) s) (fun t => only t ∧ t.stack st.toNat = { k with haltq := h }))
    ∧ (off.toNat % 4 = 0 → 0x80000 ≤ off.toNat → off.toNat < 0x100000 → k.ring = [] → k.heldW = [] →
      let i := (off.toNat - 0x80000) / 128
      (k.cmds = [] → Does (exec (.newtTableWrite st off v) s) (fun t => only t ∧ (∀ j, j ≠ i → Table.get 0 (t.stack st.toNat).dir j = Table.get 0 k.dir j)
        ∧ { t.stack st.toNat with dir := k.dir } = { k with nextId := k.nextId + 1 }
        ∧ ∀ b, b < 1024 → (Table.get 0 (t.stack st.toNat).dir i : BitVec 1024).getLsbD b = if b < 6 ∨ 704 ≤ b then false else if 8 * (off.toNat % 128) ≤ b ∧ b < 8 * (off.toNat % 128) + 32 then v.getLsbD (b - 8 * (off.toNat % 128)) else (Table.get 0 k.dir i : BitVec 1024).getLsbD b))
      ∧ (k.cmds = [c] → (op c.desc = 1 ∨ op c.desc = 3 ∨ op c.desc = 4) → W 12 % 2 ^ 12 = i → Does (exec (.newtTableWrite st off v) s) (fun t => only t
        ∧ t.stack st.toNat = { k with nextId := k.nextId + 1, heldW := [(k.nextId, off.toNat, v)] })))

/-- R225, R226 and R242: a refresh changes nothing that a command reads; the patrol reads its next granule, counts a correction, which it writes back, and logs an uncorrectable burst, which stays; at the end of its window the imbalance monitor takes the ratio of the busiest channel, counts windows at or above T, and begins an episode after N of them, counted and logged. The record of an uncorrectable burst names stack, channel and granule, that of an episode stack, channel, ratio and beat counter, each in the smallest field (log entry 28); the hottest channel is the first of the largest count (log entry 196). An uncorrectable read of the command strikes one burst (log entry 50), and one patrol read counts one correction (log entry 134). -/
def Obligations.MemoryControllers : Prop :=
  ∀ (s : State) (st : StackId) (ecc : Ecc),
    let k := s.stack st.toNat
    let sa := k.patrol * 512
    let key := st.toNat * 2 ^ 37 + sa
    let here (b : Nat) : Prop := key / 64 ≤ b ∧ b ≤ (key + 511) / 64
    let sick := ∃ b ∈ s.badMem, here b
    let soft := ∃ b ∈ s.softMem, here b
    let bump (t : State) (i : Nat) : Prop := Table.get 0 t.cnt i = (Table.get 0 s.cnt i + 1) % 2 ^ 64
    let passed (t : State) : Prop := t.stack st.toNat = { k with patrol := (k.patrol + 1) % (0x1200000000 / 512) } ∧ (∀ j, j ≠ st.toNat → t.stack j = s.stack j) ∧ t.mem = s.mem ∧ t.net = s.net ∧ t.cores = s.cores
    let m := s.imb
    let set (sub d : Nat) : Nat := match Table.look s.mgmt.vals (0x301000 + sub) with | some bs => leNat bs | none => d
    let total := (m.n.map (·.2)).sum
    let logged (t : State) : Prop := t.log = (s.logEv 0x0C01 true (lf st.toNat ++ lf ((sa / 512 % 32) ^^^ fold5 (sa / 2 ^ 14)) ++ lf (sa / 2 ^ 14))).log
    let kept := set 2 1024 = m.w ∧ BitVec.ofNat 32 (set 3 0x41000000) = m.t ∧ set 4 4 = m.runs
    let ended := set 1 1 ≠ 0 ∧ m.begun.toNat + m.w ≤ s.beat.bcnt.toNat
    Does (exec (.refresh st) s) (fun t => t.stack st.toNat = { k with refresh := k.refresh + 1 } ∧ (∀ j, j ≠ st.toNat → t.stack j = s.stack j) ∧ { t with stks := s.stks } = s)
    ∧ (¬ sick → (¬ soft → Does (exec (.patrolRead st .clean) s) (fun t => passed t ∧ t.cnt = s.cnt ∧ t.log = s.log ∧ t.badMem = s.badMem ∧ t.softMem = s.softMem))
      ∧ (soft ∨ ecc = .corrected → ecc ≠ .uncorrectable → Does (exec (.patrolRead st ecc) s) (fun t => passed t ∧ bump t (0x300200 + st.toNat + 1) ∧ t.badMem = s.badMem ∧ ∀ b, b ∈ t.softMem ↔ b ∈ s.softMem ∧ ¬ here b))
      ∧ Does (exec (.patrolRead st .uncorrectable) s) (fun t => passed t ∧ bump t (0x300300 + st.toNat + 1) ∧ logged t ∧ ∃ b, here b ∧ ∀ x, x ∈ t.badMem ↔ x ∈ s.badMem ∨ x = b))
    ∧ (sick → Does (exec (.patrolRead st ecc) s) (fun t => passed t ∧ bump t (0x300300 + st.toNat + 1) ∧ logged t ∧ t.badMem = s.badMem))
    ∧ (¬ ended → exec .imbalanceWindowEnd s = .next s)
    ∧ (ended → Does (exec .imbalanceWindowEnd s) (fun t => t.imb.n = [] ∧ t.imb.begun = s.beat.bcnt ∧ t.imb.w = set 2 1024 ∧ t.imb.runs = set 4 4
        ∧ (total < 65536 → t.imb.ratio = 0) ∧ { t with imb := s.imb, cnt := s.cnt, log := s.log } = s
        ∧ (∀ (i : Nat) (x : Nat × Nat), 65536 ≤ total → m.n[i]? = some x → (∀ y ∈ m.n, y.2 ≤ x.2) → t.imb.ratio = toFp32 ((ofInt (x.2 * 256 : Nat)).div (ofInt (total : Nat))))
        ∧ ((∀ y ∈ m.n, y.2 = 0) → t.imb.hot = 0)
        ∧ (∀ (i : Nat) (x : Nat × Nat), m.n[i]? = some x → 0 < x.2 → (∀ y ∈ m.n, y.2 ≤ x.2) → (∀ (j : Nat) (y : Nat × Nat), j < i → m.n[j]? = some y → y.2 < x.2) → t.imb.hot = x.1)
        ∧ (let at_ := !(fp32.decode t.imb.ratio.toNat).lt (fp32.decode m.t.toNat)
           let low := (fp32.decode t.imb.ratio.toNat).lt ((fp32.decode m.t.toNat).scale (-1))
           let above := if at_ then m.above + 1 else 0
           let below := if low then m.below + 1 else 0
           let begins := m.episode = false ∧ m.runs ≤ above
           (kept → t.imb.above = above ∧ t.imb.below = below ∧ (t.imb.episode = true ↔ begins ∨ (m.episode = true ∧ ¬ m.runs ≤ below)))
           ∧ (¬ kept → t.imb.above = 0 ∧ t.imb.below = 0 ∧ t.imb.episode = false)
           ∧ (begins → bump t 0x301007
               ∧ t.log = (s.logEv 0x0C02 true (lf (t.imb.hot / 32) ++ lf (t.imb.hot % 32) ++ bytesOf t.imb.ratio 4 ++ lf s.beat.bcnt.toNat)).log)
           ∧ (¬ begins → t.cnt = s.cnt ∧ t.log = s.log))))

/-! ## Beat unit (chapters 15 and 23) -/

/-- R353, R355, R356, R365, R366, R400, R401 and R525: an internal master generates boundary b at G_(b-1) + PERIOD + STR, sends its marker twice on every port open to control flits, and counts a stretch; a BEAT_IN edge closer than 900 cc is ignored and counted, and waits as one not on time where the lock is looking for BEAT_IN (log entry 175), and another one is a received boundary or generates one; a link follower forwards each marker once and takes the first good one of PORT; a HOLD is relayed once, and the master gathers it for the boundary that its cutoff allows. A received boundary waits for the cycle COMP after it, the time that the lock and its application take for it; with EN = 0 no boundary is generated. The number of a marker counts the boundaries that still wait for application (DEDUCED, log entry 120). With EN = 0 the lock goes on by the boundaries that would be applied, and a master keeps its grid (log entries 68 and 164); an external master sends its first marker as it locks (log entry 163). -/
def Obligations.BoundariesGeneratedAndReceived : Prop :=
  ∀ (s : State) (p : PortId) (f : CtlFlit),
    let b := s.beat
    let now := b.devt.toNat
    let period := b.period.toNat
    let isOpen (n : Nat) : Bool := decide ((s.port n).st = .ident) || decide ((s.port n).st = .active) || decide ((s.port n).st = .drain)
    let flits (but : Option Nat) (g : CtlFlit) : List (Nat × CtlFlit) :=
      ((List.range 18).filter (fun n => isOpen n && decide (some n ≠ but))).flatMap (fun n => [(n, { g with copy := 1 }), (n, { g with copy := 0 })]) ++ b.sent
    let bumped (t : State) (i n : Nat) : Prop := Table.get 0 t.cnt i = (Table.get 0 s.cnt i + n) % 2 ^ 64
    let generates (t : State) (e : Option Nat) (g str : Nat) : Prop :=
      let number := (if b.first || b.resync then b.rsb else b.bcnt + 1) + BitVec.ofNat 64 (b.toApply.countP (fun d => !d.early))
      t.beat = { b with lastEdge := e, lock := .locked, lastGen := g, gather := b.gatherN, gatherN := 0, strEp := decide (str ≠ 0), skipAt := none, toApply := b.toApply ++ [{ time := g + b.comp.toNat, beat := none, str := str }], sent := flits none { type := 1, orig := s.own.setWidth 16, val := BitVec.ofNat 16 str, beat := number } }
      ∧ { t with beat := s.beat, cnt := s.cnt, log := s.log } = s ∧ (str = 0 → t.cnt = s.cnt ∧ t.log = s.log)
      ∧ (str ≠ 0 → bumped t 0x100306 1 ∧ bumped t 0x100307 str ∧ (b.strEp = true → t.log = s.log) ∧ (b.strEp = false → ∃ fields, t.log = (s.logEv 0x0F04 false fields).log))
    let receives (t : State) (b0 : Beat) (at_ str : Nat) (n : Option DWord) : Prop :=
      let due : Due := { time := at_, beat := n, str := str }
      t.beat = { b0 with toApply := b.toApply ++ [due] } ∧ { t with beat := s.beat } = s
    let str := min b.gather (min b.strmax.toNat period)
    let g := b.lastGen + period + str
    (b.role = 0 → b.en = true → g ≤ now → Does (exec .boundaryGenerate s) (fun t => generates t b.lastEdge g str))
    ∧ ((b.role ≠ 0 ∨ b.en = false ∨ now < g) → exec .boundaryGenerate s = .next s)
    ∧ (∀ e, b.lastEdge = some e → now < e + 900 → Does (exec .beatInEdge s) (fun t => bumped t 0x100309 1 ∧ { t with beat := s.beat, cnt := s.cnt } = s
        ∧ ((b.role = 1 ∨ b.role = 2) → b.lock = .nolock → t.beat = { b with toApply := b.toApply ++ [{ time := now + b.comp.toNat, beat := none, str := 0, early := true }] })
        ∧ ((b.role = 0 ∨ b.role = 3 ∨ b.lock ≠ .nolock) → t.beat = b)))
    ∧ ((∀ e, b.lastEdge = some e → e + 900 ≤ now) →
        let b0 := { b with lastEdge := some now }
        ((b.role = 0 ∨ b.role = 3) → exec .beatInEdge s = .next { s with beat := b0 })
        ∧ (b.role = 2 → Does (exec .beatInEdge s) (fun t => receives t b0 (now + b.comp.toNat) 0 none))
        ∧ (b.role = 1 → b.lock = .locked →
            (now + 64 < b.lastGen + period → exec .beatInEdge s = .next { s with beat := b0 })
            ∧ (b.lastGen + period ≤ now + 64 → b.skipAt = none → b.gather = 0 → b.en = true → Does (exec .beatInEdge s) (fun t => generates t (some now) now 0))
            ∧ (b.lastGen + period ≤ now + 64 → b.skipAt = none → b.gather ≠ 0 → exec .beatInEdge s = .next { s with beat := { b0 with skipAt := some now } })
            ∧ (∀ e, b.lastGen + period ≤ now + 64 → b.skipAt = some e → b.en = true → Does (exec .beatInEdge s) (fun t => generates t (some now) now (now - e)))
            ∧ (b.lastGen + period ≤ now + 64 → b.skipAt = none → b.gather = 0 → b.en = false → Does (exec .beatInEdge s) (fun t => receives t { b0 with lastGen := now } (now + b.comp.toNat) 0 none)))
        ∧ (b.role = 1 → b.lock ≠ .locked → Does (exec .beatInEdge s) (fun t => receives t { b0 with lastGen := now } (now + b.comp.toNat) 0 none)))
    ∧ (isOpen p.val = true → (f.crc = false ∨ f.type = 0 ∨ 4 ≤ f.type.toNat) → ∀ i, i ∈ [Instr.beatMarker p f, .holdFlit p f, .identFlit p f] →
        Does (exec i s) (fun t => bumped t ((0x5100 + p.val) * 256 + 0x0A) 1 ∧ { t with cnt := s.cnt } = s))
    ∧ (isOpen p.val = false → ∀ i, i ∈ [Instr.beatMarker p f, .holdFlit p f, .identFlit p f] → exec i s = .next s)
    ∧ (isOpen p.val = true → f.crc = true → f.type = 1 →
        let b1 := if f.beat ∈ b.markers then b else { b with markers := f.beat :: b.markers, sent := flits (some p.val) f }
        (b.role ≠ 3 → exec (.beatMarker p f) s = .next s)
        ∧ (b.role = 3 → (b.port.toNat ≠ p.val ∨ f.beat ∈ b.taken) → exec (.beatMarker p f) s = .next { s with beat := b1 })
        ∧ (b.role = 3 → b.port.toNat = p.val → f.beat ∉ b.taken → Does (exec (.beatMarker p f) s) (fun t => receives t { b1 with taken := f.beat :: b.taken } (now + b.comp.toNat) f.val.toNat (some f.beat))))
    ∧ (isOpen p.val = true → f.crc = true → f.type = 2 →
        let key := (f.orig &&& 0x3FF, f.beat, f.val)
        let cc := 64 * f.val.toNat
        let inTime := now + 16 * b.hcut.toNat ≤ b.lastGen + period
        (key ∈ b.relayed → exec (.holdFlit p f) s = .next s)
        ∧ (key ∉ b.relayed → exec (.holdFlit p f) s = .next { s with beat := { b with relayed := key :: b.relayed, sent := flits (some p.val) f, gather := if b.role.toNat ≤ 1 ∧ inTime then max b.gather cc else b.gather, gatherN := if b.role.toNat ≤ 1 ∧ ¬ inTime then max b.gatherN cc else b.gatherN } }))

/-- R349, R350, R355, R356, R363, R367 and R368: an applied boundary numbers the beat, computes LAG with the slack of the beat's variant and its own stretch, clears STALLB, counts a pulse of BEAT_OUT and has BEATL follow 64 cc later, but in beat HOLD, which LAG above LAGMAX * PERIOD enters, with the updates that wait dropped, and a resynchronisation leaves, and ends HOLD where no hold cause is set (DEDUCED from R451, log entry 66); with EN = 0 nothing changes but the lock's clock. The lock judges each boundary at its time: in NOLOCK it locks after four on time, which is the boundary of BT_RSB or of the marker's number, and an external master then generates its first one (DEDUCED, log entry 163); in FLYWHEEL the next expected one relocks and is applied, the one in progress relocks, and any other loses the lock and enters beat HOLD; in LOST nothing changes. FLYWHEEL is entered 2 * PERIOD + 64 cc after the last boundary and applies one at once, then one each PERIOD; the sixteenth loses the lock. With EN = 0 the lock counts beats from BCNT on and the first number stays due (log entry 164), the sixteenth flywheel boundary loses the lock (log entry 69), and an entry to beat HOLD delivers no BEATL update (log entry 70). -/
def Obligations.BoundariesApplied : Prop :=
  ∀ (s : State),
    let b := s.beat
    let now := b.devt.toNat
    let period := b.period.toNat
    let slack := b.slack.toNat / 2 ^ (16 * (s.loader.var % 4)) % 2 ^ 16
    let late := b.lastApp + 2 * period + 64
    let bumped (t : State) (i : Nat) : Prop := Table.get 0 t.cnt i = (Table.get 0 s.cnt i + 1) % 2 ^ 64
    let lagOf (str : Nat) : Nat := min (2 ^ 24 - 1) (b.lag.toNat + b.stallb.toNat - slack - str)
    let applied (t : State) (n : DWord) (lag at_ : Nat) (resync : Bool) : Prop :=
      t.beat.bcnt = n ∧ t.beat.lag.toNat = lag ∧ t.beat.stallb = 0 ∧ t.beat.lastApp = at_ ∧ t.beat.pulses = b.pulses + 1 ∧ t.beat.first = false ∧ t.beat.resync = (b.resync && !resync)
      ∧ t.beat.lagEp = decide (lag ≠ 0) ∧ t.beat.devt = b.devt ∧ t.beat.frz = b.frz ∧ t.beat.reqs = b.reqs ∧ t.cores = s.cores ∧ (s.dev.st = .hold → t.dev.st = if t.dev.holds = 0 then .run else .hold)
    let exceeds (lag : Nat) : Prop := b.lagmax.toNat * period < lag
    let delivers (t : State) (n : DWord) (at_ : Nat) : Prop := t.beat.beatl = b.beatl ++ [(at_ + 64, n.setWidth 32)]
    (∀ d ds, b.toApply = d :: ds → d.early = false → d.time ≤ now → b.lock = .locked → b.en = true →
        (b.resync = true → Does (exec .beatBoundaryApply s) (fun t => applied t b.rsb 0 d.time true ∧ t.beat.bhold = false ∧ delivers t b.rsb d.time ∧ t.beat.toApply = ds ∧ t.beat.lock = .locked))
        ∧ (b.resync = false →
            let n := if b.first then (if b.role = 3 then d.beat.getD b.rsb else b.rsb) else b.bcnt + 1
            Does (exec .beatBoundaryApply s) (fun t => applied t n (lagOf d.str) d.time false ∧ t.beat.toApply = ds ∧ t.beat.lock = .locked
              ∧ (b.bhold = true → t.beat.bhold = true ∧ t.beat.beatl = b.beatl)
              ∧ (b.bhold = false → exceeds (lagOf d.str) → t.beat.bhold = true ∧ t.beat.beatl = [] ∧ (s.dev.st = .run → t.dev.st = .hold))
              ∧ (b.bhold = false → ¬ exceeds (lagOf d.str) → t.beat.bhold = false ∧ delivers t n d.time))))
    ∧ (∀ d ds, b.toApply = d :: ds → d.early = false → d.time ≤ now → b.lock = .locked → b.en = false → exec .beatBoundaryApply s = .next { s with beat := { b with toApply := ds, lastApp := d.time, heldB := d.beat.getD (b.heldB + 1) } })
    ∧ (∀ d ds, b.toApply = d :: ds → d.early = true → d.time ≤ now → exec .beatBoundaryApply s = .next { s with beat := { b with toApply := ds, onTime := if b.lock = .nolock then 0 else b.onTime } })
    ∧ ((b.toApply = [] ∨ ∃ d ds, b.toApply = d :: ds ∧ now < d.time) → exec .beatBoundaryApply s = .next s)
    ∧ (∀ d ds, b.toApply = d :: ds → d.early = false → d.time ≤ now →
        let b0 := { b with toApply := ds }
        let only (x : Beat) : Prop := exec .beatBoundaryApply s = .next { s with beat := x }
        (b.lock = .lost → only b0)
        ∧ (b.lock = .nolock → b.refTime = none → only { b0 with refTime := some d.time, onTime := 0 })
        ∧ (∀ r, b.lock = .nolock → b.refTime = some r →
            let good := r + period ≤ d.time + 64 ∧ d.time ≤ r + period + 64 + d.str
            (¬ good → only { b0 with refTime := some d.time, onTime := 0 })
            ∧ (good → b.onTime < 3 → only { b0 with refTime := some d.time, onTime := b.onTime + 1 })
            ∧ (good → 3 ≤ b.onTime → Does (exec .beatBoundaryApply s) (fun t => t.beat.lock = .locked ∧ t.beat.refTime = none ∧ t.beat.onTime = 0 ∧ t.beat.fly = 0 ∧ t.beat.lastApp = d.time ∧ t.beat.toApply = ds ∧ t.cores = s.cores
              ∧ (b.en = false → t.beat.first = true ∧ t.beat.bcnt = b.bcnt ∧ t.beat.sent = b.sent)
              ∧ (b.en = true → t.beat.first = false ∧ t.beat.bcnt = if b.role = 3 ∧ b.resync = false then d.beat.getD b.rsb else b.rsb)
              ∧ (b.en = true → b.role = 1 → (∀ n, (s.port n).st = .active → n < 18 → ∀ k, k < 2 → (n, ({ type := 1, copy := BitVec.ofNat 8 k, orig := s.own.setWidth 16, beat := b.rsb } : CtlFlit)) ∈ t.beat.sent)))))
        ∧ (b.lock = .flywheel →
            let cur := if b.en then b.bcnt else b.heldB
            let near (x : Nat) : Prop := d.time ≤ x + 64 ∧ x ≤ d.time + 64
            let next : Prop := match d.beat with | some x => x = cur + 1 | none => near (b.lastApp + period)
            let past : Prop := match d.beat with | some x => x.toNat ≤ cur.toNat | none => near b.lastApp
            (next → Does (exec .beatBoundaryApply s) (fun t => t.beat.lock = .locked ∧ t.beat.fly = 0 ∧ t.beat.lastApp = d.time ∧ t.cores = s.cores ∧ t.beat.bcnt = if b.en = false then b.bcnt else if b.resync then b.rsb else if b.first then (if b.role = 3 then d.beat.getD b.rsb else b.rsb) else b.bcnt + 1))
            ∧ (¬ next → past → only { b0 with lock := .locked, fly := 0, lastApp := d.time })
            ∧ (¬ next → ¬ past → Does (exec .beatBoundaryApply s) (fun t => t.beat = { b0 with lock := .lost, bhold := true, beatl := [] } ∧ { t with beat := s.beat, log := s.log, dev := s.dev, cnt := s.cnt } = s ∧ (s.dev.st = .run → t.dev.st = .hold)))))
    ∧ (b.lock = .locked → b.role ≠ 0 → (∀ d ∈ b.toApply, late < d.time) → late < now → b.en = true → b.first = false → Does (exec .flywheelEntry s) (fun t =>
        applied t (b.bcnt + 1) (lagOf 0) now false ∧ t.beat.lock = .flywheel ∧ t.beat.fly = 1 ∧ bumped t 0x100308 ∧ (b.bhold = false → ¬ exceeds (lagOf 0) → delivers t (b.bcnt + 1) now)))
    ∧ (b.lock = .locked → b.role ≠ 0 → (∀ d ∈ b.toApply, late < d.time) → late < now → b.en = false → Does (exec .flywheelEntry s) (fun t =>
        t.beat = { b with lock := .flywheel, fly := 1, lastApp := now, heldB := b.heldB + 1 } ∧ Table.get 0 t.cnt 0x100308 = Table.get 0 s.cnt 0x100308 ∧ { t with beat := s.beat, log := s.log, cnt := s.cnt } = s))
    ∧ ((b.lock ≠ .locked ∨ b.role = 0 ∨ (∃ d ∈ b.toApply, d.time ≤ late) ∨ now ≤ late) → exec .flywheelEntry s = .next s)
    ∧ (b.lock = .flywheel → b.lastApp + period ≤ now → b.en = true → b.first = false → Does (exec .flywheelBoundary s) (fun t =>
        applied t (b.bcnt + 1) (lagOf 0) (b.lastApp + period) false ∧ t.beat.fly = b.fly + 1 ∧ bumped t 0x100308
        ∧ (b.fly < 15 → t.beat.lock = .flywheel) ∧ (15 ≤ b.fly → t.beat.lock = .lost ∧ t.beat.bhold = true ∧ t.beat.beatl = [] ∧ (s.dev.st = .run → t.dev.st = .hold))))
    ∧ ((b.lock ≠ .flywheel ∨ now < b.lastApp + period) → exec .flywheelBoundary s = .next s)
    ∧ (b.frz = true → exec .beatlUpdate s = .next s)
    ∧ (∀ xs u ys, b.frz = false → b.beatl = xs ++ u :: ys → (∀ x ∈ xs, x.1 ≤ now) → u.1 ≤ now → (∀ y ∈ ys, now < y.1) → Does (exec .beatlUpdate s) (fun t =>
        t.beat = { b with beatl := ys } ∧ { t with beat := s.beat, cores := s.cores } = s
        ∧ ∀ c : CoreId, t.core c = if s.coreOn c.toNat then { s.core c with cpu := { (s.core c).cpu with beatl := u.2, intp := (s.core c).cpu.intp ||| 2 } } else s.core c))

/-- R358, R360, R362 and R364: a core whose issue is held longer than GRACE sends a request; the first request that reaches the beat unit names a freeze 64 cc later or cancels a named resume, the last withdrawal names the resume or ends a freeze not yet begun; a freeze begins in its named cycle, ends in the named one or after STOUT, whose requests are then masked; each resume, and each 512 cc of freeze, sends a HOLD of E rounded up to 64 cc where it exceeds every one sent for the beat. -/
def Obligations.StallAndFreeze : Prop :=
  ∀ (s : State) (c : CoreId) (n : Nat) (p : Packet),
    let b := s.beat
    let now := b.devt.toNat
    let r := (s.core c).run
    let bumped (t : State) (i : Nat) : Prop := Table.get 0 t.cnt i = (Table.get 0 s.cnt i + 1) % 2 ^ 64
    let slack := b.slack.toNat / 2 ^ (16 * (s.loader.var % 4)) % 2 ^ 16
    let e := b.lag.toNat + b.stallb.toNat - slack
    let units := min 0xFFFF ((e + 63) / 64)
    let sends : Prop := 0 < e ∧ b.bhold = false ∧ s.dev.st ≠ .fault ∧ b.holdMax < units
    let held : Prop := r.wait = .rows ∨ (r.wait = .none ∧ ∃ m, r.hold = .rows m) ∨ (∃ w, r.wait = .load w ∧ s.holdOver c = false) ∨ (∃ m, r.wait = .fence m ∧ s.holdOver c = false)
    let src : StallSrc := if p.op6.getLsbD 16 then .hold (BitVec.ofNat 10 p.op6.toNat) else .wait (BitVec.ofNat 10 p.op6.toNat)
    let comes (verb : Nat) : Prop := Arrives s n p ∧ p.kind = .ctl ∧ p.dst = 0x408 ∧ p.op6.toNat / 2 ^ 28 = verb
    let resumed (t : State) : Prop := t.beat.frz = false ∧ t.beat.resumeAt = none ∧ t.beat.frzLen = 0 ∧ t.beat.stallb = b.stallb ∧ t.beat.devt = b.devt ∧ t.beat.bcnt = b.bcnt ∧ t.mem = s.mem
      ∧ (t.dev.st = s.dev.st → t.stks = s.stks ∧ t.beat.holdMax = if sends then units else b.holdMax)
    (s.coreOn c.toNat = true → r.st = .running → held → r.stall = false → b.grace.toNat < r.held → b.frz = false → Does (exec (.responseHoldRequest c) s) (fun t =>
        t.core c = { s.core c with run := { r with stall := true } } ∧ (∀ d, d ≠ c → t.core d = s.core d)
        ∧ { t with cores := s.cores } = { s with net := s.net ++ [{ kind := .ctl, src := BitVec.ofNat 11 c.toNat, sport := 3, sdev := s.own, dst := 0x408, ddev := s.own, op6 := BitVec.ofNat 32 (2 ^ 28 + 2 ^ 16 + c.toNat) }] }))
    ∧ ((r.stall = true ∨ r.held ≤ b.grace.toNat ∨ b.frz = true) → exec (.responseHoldRequest c) s = .next s)
    ∧ (comes 1 → Does (exec (.stallRequest n false) s) (fun t => { t with beat := s.beat } = s.sans n
        ∧ (b.reqs ≠ [] → t.beat = { b with reqs := b.reqs ++ [src] })
        ∧ (b.reqs = [] → b.sten = false → t.beat = { b with reqs := [src] })
        ∧ (b.reqs = [] → b.sten = true → t.beat = { b with reqs := [src], resumeAt := none, freezeAt := if b.frz = false ∧ b.freezeAt = none then some (now + 64) else b.freezeAt })))
    ∧ (comes 2 → Does (exec (.stallWithdraw n false) s) (fun t => { t with beat := s.beat } = s.sans n
        ∧ (src ∈ b.masked → t.beat = { b with masked := b.masked.erase src })
        ∧ (src ∉ b.masked → (b.reqs.erase src ≠ [] ∨ b.reqs = []) → t.beat = { b with reqs := b.reqs.erase src })
        ∧ (src ∉ b.masked → b.reqs = [src] → b.frz = false → t.beat = { b with reqs := [], freezeAt := none })
        ∧ (src ∉ b.masked → b.reqs = [src] → b.frz = true → t.beat = { b with reqs := [], resumeAt := some (b.resumeAt.getD (now + 64)) })))
    ∧ (∀ f, b.freezeAt = some f → f ≤ now → b.frz = false → Does (exec .freezeBegin s) (fun t => bumped t 0x100303 ∧ { t with beat := s.beat, cnt := s.cnt, cores := s.cores } = s
        ∧ t.beat = { b with frz := true, freezeAt := none, frzLen := 0, holdCyc := 0, beatl := b.beatl.filter (fun (u : Nat × Word) => decide (f < u.1)) }
        ∧ ((∀ u ∈ b.beatl, f < u.1) → t.cores = s.cores)))
    ∧ ((b.freezeAt = none ∨ b.frz = true) → exec .freezeBegin s = .next s)
    ∧ (∀ w, b.resumeAt = some w → b.frz = true → w ≤ now → Does (exec .freezeResume s) (fun t => resumed t ∧ t.beat.reqs = b.reqs ∧ t.beat.masked = b.masked ∧ t.beat.tout = b.tout))
    ∧ ((b.resumeAt = none ∨ b.frz = false) → exec .freezeResume s = .next s)
    ∧ (b.frz = true → (if b.stout = 0 then 2 ^ 32 else b.stout.toNat) ≤ b.frzLen → b.resumeAt = none → Does (exec .freezeTimeout s) (fun t => resumed t ∧ t.beat.reqs = [] ∧ t.beat.masked = b.masked ++ b.reqs ∧ t.beat.tout = true ∧ bumped t 0x100304))
    ∧ ((b.frz = false ∨ b.frzLen < (if b.stout = 0 then 2 ^ 32 else b.stout.toNat) ∨ b.resumeAt ≠ none) → exec .freezeTimeout s = .next s)
    ∧ (b.frz = true → 512 ≤ b.holdCyc →
        let b' := { b with holdCyc := b.holdCyc - 512 }
        (¬ sends → exec .holdRepeat s = .next { s with beat := b' })
        ∧ (sends → b.role.toNat ≤ 1 → Does (exec .holdRepeat s) (fun t => { t with beat := s.beat } = s
            ∧ t.beat = if now + 16 * b.hcut.toNat ≤ b.lastGen + b.period.toNat then { b' with holdMax := units, gather := max b.gather (64 * units) } else { b' with holdMax := units, gatherN := max b.gatherN (64 * units) }))
        ∧ (sends → 2 ≤ b.role.toNat → Does (exec .holdRepeat s) (fun t => { t with beat := s.beat, cnt := s.cnt } = s ∧ bumped t 0x100305 ∧ { t.beat with sent := b.sent } = { b' with holdMax := units }
            ∧ ∀ q, (s.port q).st = .active → q < 18 → ∀ k, k < 2 → (q, ({ type := 2, copy := BitVec.ofNat 8 k, orig := s.own.setWidth 16, val := BitVec.ofNat 16 units, beat := b.bcnt } : CtlFlit)) ∈ t.beat.sent)))

/-- R356, R357, R358, R368, R379 and R391: RESYNC waits for a boundary and starts a lost lock over; ROLE, PORT and PERIOD are refused whole in RUN and outside their ranges, and a change of ROLE, or a write of it in LOST, starts the lock over (DEDUCED, log entry 67); STEN set with requests in force names a freeze, and cleared during one names the resume; EN keeps everything else; RUN starts a stopped core at RC_PC, and STOP stops a running one, an mm with the next row it would have requested (R96); the power controller writes the variant of the next beat into the ring. RUN starts any core that is not running (log entry 79), and EN = 0 leaves the lock's clock going (log entries 68 and 164). -/
def Obligations.BeatAndRunControlWrites : Prop :=
  ∀ (s : State) (c : CoreId) (ctl cfg : Word) (v : Bool),
    let b := s.beat
    let now := b.devt.toNat
    let k := s.core c
    let role := ctl.extractLsb' 28 2
    let port := ctl.extractLsb' 23 5
    let period := cfg.extractLsb' 0 15
    let same : Prop := role = b.role ∧ port = b.port ∧ period = b.period
    let legal : Prop := port.toNat < 18 ∧ 1125 ≤ period.toNat ∧ period.toNat ≤ 18000
    let onlyCore (t : State) : Prop := (∀ d, d ≠ c → t.core d = s.core d) ∧ { t with cores := s.cores } = s
    (b.lock ≠ .lost → exec .btResync s = .next { s with beat := { b with resync := true } })
    ∧ (b.lock = .lost → Does (exec .btResync s) (fun t => t.beat.resync = true ∧ t.beat.lock = .nolock ∧ t.beat.refTime = none ∧ t.beat.toApply = [] ∧ t.beat.first = true ∧ t.beat.bcnt = b.bcnt ∧ { t with beat := s.beat } = s))
    ∧ ((¬ legal ∨ (s.dev.st = .run ∧ ¬ same)) → exec (.btRoleWrite ctl cfg) s = .next s)
    ∧ (legal → same → b.lock ≠ .lost → exec (.btRoleWrite ctl cfg) s = .next { s with beat := { b with comp := cfg.extractLsb' 16 12 } })
    ∧ (legal → s.dev.st ≠ .run → role = b.role → b.lock ≠ .lost → exec (.btRoleWrite ctl cfg) s = .next { s with beat := { b with port := port, period := period, comp := cfg.extractLsb' 16 12 } })
    ∧ (legal → (s.dev.st ≠ .run ∨ same) → (role ≠ b.role ∨ b.lock = .lost) → Does (exec (.btRoleWrite ctl cfg) s) (fun t => t.beat.role = role ∧ t.beat.port = port ∧ t.beat.period = period ∧ t.beat.comp = cfg.extractLsb' 16 12
        ∧ t.beat.lock = .nolock ∧ t.beat.toApply = [] ∧ t.beat.bcnt = b.bcnt ∧ t.beat.en = b.en ∧ t.beat.sten = b.sten ∧ t.beat.grace = b.grace ∧ { t with beat := s.beat } = s))
    ∧ Does (exec (.btStenWrite true) s) (fun t => { t with beat := s.beat } = s
        ∧ ((b.sten = true ∨ b.reqs = []) → t.beat = { b with sten := true })
        ∧ (b.sten = false → b.reqs ≠ [] → t.beat = { b with sten := true, resumeAt := none, freezeAt := if b.frz = false ∧ b.freezeAt = none then some (now + 64) else b.freezeAt }))
    ∧ Does (exec (.btStenWrite false) s) (fun t => { t with beat := s.beat } = s
        ∧ (b.sten = false → t.beat = b) ∧ (b.sten = true → b.frz = false → t.beat = { b with sten := false, freezeAt := none })
        ∧ (b.sten = true → b.frz = true → t.beat = { b with sten := false, resumeAt := some (b.resumeAt.getD (now + 64)) }))
    ∧ Does (exec (.btEnWrite v) s) (fun t => t.beat.en = v ∧ { t.beat with en := b.en, lastGen := b.lastGen, heldB := b.heldB } = b ∧ t.beat.heldB = (if b.en = true ∧ v = false then b.bcnt else b.heldB) ∧ { t with beat := s.beat } = s ∧ ((v = false ∨ b.en = true ∨ b.role ≠ 0) → t.beat.lastGen = b.lastGen))
    ∧ (s.coreOn c.toNat = true →
        (k.run.st = .running → Does (exec (.rcRun c v) s) (fun t => t.core c = k ∧ onlyCore t))
        ∧ (k.run.st ≠ .running → Does (exec (.rcRun c v) s) (fun t => onlyCore t
            ∧ t.core c = { k with cpu := { k.cpu with pc := k.run.rcpc, sup := v, rso := true, ie := false, shadow := false }, run := { k.run with st := .running, hold := .none, wait := .none, held := 0, stopRq := false, due := none }, que := { k.que with qswc := 0, stalled := false } }))
        ∧ (k.run.st ≠ .running → exec (.rcStop c) s = .next s)
        ∧ (k.run.st = .running → (b.frz = true ∨ k.run.saving ≠ [] ∨ k.run.due ≠ none) → Does (exec (.rcStop c) s) (fun t => onlyCore t ∧ t.core c = { k with run := { k.run with stopRq := true } }))
        ∧ (k.run.st = .running → b.frz = false → k.run.saving = [] → k.run.due = none → k.run.hold = .none → k.run.stall = false → Does (exec (.rcStop c) s) (fun t => onlyCore t
            ∧ t.core c = { k with run := { k.run with st := .stopped, spc := k.cpu.pc, hold := .none, wait := .none, held := 0, stopRq := false } }))
        ∧ (∀ tile a u v' w next passes pc, k.run.st = .running → b.frz = false → k.run.saving = [] → k.run.due = none → k.run.hold = .mm tile a u v' w next passes pc → k.run.stall = false → Does (exec (.rcStop c) s) (fun t => onlyCore t
            ∧ (t.core c).run = { k.run with st := .stopped, spc := pc, hold := .none, wait := .none, held := 0, stopRq := false } ∧ (t.core c).cpu = k.cpu
            ∧ (t.core c).mat.tile tile = { k.mat.tile tile with inuse := true, srow := BitVec.ofNat 16 next } ∧ ∀ x, x ≠ tile → (t.core c).mat.tile x = k.mat.tile x)))
    ∧ (s.coreOn c.toNat = false → exec (.rcRun c v) s = .next s ∧ exec (.rcStop c) s = .next s)
    ∧ ((s.loader.image = none ∨ s.loader.img ≠ 4 ∨ b.lastApp + b.period.toNat < now + 256) → exec .variantChoice s = .next s)
    ∧ (∀ im, s.loader.image = some im → s.loader.img = 4 → now + 256 ≤ b.lastApp + b.period.toNat → Does (exec .variantChoice s) (fun t =>
        Table.get 3 t.loader.ring ((b.bcnt.toNat + 1) % 2 ^ 32) = s.choose im ∧ t.beat = s.beat ∧ t.cores = s.cores ∧ t.mem = s.mem))

/-! ## Links (chapter 17) -/

/-- R398, R402 to R405, R407, R411 and R414: each port moves through the states of Table 17.5 on success, on loss of alignment and on the limits of time, failures and retraining logged with Croak and their cause; EN = 0 drains an active or retraining port, which ends in OFF when every packet is sent and every frame that carries packet data acknowledged (log entry 190), or after 100 µs with cause DTMO; the retry timer replays from the oldest frame of a port that sends frames, and the eighth replay from one SEQ retrains an active port; 64 IDENT round trips, counted by echoes of what this pass has sent (log entry 83), with both IDs assigned and different make a port active; a route entry that names a port above 17 is refused. R397 to R399, R409 and R414: a bad frame is discarded whole and asks for a replay; the trailer of a good one frees the frames it acknowledges, takes the freed-flit counts, which hold from the next cycle on, and has the replay it asks for follow the frame in progress; only a frame with the SEQ expected delivers; the flits of a packet return as credits when it leaves the rim unit; a pending control flit takes the next slot, and a frame ends with its trailer and is kept; a packet of a reserved kind is dropped, counted and logged. EN = 0 before ACTIVE goes to OFF at once (log entry 81), a frame takes 45 cc and a control flit its next slot (log entry 82), and a packet holds the receive buffer until its first link (log entry 191). -/
def Obligations.LinkPorts : Prop :=
  (∀ (s : State) (p : PortId) (v : Bool) (f : CtlFlit) (dev : BitVec 10) (w : Word),
    let t0 := s.port p
    let now := s.beat.devt.toNat
    let lasted (st : PortSt) (cc : Nat) : Prop := t0.st = st ∧ t0.since + cc ≤ now
    let others (t : State) : Prop := ∀ q, q ≠ p.val → t.port q = s.port q
    let quiet (t : State) : Prop := others t ∧ { t with links := s.links } = s
    let logged (t : State) : Prop := { t with links := s.links, log := s.log, cnt := s.cnt } = s ∧ others t ∧ ∃ fields, t.log = (s.logEv 0x0E01 true fields).log
    let bumped (t : State) (sub : Nat) : Prop := Table.get 0 t.cnt ((0x5100 + p.val) * 256 + sub) = (Table.get 0 s.cnt ((0x5100 + p.val) * 256 + sub) + 1) % 2 ^ 64
    let trained (q : Port) : Prop := q.st = .train ∧ q.since = now ∧ q.txSeq = 0 ∧ q.rxSeq = 0 ∧ q.retry = [] ∧ q.queue = [] ∧ q.cur = [] ∧ q.tx0 = 0 ∧ q.tx1 = 0 ∧ q.tx2 = 0 ∧ q.fr0 = 0 ∧ q.fr1 = 0 ∧ q.fr2 = 0 ∧ q.cr0 = 0 ∧ q.cr1 = 0 ∧ q.cr2 = 0 ∧ q.line = none ∧ q.idSent = [] ∧ q.trips = 0
    let noData (xs : List Slot) : Prop := ∀ x ∈ xs, (∀ q, x ≠ .hdr q) ∧ (∀ d, x ≠ .dat d)
    let drained : Prop := t0.queue = [] ∧ t0.cur = [] ∧ (∀ x ∈ t0.retry, noData x.slots) ∧ (∀ l, t0.line = some l → l.kept = none → noData l.slots)
    let framed : Prop := t0.st = .align ∨ t0.st = .ident ∨ t0.st = .active ∨ t0.st = .drain
    let fails (i : Instr) (cause : Nat) : Prop := Does (exec i s) (fun t => logged t ∧ t.port p = { t0 with st := if t0.en then .failed else .off, cause := BitVec.ofNat 4 cause, since := now })
    let retrains (i : Instr) (cause : BitVec 4) : Prop := Does (exec i s) (fun t => logged t ∧ bumped t 7
      ∧ (t0.line = none → t.port p = { t0 with st := .retrain, since := now, cause := cause, rplCnt := 0 })
      ∧ (∀ l, t0.line = some l → l.kept ≠ none → t.port p = { t0 with st := .retrain, since := now, cause := cause, rplCnt := 0, line := none })
      ∧ (∀ l, t0.line = some l → l.kept = none → t.port p = { t0 with st := .retrain, since := now, cause := cause, rplCnt := 0, line := none, txSeq := t0.txSeq + 1, retry := t0.retry ++ [{ seq := l.seq, slots := l.slots, ends := l.ends, sent := now }] }))
    (lasted .train 0 → Does (exec (.trainSuccess p) s) (fun t => quiet t ∧ t.port p = { t0 with st := .align, since := now }))
    ∧ (lasted .align 0 → Does (exec (.alignLock p) s) (fun t => quiet t ∧ t.port p = { t0 with st := .ident, since := now, trips := 0, maxTrip := 0, lastId := 0, lastAt := 0, idSent := [] }))
    ∧ (lasted .train 450000000 → fails (.trainTimeout p) 1)
    ∧ (lasted .align 2250000 → fails (.alignTimeout p) 2)
    ∧ (lasted .active 0 → retrains (.alignmentLost p) 3 ∧ retrains (.lpRetr p) t0.cause)
    ∧ (∀ seq, lasted .retrain 0 → Does (exec (.retrainComplete p seq) s) (fun t => quiet t ∧ (t.port p).st = .active ∧ (t.port p).since = now
        ∧ (t.port p).retry = (t0.retry.filter (fun (x : SentFrame) => decide ((x.seq - seq).toNat < 2048))).map (fun x => { x with sent := now }) ∧ (t.port p).rplPos = some seq ∧ (t.port p).txSeq = t0.txSeq ∧ (t.port p).queue = t0.queue))
    ∧ (lasted .retrain 45000000 → Does (exec (.retrainTimeout p) s) (fun t => (t.port p).st = (if t0.en then .failed else .off) ∧ (t.port p).cause = 5 ∧ (t.port p).retry = [] ∧ (t.port p).queue = [] ∧ t.mem = s.mem ∧ t.cores = s.cores))
    ∧ (lasted .failed 2250000000 → t0.en = true → Does (exec (.failedRetry p) s) (fun t => quiet t ∧ trained (t.port p) ∧ (t.port p).cause = t0.cause))
    ∧ (lasted .drain 0 → drained → Does (exec (.drainComplete p) s) (fun t => quiet t ∧ (t0.en = false → t.port p = { t0 with st := .off, since := now }) ∧ (t0.en = true → trained (t.port p))))
    ∧ (lasted .drain 225000 → (t0.queue ≠ [] ∨ t0.cur ≠ [] ∨ ∃ x ∈ t0.retry, ∃ q, Slot.hdr q ∈ x.slots) → Does (exec (.drainTimeout p) s) (fun t => (t.port p).cause = 7 ∧ (t.port p).retry = [] ∧ (t.port p).queue = [] ∧ (t0.en = false → (t.port p).st = .off) ∧ (t0.en = true → (t.port p).st = .train) ∧ t.mem = s.mem ∧ t.cores = s.cores))
    ∧ Does (exec (.lpEnWrite p v) s) (fun t => quiet t ∧ (t.port p).en = v
        ∧ (v = true → t0.st = .off → trained (t.port p)) ∧ (v = true → t0.st ≠ .off → t.port p = { t0 with en := true })
        ∧ (v = false → (t0.st = .active ∨ t0.st = .retrain) → t.port p = { t0 with en := false, st := .drain, since := now })
        ∧ (v = false → t0.st = .drain → t.port p = { t0 with en := false })
        ∧ (v = false → t0.st ≠ .active → t0.st ≠ .retrain → t0.st ≠ .drain → t.port p = { t0 with en := false, st := .off, since := now }))
    ∧ (∀ x xs, t0.retry = x :: xs → x.sent + 4096 ≤ now → framed → Does (exec (.retryTimerExpiry p) s) (fun t => bumped t 6 ∧ others t ∧ (t.port p).retry = t0.retry.map (fun y => { y with sent := now }) ∧ (t.port p).rplSeq = x.seq ∧ (t.port p).rplPos = some x.seq
        ∧ (t0.st = .active → t0.rplSeq = x.seq → 7 ≤ t0.rplCnt → (t.port p).st = .retrain ∧ (t.port p).cause = 4 ∧ bumped t 7)
        ∧ ((t0.st ≠ .active ∨ t0.rplSeq ≠ x.seq ∨ t0.rplCnt < 7) → (t.port p).st = t0.st ∧ t.log = s.log)))
    ∧ ((¬ framed ∨ t0.retry = [] ∨ ∃ x xs, t0.retry = x :: xs ∧ now < x.sent + 4096) → exec (.retryTimerExpiry p) s = .next s)
    ∧ (t0.st = .ident → f.crc = true → f.type = 3 →
        let peer : BitVec 10 := f.orig.setWidth 10
        let n := if f.last ∈ t0.idSent then 1 else 0
        let before := if peer = t0.peer then t0.trips else 0
        let longest := max (if peer = t0.peer then t0.maxTrip else 0) (now - f.last.toNat - f.held.toNat)
        (peer = s.own → s.own ≠ 0x3FF → Does (exec (.identFlit p f) s) (fun t => logged t ∧ (t.port p).st = (if t0.en then .failed else .off) ∧ (t.port p).cause = 6))
        ∧ (peer ≠ s.own → (before + n < 64 ∨ peer = 0x3FF ∨ s.own = 0x3FF) → Does (exec (.identFlit p f) s) (fun t => quiet t ∧ (t.port p).st = .ident ∧ (t.port p).peer = peer ∧ (t.port p).pport = f.val.setWidth 5 ∧ (t.port p).trips = before + n ∧ (t.port p).lastId = f.beat ∧ (t.port p).lastAt = now))
        ∧ (peer ≠ s.own → 64 ≤ before + n → peer ≠ 0x3FF → s.own ≠ 0x3FF → f.last ∈ t0.idSent → Does (exec (.identFlit p f) s) (fun t => quiet t ∧ (t.port p).st = .active ∧ (t.port p).peer = peer
            ∧ (t.port p).ctlLat = BitVec.ofNat 16 ((longest + 1) / 2) ∧ (t.port p).dataLat = BitVec.ofNat 16 ((longest + 1) / 2 + 46))))
    ∧ ((17 < w.toNat % 32 ∨ 17 < w.toNat / 2 ^ 8 % 32) → exec (.routeEntryWrite dev w) s = .next s)
    ∧ (w.toNat % 32 ≤ 17 → w.toNat / 2 ^ 8 % 32 ≤ 17 → exec (.routeEntryWrite dev w) s = .next { s with links := { s.links with routes := Table.put s.links.routes dev.toNat (w &&& 0x80001F1F) } }))
  ∧ (∀ (s : State) (p : PortId) (f : Frame) (q : Packet),
    let t0 := s.port p
    let opened : Prop := t0.st = .align ∨ t0.st = .ident ∨ t0.st = .active ∨ t0.st = .drain
    let cntOf (t : State) (sub n : Nat) : Prop := Table.get 0 t.cnt ((0x5100 + p.val) * 256 + sub) = (Table.get 0 s.cnt ((0x5100 + p.val) * 256 + sub) + n) % 2 ^ 64
    let others (t : State) : Prop := ∀ x, x ≠ p.val → t.port x = s.port x
    let good : Prop := f.unc = 0 ∧ f.fcrc = true
    let acked : List SentFrame := t0.retry.filter (fun (x : SentFrame) => decide ((x.seq - f.ack).toNat < 2048))
    let takes (t : State) : Prop := (t.port p).retry = acked ∧ (t.port p).nf0 = f.cr0 ∧ (t.port p).nf1 = f.cr1 ∧ (t.port p).nf2 = f.cr2 ∧ (t.port p).fr0 = t0.fr0 ∧ (t.port p).fr1 = t0.fr1 ∧ (t.port p).fr2 = t0.fr2 ∧ cntOf t 8 0 ∧ cntOf t 9 f.corr
    (¬ opened → exec (.linkFrameReceive p f) s = .next s)
    ∧ (opened → ¬ good → Does (exec (.linkFrameReceive p f) s) (fun t => t.port p = { t0 with nak := true } ∧ others t ∧ cntOf t 8 f.unc ∧ cntOf t 9 f.corr ∧ { t with links := s.links, cnt := s.cnt } = s))
    ∧ (t0.st = .active → good → f.nak = false →
        (f.seq ≠ t0.rxSeq → Does (exec (.linkFrameReceive p f) s) (fun t => takes t ∧ (t.port p).nak = true ∧ (t.port p).rxSeq = t0.rxSeq ∧ others t ∧ { t with links := s.links, cnt := s.cnt } = s))
        ∧ (f.seq = t0.rxSeq → f.slots = [] → Does (exec (.linkFrameReceive p f) s) (fun t => takes t ∧ (t.port p).nak = false ∧ (t.port p).rxSeq = t0.rxSeq + 1 ∧ others t ∧ { t with links := s.links, cnt := s.cnt } = s))
        ∧ (f.seq = t0.rxSeq → f.slots = [.hdr q] → q.flits = 0 → (∀ n, q.kind ≠ .res n) → q.ddev = s.own → s.own ≠ 0x3FF →
            let control : Prop := (targetOf (q.addr.toNat % 2 ^ 46)).cls = .control ∧ q.kind ≠ .sem ∧ (q.kind = .rd ∨ q.kind = .wr ∨ q.kind = .msg ∨ (q.kind = .cmb ∧ q.red = false))
            (¬ control → Does (exec (.linkFrameReceive p f) s) (fun t => takes t ∧ (t.port p).rxSeq = t0.rxSeq + 1 ∧ others t ∧ { t with links := s.links, cnt := s.cnt } = { s with net := s.net ++ [{ q.bare with via := some p.val }] }
              ∧ (t.port p).cr0 = t0.cr0 ∧ (t.port p).cr1 = t0.cr1 ∧ (t.port p).cr2 = t0.cr2)))
        ∧ (∀ n, f.seq = t0.rxSeq → f.slots = [.hdr q] → q.flits = 0 → q.kind = .res n → Does (exec (.linkFrameReceive p f) s) (fun t => takes t ∧ t.net = s.net ∧ (q.vc = 0 → (t.port p).cr0 = t0.cr0 + 1) ∧ (q.vc = 1 → (t.port p).cr1 = t0.cr1 + 1) ∧ (q.vc = 2 → (t.port p).cr2 = t0.cr2 + 1) ∧ Table.get 0 t.cnt 0x403005 = (Table.get 0 s.cnt 0x403005 + 1) % 2 ^ 64 ∧ ∃ fields, t.log = (s.logEv 0x0A01 true fields).log)))
    ∧ (t0.st = .active → good → f.nak = true → f.seq = t0.rxSeq → f.slots = [] → acked ≠ [] → t0.rplCnt = 0 → Does (exec (.linkFrameReceive p f) s) (fun t => (t.port p).retry = acked.map (fun x => { x with sent := s.beat.devt.toNat }) ∧ (t.port p).rplPos = some f.ack ∧ (t.port p).st = .active ∧ (t.port p).rplSeq = f.ack ∧ (t.port p).rplCnt = 1 ∧ (t.port p).rplAt = none ∧ cntOf t 6 1))
    ∧ (∀ k r, s.net[k]? = some r → r.via = some p.val → r.hop = 0 → r.isAnswer = false →
        let n := BitVec.ofNat 16 (r.flits + 1)
        (s.sans k).port p = (match r.vc with | 0 => { t0 with cr0 := t0.cr0 + n } | 1 => { t0 with cr1 := t0.cr1 + n } | _ => { t0 with cr2 := t0.cr2 + n }) ∧ (∀ x, x ≠ p.val → (s.sans k).port x = s.port x))
    ∧ (∀ l g a b, t0.line = some l → l.kept = none → l.slots.length < 32 → l.begun + 15 * l.slots.length / 11 ≤ s.beat.devt.toNat → (t0.st = .ident ∨ t0.st = .active ∨ t0.st = .drain) →
        s.beat.sent = a ++ (p.val, g) :: b → (∀ x ∈ b, x.1 ≠ p.val) →
        (s.portCycle p).port p = { t0 with line := some { l with slots := l.slots ++ [.control g] }, fr0 := t0.nf0, fr1 := t0.nf1, fr2 := t0.nf2 } ∧ (s.portCycle p).beat = { s.beat with sent := a ++ b })
    ∧ (∀ l, t0.line = some l → 32 ≤ l.slots.length → l.begun + 15 * l.slots.length / 11 ≤ s.beat.devt.toNat → opened → l.kept = none →
        ((s.portCycle p).port p).wire = some { seq := l.seq, ack := t0.rxSeq, nak := t0.nak, cr0 := t0.cr0, cr1 := t0.cr1, cr2 := t0.cr2, slots := l.slots }
        ∧ ((s.portCycle p).port p).retry = t0.retry ++ [{ seq := l.seq, slots := l.slots, ends := l.ends, sent := s.beat.devt.toNat }] ∧ ((s.portCycle p).port p).txSeq = t0.txSeq + 1 ∧ ((s.portCycle p).port p).nextAt = l.begun + 45))

/-! ## Host interface and mailbox (chapter 18) -/

/-- R416, R417, R419 to R425: a degraded link, or the first training after a reset, is logged; a PCIe reset puts the BAR0 registers back, mutes the requests in execution and is counted; a write of EN = 1 clears HEAD and TAIL, a change of LOG2N or RTLOG2 while enabled is dropped and counted, and a doorbell beyond N sets OVR; the dictionary window takes an access while BUSY is 0, and reads and writes entries in the machine's own time (DESIGN CHOICE, log entry 169); each BAR0 register reads as Table 18.3 has it, and a read of anything else is answered with Unsupported Request and counted; the configuration space holds the identifiers; in D3hot no BAR is decoded; BAR2 reaches the memory class alone, reads after every earlier write is acknowledged, marks every burst that is uncorrectable, and refuses and logs everything else. The offsets of configuration space, the AER bit and the uncounted requests of D3hot are presumed (log entry 170), the rows that carry configuration and BAR0 accesses log entry 171, LOG2N out of range log entry 85, and when a BAR2 read completes log entry 87. -/
def Obligations.HostWindows : Prop :=
  ∀ (s : State) (v : Word) (tail : BitVec 16) (speed : BitVec 4) (width : BitVec 5) (off len : Nat) (bytes : List Byte), s.dev.st ≠ .off →
    let h := s.host
    let bump (t : State) (sub : Nat) : Prop := Table.get 0 t.cnt (0x600200 + sub) = (Table.get 0 s.cnt (0x600200 + sub) + 1) % 2 ^ 64
    let only (t : State) : Prop := { t with host := s.host } = s
    let dropped (t : State) : Prop := bump t 6 ∧ { t with cnt := s.cnt } = s
    let low : Prop := h.wasRst = true ∨ (speed ≠ 0 ∧ (speed.toNat < 6 ∨ width.toNat < 16))
    let a := h.hbBase.toNat * 2 ^ 30 + off
    let reached (n : Nat) : Prop := n ≠ 0 ∧ off + n ≤ 2 ^ (30 + h.bar2Log) ∧ (a + n ≤ 0x9000000000 ∨ (0x10000000000 ≤ a ∧ a + n ≤ 0x20000000000 ∧ a % 0x2000000000 + n ≤ 0x1200000000))
    let log4 := v.extractLsb' 0 4
    let unsupported : HostIf := { h with rdData := [], rdPois := [], rdUr := true, aer := h.aer ||| 0x100000 }
    let bit (b : Bool) (n : Nat) : Nat := if b then 2 ^ n else 0
    let regs : List (Nat × Nat × Nat) := [(0x000, 4, bit h.mbEn 31 + h.mbLog.toNat), (0x008, 8, h.qbase.toNat), (0x010, 8, h.rbase.toNat), (0x018, 4, 0), (0x01C, 4, bit h.mbEn 31 + bit h.ovr 30 + h.head.toNat),
      (0x100, 4, bit h.slIn 31 + bit h.slRt 30 + h.rtLog.toNat), (0x108, 8, h.inAddr.toNat), (0x110, 8, h.rtBase.toNat), (0x118, 4, h.ci.toNat), (0x11C, 4, h.pi.toNat), (0x200, 8, h.hbBase.toNat * 2 ^ 30),
      (0x208, 4, h.speed.toNat * 2 ^ 28 + h.width.toNat * 2 ^ 23), (0x1000, 4, bit h.odWr 30 + h.odIndex.toNat * 2 ^ 8 + h.odSub.toNat), (0x1004, 4, bit h.odBusy 31 + h.odStat.toNat * 2 ^ 16 + h.odLen.toNat)]
    let d0 : Prop := h.d3 = false
    let entry (x : Word) : Option DEnt := if 0xF00000 ≤ x.toNat % 2 ^ 24 then none else s.entry (x.toNat / 2 ^ 8 % 2 ^ 16) (x.toNat % 2 ^ 8)
    Does (exec (.pcieLinkTrained speed width) s) (fun t => t.host = { h with speed := speed, width := width, wasRst := false } ∧ { t with host := s.host, log := s.log, cnt := s.cnt } = s
        ∧ (¬ low → t.log = s.log) ∧ (low → ∃ fields, t.log = (s.logEv 0x1101 true fields).log))
    ∧ Does (exec .pcieReset s) (fun t => bump t 8 ∧ { t with host := s.host, log := s.log, cnt := s.cnt } = s ∧ (∃ fields, t.log = (s.logEv 0x1101 false fields).log)
        ∧ t.host.mbEn = false ∧ t.host.mbLog = 6 ∧ t.host.qbase = 0 ∧ t.host.rbase = 0 ∧ t.host.tail = 0 ∧ t.host.head = 0 ∧ t.host.ovr = false ∧ t.host.slIn = false ∧ t.host.slRt = false ∧ t.host.rtLog = 10 ∧ t.host.inAddr = 0 ∧ t.host.rtBase = 0
        ∧ t.host.ci = 0 ∧ t.host.pi = 0 ∧ t.host.hbBase = 0 ∧ t.host.speed = 0 ∧ t.host.width = 0 ∧ t.host.odWr = false ∧ t.host.odIndex = 0 ∧ t.host.odSub = 0 ∧ t.host.odStat = 0 ∧ t.host.odLen = 0
        ∧ t.host.odBusy = false ∧ t.host.rtFull = false ∧ t.host.d3 = false ∧ t.host.pull = none ∧ t.host.wasRst = true ∧ t.host.binds = h.binds ∧ t.host.reqs.length = h.reqs.length ∧ ∀ q ∈ t.host.reqs, q.mute = true ∧ ∀ x, q.what = .inl x → x.ending = true)
    ∧ (d0 → h.mbEn = true → log4 ≠ h.mbLog → Does (exec (.mailboxEnable v) s) dropped)
    ∧ (d0 → (h.mbEn = false ∨ log4 = h.mbLog) →
        (v.getLsbD 31 = true → Does (exec (.mailboxEnable v) s) (fun t => only t ∧ t.host = { h with mbEn := true, mbLog := log4, head := 0, tail := 0, bells := [] }))
        ∧ (v.getLsbD 31 = false → Does (exec (.mailboxEnable v) s) (fun t => only t ∧ t.host.mbEn = false ∧ t.host.mbLog = log4 ∧ t.host.head = h.head ∧ (∀ q ∈ t.host.reqs, q.mute = true) ∧ t.host.reqs.length = h.reqs.length)))
    ∧ (d0 → 2 ^ h.mbLog.toNat < (tail - h.head).toNat → exec (.doorbell tail) s = .next { s with host := { h with ovr := true } })
    ∧ (d0 → (tail - h.head).toNat ≤ 2 ^ h.mbLog.toNat → tail ≠ h.tail → exec (.doorbell tail) s = .next { s with host := { h with tail := tail, bells := h.bells ++ [(tail, h.bar2W)] } })
    ∧ (d0 → h.slRt = true → v.extractLsb' 0 5 ≠ h.rtLog → Does (exec (.retireEnable v) s) dropped)
    ∧ (d0 → (h.slRt = false ∨ v.extractLsb' 0 5 = h.rtLog) → exec (.retireEnable v) s = .next { s with host := { h with slIn := v.getLsbD 31, slRt := v.getLsbD 30, rtLog := v.extractLsb' 0 5, pi := if v.getLsbD 30 then 0 else h.pi, rtFull := h.rtFull && !v.getLsbD 30 } })
    ∧ (¬ d0 → exec (.mailboxEnable v) s = .next s ∧ exec (.doorbell tail) s = .next s ∧ exec (.retireEnable v) s = .next s ∧ exec (.dictionaryWindowAccess v) s = .next s ∧ exec (.bar2Write off bytes) s = .next s
        ∧ exec (.bar2Read (.bar2 off) len) s = .next { s with host := unsupported } ∧ exec (.bar2Read (.bar0 off) len) s = .next { s with host := unsupported })
    ∧ (d0 → s.mgmt.romOnly = false →
        (v.getLsbD 31 = true → h.odBusy = true → exec (.dictionaryWindowAccess v) s = .next s)
        ∧ ((v.getLsbD 31 = false ∨ h.odBusy = false) → exec (.dictionaryWindowAccess v) s = .next { s with host := { h with odWr := v.getLsbD 30, odIndex := v.extractLsb' 8 16, odSub := v.extractLsb' 0 8, odBusy := h.odBusy || v.getLsbD 31 } }))
    ∧ (h.odBusy = false → s.odRun = .next s)
    ∧ (h.odBusy = true → s.mgmt.romOnly = false →
        let x : Word := BitVec.ofNat 32 (h.odIndex.toNat * 256 + h.odSub.toNat)
        let h1 : HostIf := { h with odBusy := false }
        (h.odWr = false →
            (entry x = none → s.odRun = .next { s with host := { h1 with odStat := 0x2A } })
            ∧ (∀ e, entry x = some e → e.cls = .wo → s.odRun = .next { s with host := { h1 with odStat := 0x23 } })
            ∧ (∀ e, entry x = some e → e.cls ≠ .wo → e.value.length ≤ 4096 → Does s.odRun (fun t => only t ∧ t.host.odBusy = false ∧ t.host.odStat = 0 ∧ t.host.odLen = BitVec.ofNat 16 e.value.length ∧ ∀ k, k < e.value.length → Table.get 0 t.host.odData k = e.value.getD k 0)))
        ∧ (h.odWr = true → h.odLen.toNat ≤ 4096 →
            (entry x = none → s.odRun = .next { s with host := { h1 with odStat := 0x2A } })
            ∧ (∀ e, entry x = some e → (e.cls = .const ∨ e.cls = .ro ∨ h.odIndex.toNat / 2 ^ 12 = 7) → s.odRun = .next { s with host := { h1 with odStat := 0x23 } })))
    ∧ (d0 → ∀ x ∈ regs, exec (.bar2Read (.bar0 x.1) x.2.1) s = .next { s with host := { h with rdData := leBytes x.2.1 x.2.2, rdPois := [], rdUr := false } })
    ∧ (d0 → (∀ x ∈ regs, (x.1, x.2.1) ≠ (off, len)) → (off < 0x2000 ∨ 0x3000 < off + len ∨ len ∉ [1, 2, 4, 8] ∨ off % len ≠ 0) → Does (exec (.bar2Read (.bar0 off) len) s) (fun t => t.host = unsupported ∧ bump t 6 ∧ { t with host := s.host, cnt := s.cnt } = s))
    ∧ (∀ x, x ∈ [(0x00, (if s.dev.map = 0xFFFF then 0xE401 else 0xE402) * 2 ^ 16 + Config.vendorId.toNat), (0x08, 0x12000000 + (if s.dev.b0 then 0x10 else 0)), (0x3C, 0)] → ∀ o n, o + n ≤ 4 → exec (.bar2Read (.config (x.1 + o)) n) s = .next { s with host := { h with rdData := ((leBytes 4 x.2).drop o).take n, rdPois := [], rdUr := false } })
    ∧ (d0 → (h.bar2W ≠ [] ∨ h.bar2R ≠ []) → exec (.bar2Read (.bar2 off) len) s = .next { s with host := { h with bar2R := h.bar2R ++ [(off, if reached len then some a else none, len, h.bar2W)] } })
    ∧ (∀ r rs, h.bar2R = (off, some a, len, []) :: rs → reached len → r = s.barCycle → r.host = { h with bar2R := rs, rdData := s.localRead a len, rdPois := r.host.rdPois, rdUr := false })
    ∧ (d0 → h.bar2W = [] → h.bar2R = [] → ¬ reached len → Does (exec (.bar2Read (.bar2 off) len) s) (fun t => t.host = unsupported ∧ bump t 6 ∧ (∃ fields, t.log = (s.logEv 0x1102 true fields).log) ∧ { t with host := s.host, cnt := s.cnt, log := s.log } = s))
    ∧ (d0 → h.bar2W = [] → h.bar2R = [] → reached len → Does (exec (.bar2Read (.bar2 off) len) s) (fun t => t.host = { h with rdData := s.localRead a len, rdPois := t.host.rdPois, rdUr := false } ∧ { t with host := s.host, cnt := s.cnt, log := s.log, imb := s.imb } = s
        ∧ t.host.rdPois.length = (a + len - 1) / 64 - a / 64 + 1 ∧ (∀ i, i < t.host.rdPois.length → t.host.rdPois[i]? = some (s.localBad ((a / 64 + i) * 64) 64))
        ∧ ((∀ i, i < t.host.rdPois.length → s.localBad ((a / 64 + i) * 64) 64 = false) → t.log = s.log)))
    ∧ (d0 → ¬ reached bytes.length → Does (exec (.bar2Write off bytes) s) (fun t => bump t 6 ∧ (∃ fields, t.log = (s.logEv 0x1102 true fields).log) ∧ { t with cnt := s.cnt, log := s.log } = s))
    ∧ (d0 → reached bytes.length → a % 64 + bytes.length < 64 → Does (exec (.bar2Write off bytes) s) (fun t => ∃ p, t.net = s.net ++ [p] ∧ p.kind = .wr ∧ p.size = 5 ∧ p.src = 0x407 ∧ p.addr = mkFAddr s.own (a - a % 64)
        ∧ (∀ i, i < 64 → (if i < 32 then p.op6.getLsbD i else p.op7.getLsbD (i - 32)) = decide (a % 64 ≤ i ∧ i < a % 64 + bytes.length)) ∧ (∀ i, i < bytes.length → p.data.extractLsb' (8 * (a % 64 + i)) 8 = bytes.getD i 0)
        ∧ t.host = { h with nextTid := h.nextTid + 1, bar2W := h.bar2W ++ [h.nextTid] } ∧ { t with host := s.host, net := s.net } = s))

/-- R356, R380 to R382, R425 to R431, R434, R435, R445 and R450: a request whose LEN or res bytes are wrong ends with BADLEN, one whose state does not permit it with STATE, one of an unlisted OP with BADOP; else the command has its effect, and its reply, whose header carries the conditions that apply, is in host memory at once, or follows the write, the add, the transfer or the RUNs that it asks for; an entry whose store does not take the value is MEMERR (log entry 172), STATE PREOP and a LOAD over a placed image discard it, and go on once its memory is erased by SCRUB (R499, R501, R503; log entry 117); and the loader writes each RUN at a time of its own, ending in LATESTART where BCNT reaches START first (DESIGN CHOICE, log entry 166). Log entries 77 (the ring is written for START to START + 255), 88 (DIR above 1), 89 (BADLEN before STATE), 90 (OFFSET not 0, SLOT 512 and above, code 0x05) and 93 (the write of a table entry) settle what the rules leave open. -/
def Obligations.MailboxRequests : Prop :=
  ∀ (s : State) (r : ReqHdr) (x : Word) (d : DWord) (slot : BitVec 16) (eff half : Word) (sub op : Byte) (value : List Byte), Fetches s →
    let f := s.mbFetched
    let i := s.host.head
    let st := s.dev.st
    let serving : Prop := st = .ready ∨ st = .run ∨ st = .hold
    let fits (n : Nat) : Prop := r.resOk = true ∧ r.len.toNat = n
    let replies (c : Instr) (status : Nat) (payload : List Byte) : Prop := Does (exec c s) (fun t => Replied f t i r.tag status payload)
    let kept (t : State) (w : HWait) : Prop := t.host.reqs = s.host.reqs ++ [{ index := i, tag := r.tag, what := .inr w, mute := false }]
    let bad (c : Instr) (n : Nat) : Prop := ¬ fits n → replies c 0x21 []
    let ent := f.visible .mailbox slot.toNat sub.toNat
    let calm : Prop := ∀ e ∈ s.mgmt.erase, ∀ id, e.what ≠ .image id
    let scrubs (im : Image) : List (Nat × Nat × Nat) := (interExtents s.loader.mbase.toNat im.msize).filter (fun (x : Nat × Nat × Nat) => decide (x.2.2 ≠ 0))
    let discarded (t : State) (im : Image) : Prop := t.loader.image = none ∧ t.loader.img = 0
      ∧ (scrubs im ≠ [] → ∃ e, e.what = .image im.imgid ∧ e.outs = (scrubs im).map (fun (x : Nat × Nat × Nat) => (x.1, x.2.1, x.2.2, false)) ∧ t.mgmt.erase = s.mgmt.erase ++ [e] ∧ t.mgmt.pend = s.mgmt.pend.write (s.mgmt.pend.read.getD [] ++ [e]))
    (bad (.nopCommand r) 0 ∧ bad (.dictRead r slot sub x) 8 ∧ bad (.dictWrite r slot sub x value) (8 + value.length) ∧ bad (.logRead r d) 8 ∧ bad (.attnAck r d) 8 ∧ bad (.state r op) 1 ∧ bad (.load r d d slot) 18
      ∧ bad (.release r d) 8 ∧ bad (.resync r d) 8 ∧ bad (.bind r slot eff half) 12 ∧ bad (.unbind r slot eff) 8 ∧ bad (.semadd r x half) 8 ∧ bad (.hdma r op x d d) 24)
    ∧ (fits 0 → replies (.nopCommand r) 0 [])
    ∧ (op.toNat ∉ [0, 1, 2, 3, 4, 8, 0x10, 0x11, 0x12, 0x20, 0x21, 0x30, 0x31] → replies (.unknownOpRequest r op) 0x20 [])
    ∧ (fits 8 →
        (ent = none → replies (.dictRead r slot sub x) 0x2A [])
        ∧ (∀ e, ent = some e → e.cls = .wo → replies (.dictRead r slot sub x) 0x23 [])
        ∧ (∀ e, ent = some e → e.cls ≠ .wo → e.value.length ≤ 1024 → x.toNat < e.value.length → replies (.dictRead r slot sub x) 0 ([BitVec.ofNat 8 e.type.code, 0] ++ leBytes 2 e.value.length ++ leBytes 4 0 ++ ((e.value.drop x.toNat).take 232)))
        ∧ (∀ e, ent = some e → e.cls ≠ .wo → e.value ≠ [] → e.value.length ≤ x.toNat → replies (.dictRead r slot sub x) 0x24 []))
    ∧ (fits (8 + value.length) →
        (232 < value.length → replies (.dictWrite r slot sub x value) 0x21 [])
        ∧ (value.length ≤ 232 → x ≠ 0 → replies (.dictWrite r slot sub x value) 0x24 [])
        ∧ (value.length ≤ 232 → x = 0 → f.dictCheck .mailbox slot.toNat sub.toNat value ≠ 0 → replies (.dictWrite r slot sub x value) (f.dictCheck .mailbox slot.toNat sub.toNat value) [])
        ∧ (value.length ≤ 232 → x = 0 → f.dictCheck .mailbox slot.toNat sub.toNat value = 0 → slot.toNat / 2 ^ 8 ∈ [0x10, 0x90] →
            Does (exec (.dictWrite r slot sub x value) s) (fun t => ∃ u, { u with mgmt := s.mgmt } = f ∧ u.mgmt.boot = s.mgmt.boot ∧ u.mgmt.writes = s.mgmt.writes + 1
              ∧ if Config.storeBad s.mgmt.writes = true ∧ (∃ e, ent = some e ∧ e.cls = .rwp) then Replied u t i r.tag 0x27 [] ∧ u.mgmt.vals = s.mgmt.vals
                else Replied u t i r.tag 0 [] ∧ Table.look u.mgmt.vals (slot.toNat * 256 + sub.toNat) = some value)))
    ∧ (fits 8 → replies (.logRead r d) 0 (fitRecs 240 (s.log.recs.dropWhile (fun (y : LogRec) => decide (y.seq + logEntries y.fields.length ≤ d.toNat)))))
    ∧ (fits 8 → Does (exec (.attnAck r d) s) (fun t => ∃ u, Replied u t i r.tag 0 (leBytes 4 u.log.attn) ∧ { u with log := s.log } = f
        ∧ u.log = { s.log with recs := s.log.recs.map (fun (y : LogRec) => if y.seq ≤ d.toNat then { y with una := 0 } else y), gone := s.log.gone.filter (fun (g : Nat × Nat) => decide (d.toNat < g.1)), ackSeq := max s.log.ackSeq d.toNat }))
    ∧ (fits 1 → s.mgmt.axo = none → s.host.reqs = [] →
        (7 < op.toNat → replies (.state r op) 0x24 [])
        ∧ (op.toNat ≤ 7 → ¬ ((op = 3 ∧ (st = .run ∨ st = .hold ∨ (st = .axolotl ∧ s.loader.image ≠ none))) ∨ (op = 2 ∧ (st = .ready ∨ st = .axolotl)) ∨ (op = 6 ∧ serving)) → replies (.state r op) 0x22 [])
        ∧ (op = 2 → st = .ready → s.loader.image = none → calm → Does (exec (.state r op) s) (fun t => t.dev.st = .preop ∧ t.loader.img = 0 ∧ t.beat = s.beat ∧ ∃ u, Replied u t i r.tag 0 []))
        ∧ (∀ im, op = 2 → st = .ready → s.loader.image = some im → Does (exec (.state r op) s) (fun t => t.beat = s.beat ∧ discarded t im ∧ (scrubs im ≠ [] → t.dev.st = .ready ∧ kept t .toPreop)))
        ∧ (op = 3 → (st = .run ∨ st = .hold) → (∀ c, (s.core c).run.st ≠ .running) → Does (exec (.state r op) s) (fun t => t.dev.st = .ready ∧ t.dev.holds = s.dev.holds ∧ t.loader.img = 3 ∧ t.loader.image = s.loader.image ∧ t.beat.sten = false ∧ t.cores = s.cores ∧ t.mem = s.mem ∧ ∃ u, Replied u t i r.tag 0 [])))
    ∧ (fits 18 → slot = 0 → s.mgmt.axo = none → s.host.reqs = [] →
        ((st ≠ .preop ∧ st ≠ .ready) → Does (exec (.load r d d slot) s) (fun t => ∃ u, Replied u t i r.tag 5 (leBytes 2 s.loader.cmpN ++ leBytes 2 s.loader.cmpPos ++ leBytes 2 s.loader.cmpNeg ++ leBytes 2 s.loader.cmpOne) ∧ u.loader.image = s.loader.image ∧ u.loader.status = 5 ∧ u.dev = s.dev ∧ u.mem = s.mem ∧ u.cores = s.cores))
        ∧ ((st = .preop ∨ st = .ready) → s.loader.busy = false → (∀ kv ∈ s.cores, kv.2.run.st ≠ .running) →
            let chk := f.loadCheck s.stageBase d.toNat true false
            (∀ im rmap, chk.2 = .inr (im, rmap) → im.relocs = [] ∧ ∃ rows, im.rows = some rows ∧ ∀ y ∈ rows, y.tgt = 0) →
            Does (exec (.load r d d slot) s) (fun t =>
              (∀ e, chk.2 = .inl e → t.dev.st = st ∧ t.loader.image = s.loader.image ∧ t.loader.img = s.loader.img ∧ t.loader.status = BitVec.ofNat 8 e.code ∧ ∃ u pay, Replied u t i r.tag e.code pay)
              ∧ (∀ old im rmap, chk.2 = .inr (im, rmap) → s.loader.image = some old → calm → scrubs old ≠ [] → t.dev.st = st ∧ discarded t old ∧ kept t (.load d []))
              ∧ (∀ im rmap, chk.2 = .inr (im, rmap) → s.loader.image = none → calm →
                  (t.dev.st = .ready ∧ t.loader.img = 3 ∧ t.loader.image ≠ none ∧ t.loader.mbase = d ∧ t.loader.imgid = im.imgid ∧ t.loader.rmap = rmap ∧ t.loader.peers = [] ∧ t.loader.status = 0 ∧ ∃ u pay, Replied u t i r.tag 0 pay)
                  ∨ (t.dev.st = .preop ∧ t.loader.img = 0 ∧ t.loader.image = none ∧ t.loader.status ≠ 0)))))
    ∧ (fits 8 →
        ((st ≠ .ready ∨ s.loader.busy = true) → Does (exec (.release r d) s) (fun t => ∃ u, Replied u t i r.tag 5 [] ∧ u.dev = s.dev ∧ u.beat = s.beat ∧ u.cores = s.cores ∧ u.mem = s.mem))
        ∧ (st = .ready → s.loader.busy = false → (s.loader.img ≠ 3 ∨ d.toNat ≤ s.beat.bcnt.toNat + 1) → Does (exec (.release r d) s) (fun t => ∃ u, Replied u t i r.tag 8 [] ∧ u.dev = s.dev ∧ u.beat = s.beat ∧ u.cores = s.cores ∧ u.mem = s.mem))
        ∧ (∀ im, st = .ready → s.loader.busy = false → s.loader.img = 3 → s.loader.image = some im → s.beat.bcnt.toNat + 1 < d.toNat → im.relocs = [] → s.badMem = [] → s.loader.mbase.toNat + im.vroff + 2048 ≤ 0x9000000000 → (s.loader.mbase.toNat + im.vroff) % 8 = 0 →
            (∀ cl, cl < 64 → s.cluOn cl = true → (s.clu cl).sync.vm = false ∨ s.vmQuiet cl = true) → Does (exec (.release r d) s) (fun t =>
              let done : Prop := (∃ u, Replied u t i r.tag 0 []) ∧ t.dev.st = (if s.dev.holds = 0 then .run else .hold) ∧ t.loader.img = 4 ∧ t.loader.start = d ∧ t.loader.var = 3 ∧ t.loader.busy = false
              let runs (j : Nat) : Prop := (t.core (BitVec.ofNat 10 (physCore s.loader.rmap j))).run.st = .running
              t.beat.sten = true ∧ t.beat.bcnt = s.beat.bcnt ∧ t.loader.image = some im ∧ (∀ cl, cl < 64 → s.cluOn cl = true → (t.clu cl).sync.vm = false)
              ∧ (∀ j, j < 256 → t.localRead (s.loader.mbase.toNat + im.vroff + 8 * ((d.toNat + j) % 256)) 8 = leBytes 4 ((d.toNat + j) % 2 ^ 32) ++ leBytes 4 3)
              ∧ (im.placed = [] → done)
              ∧ (∀ j js, im.placed = j :: js →
                  if Config.runWrite s.beat.devt.toNat = false then kept t (.release d) ∧ t.loader.runs = im.placed ∧ t.cores = s.cores ∧ t.dev = s.dev
                  else runs j ∧ (js = [] → done) ∧ (js ≠ [] → kept t (.release d) ∧ t.loader.runs = js ∧ t.loader.busy = true ∧ t.dev = s.dev)))))
    ∧ (∀ im j js, s.loader.image = some im → s.loader.runs = j :: js →
        (d.toNat ≤ s.beat.bcnt.toNat → (∀ k ∈ im.placed, let c : CoreId := BitVec.ofNat 10 (physCore s.loader.rmap k); (s.core c).run.st = .running → (s.core c).run.hold = .none → (s.core c).run.saving = [] → (s.core c).run.due = none → s.beat.frz = false → ((s.releaseStep d).1.core c).run.st = .stopped ∧ ((s.releaseStep d).1.core c).run.spc = (s.core c).cpu.pc)
          ∧ (s.releaseStep d).2 = some .latestart ∧ (s.releaseStep d).1.loader.image = some im ∧ (s.releaseStep d).1.loader.img = s.loader.img ∧ (s.releaseStep d).1.loader.runs = [] ∧ (s.releaseStep d).1.loader.busy = false ∧ (s.releaseStep d).1.dev = s.dev)
        ∧ (s.beat.bcnt.toNat < d.toNat → if Config.runWrite s.beat.devt.toNat = false then s.releaseStep d = (s, none)
            else ((s.releaseStep d).1.core (BitVec.ofNat 10 (physCore s.loader.rmap j))).run.st = .running ∧ (s.releaseStep d).2 = (if js = [] then some .ok else none) ∧ (s.releaseStep d).1.loader.runs = js ∧ (js = [] → (s.releaseStep d).1.loader.img = 4)))
    ∧ (fits 8 → ¬ serving → replies (.resync r d) 0x22 [])
    ∧ (fits 8 → serving → s.beat.lock ≠ .lost → Does (exec (.resync r d) s) (fun t => Replied { f with beat := { s.beat with rsb := d, resync := true } } t i r.tag 0 []))
    ∧ ((fits 12 → ¬ serving → replies (.bind r slot eff half) 0x22 []) ∧ (fits 8 → ¬ serving → replies (.unbind r slot eff) 0x22 []))
    ∧ (serving → (eff - s.beat.bcnt.setWidth 32).toInt ≤ 1 → (fits 12 → replies (.bind r slot eff half) 0x25 []) ∧ (fits 8 → replies (.unbind r slot eff) 0x25 []))
    ∧ (∀ im o, serving → 1 < (eff - s.beat.bcnt.setWidth 32).toInt → s.loader.image = some im → im.aitoff = some o → s.host.reqs = [] → Table.look s.host.lastEff slot.toNat = none → slot.toNat < 512 →
        let a := s.loader.mbase.toNat + o + 16 * slot.toNat
        let old (k : Nat) : Nat := leAt (s.localRead a 16) (4 * k) 4
        let was := if 0 ≤ (eff - 1 - BitVec.ofNat 32 (old 0)).toInt then old 3 else old 2
        let changes (c : Instr) (new : Nat) (ub : Bool) : Prop := s.localBad a 16 = false → a % 16 = 0 → Does (exec c s) (fun t => ∃ p, t.net = s.net ++ [p] ∧ p.kind = .wr ∧ p.src = 0x408 ∧ p.addr = mkFAddr s.own (a - a % 64) ∧ p.tid = s.mgmt.tid
          ∧ p.data.toNat / 2 ^ (8 * (a % 64)) = eff.toNat + was * 2 ^ 64 + new * 2 ^ 96 ∧ kept t (.bindAck slot s.mgmt.tid) ∧ t.host.binds = s.host.binds ++ [{ eff := eff, slot := slot.toNat, old := BitVec.ofNat 32 was, new := BitVec.ofNat 32 new, unbind := ub }] ∧ t.stks = s.stks ∧ t.beat = s.beat)
        let e : BitVec 1024 := Table.get 0 (s.stack (half.toNat / 2 ^ 28 % 8)).dir (half.toNat / 2 ^ 12 % 2 ^ 12)
        (fits 8 → changes (.unbind r slot eff) 0 true)
        ∧ (fits 12 → (half.getLsbD 31 = false ∨ half.getLsbD 24 = true ∨ half.toNat % 2 ^ 12 = 0) → replies (.bind r slot eff half) 0x24 [])
        ∧ (fits 12 → half.getLsbD 31 = true → half.getLsbD 24 = false → half.toNat % 2 ^ 12 ≠ 0 → slot.toNat ∉ s.mgmt.quar → eV e = true → kvV ((s.stack (half.toNat / 2 ^ 25 % 8)).kvOf slot.toNat) = true →
            (eTen e = half.toNat % 2 ^ 12 → changes (.bind r slot eff half) half.toNat false)
            ∧ (eTen e ≠ half.toNat % 2 ^ 12 → Does (exec (.bind r slot eff half) s) (fun t => ∃ u fields, Replied u t i r.tag 0x26 [] ∧ t.net = s.net ∧ t.mem = s.mem ∧ u.log = (s.logEv 0x1405 true fields).log))))
    ∧ (fits 8 → ¬ (serving ∨ st = .axolotl) → replies (.semadd r x half) 0x22 [])
    ∧ (fits 8 → (serving ∨ st = .axolotl) → s.resolveDev (BitVec.ofNat 10 (x.toNat / 2 ^ 6)) = s.own → Does (exec (.semadd r x half) s) (fun t => kept t (.semadd s.mgmt.tid) ∧ ∃ p, t.net = s.net ++ [p] ∧ p.kind = .sem ∧ p.src = 0x408 ∧ p.ord = true ∧ p.op7 = half
        ∧ p.addr = mkFAddr s.own (semAddr (x.toNat / 2 ^ 22) (x.toNat / 2 ^ 16 % 64)) ∧ { t with net := s.net, host := s.host, mgmt := s.mgmt } = s))
    ∧ (fits 24 → st = .fault → replies (.hdma r op x d d) 0x22 [])
    ∧ (fits 24 → st ≠ .fault → (1 < op.toNat ∨ x = 0 ∨ 2 ^ 30 < x.toNat ∨ (0x9000000000 < d.toNat + x.toNat ∧ d.toNat < 0x10000000000)) → replies (.hdma r op x d d) 0x24 (leBytes 4 0))
    ∧ (fits 24 → st ≠ .fault → op = 0 → x ≠ 0 → x.toNat ≤ 2 ^ 30 → d.toNat + x.toNat ≤ 0x9000000000 → s.host.reqs = [] → Does (exec (.hdma r op x d d) s) (fun t => t.host.nextTag = s.host.nextTag + 1 ∧ { t with host := s.host } = s
        ∧ t.host.reqs = [{ index := i, tag := r.tag, what := .inl { toHost := false, len := x.toNat, haddr := d.toNat, daddr := d.toNat, reqd := min x.toNat (4096 - d.toNat % 4096), tag := some s.host.nextTag, active := true }, mute := false }]))
    ∧ (∀ q y tag, s.host.reqs = [q] → q.what = .inl y → y.tag = some tag → y.toHost = false → q.mute = false → y.status = 0 → Does (exec (.hostReadCompletion tag false []) s) (fun t => ∃ u, Replied u t q.index q.tag 0x28 (leBytes 4 y.done) ∧ t.host.reqs = [] ∧ t.net = s.net ∧ t.mem = s.mem))
    ∧ (∀ q y tag, s.host.reqs = [q] → q.what = .inl y → y.tag = some tag → value.length = y.reqd - y.done → y.reqd - y.done = 512 → (y.daddr + y.done) % 512 = 0 → Does (exec (.hostReadCompletion tag true value) s) (fun t => ∃ p, t.net = s.net ++ [p] ∧ p.kind = .wr ∧ p.size = 6 ∧ p.addr = mkFAddr s.own (y.daddr + y.done) ∧ p.data = BitVec.ofNat 4096 (leNat value)
        ∧ { t with net := s.net, host := s.host } = s))

/-! ## Starts, power, management and security (chapters 19 to 21) -/

/-- R442, R443, R453, R455, R470, R471, R473, R480, R486 and Table 19.7: a start is requested by entry 0x0003:01 or follows the supply's rise; a cold start that meets no failure ends in PREOP with every unit as reset, DEVT 0, the counters 0, the persisted entries in force, the identity key unwrapped under the KEK of R488, the first enabled port in TRAIN and the others to follow 10 µs apart (R470); a key that does not unwrap is a FAULT of S5; what stack memory reads after a cold start is the model's choice (DESIGN CHOICE, log entry 3); a warm start without an image to keep ends in PREOP with memory, counters and the notification counts of the watches kept; a supply that leaves GOOD in a step from S7 to S11 pauses the start at its end, and the start goes on once it is GOOD (R471); a watchdog that runs out, or a lost REF_CLK, moves the device to FAULT. That memory reads 0 after a cold start, which R246 leaves undefined, is the model's choice (log entry 3); so are one command for a whole start (log entry 103), what a start clears and keeps (log entry 105) and the acceptance of COLD_START in OFF (log entry 108). -/
def Obligations.Starts : Prop :=
  ∀ (s : State) (r : StartResult) (v : Byte),
    let m := s.mgmt
    let idle : Prop := r.failStep = none ∧ r.srFail = [] ∧ m.unwrap ≠ none ∧ m.clear = false ∧ m.pend.read.getD [] = []
    let supplied : Prop := (s.dev.st = .off ∨ m.risen = true → 44000 ≤ r.mv ∧ r.warnLow = false) ∧ (s.dev.st ≠ .off → m.risen = false → s.power.supply = .good)
    let slot := m.selection.active
    let good : Prop := m.selection.trial = none ∧ (m.fwOf slot).verifies m.minsvn = true
    let fresh (t : State) : Prop := t.dev.st = .preop ∧ t.dev.holds = 0 ∧ t.dev.cause = 0 ∧ t.dev.powered = s.dev.map ∧ t.dev.map = s.dev.map ∧ t.dev.b0 = s.dev.b0 ∧ t.cores = [] ∧ t.net = [] ∧ t.pending = s.pending
      ∧ t.loader.img = 0 ∧ t.loader.image = none ∧ t.mgmt.vals = m.store.read.getD [] ∧ t.mgmt.boot = t.mgmt.vals ∧ t.mgmt.startRq = 0 ∧ t.mgmt.sess = [] ∧ t.mgmt.keys = m.keys ∧ t.mgmt.root = m.root ∧ t.mgmt.minsvn = m.minsvn ∧ t.mgmt.slot = slot
      ∧ t.mon.unlocked = false ∧ t.mon.modulus = s.mon.modulus ∧ t.beat.devt = 0 ∧ t.beat.bcnt = 0 ∧ t.beat.lock = .nolock ∧ t.beat.en = true ∧ t.beat.sten = false ∧ t.beat.period = BitVec.ofNat 15 (t.setting 0x1000 3 2250) ∧ t.beat.role = BitVec.ofNat 2 (t.setting 0x1000 1 0)
      ∧ t.power.duty = 8 ∧ t.power.bucket = 0 ∧ t.power.that = tjmax ∧ t.power.latch = 0 ∧ t.host.mbEn = false ∧ t.host.slIn = false ∧ t.host.slRt = false
      ∧ (∃ key, m.unwrap = some key ∧ t.mgmt.keyStore = [.identity key]) ∧ t.mgmt.udsLock = true
      ∧ (let ps := (List.range 18).filter (fun p => (t.setting 0x5000 3 0x3FFFF).testBit p)
         t.links.starts = ps.zipIdx.tail.map (fun x => (22500 * x.2, x.1)) ∧ ∀ p, p < 18 → (t.port p).st = if ps.head? = some p then .train else .off)
    (s.dev.st ≠ .off → m.romOnly = false →
      exec .warmStartRequest s = .next { s with mgmt := { m with startRq := 1 } } ∧ exec .coldStartRequest s = .next { s with mgmt := { m with startRq := 2 } }
      ∧ exec (.storeClearRequest 0x5A) s = .next { s with mgmt := { m with clear := true } } ∧ (v ≠ 0x5A → exec (.storeClearRequest v) s = .next s))
    ∧ (s.dev.st = .off → exec .supplyRise s = .next { s with dev := { s.dev with st := .tadpole, prev := .off, lastB := 0 }, mgmt := { m with startRq := 2, paused := none, risen := true } })
    ∧ (s.dev.st ≠ .off → exec .supplyRise s = .next s)
    ∧ ((s.dev.st = .off ∨ m.startRq = 2) → idle → supplied → good → r.leaves = none → Does (exec (.coldStart r) s) (fun t => fresh t ∧ t.clus = [] ∧ t.stks = [] ∧ t.mem = [] ∧ t.badMem = [] ∧ t.softMem = [] ∧ t.mgmt.kind = 1 ∧ t.mgmt.colds = (m.colds + 1) % 2 ^ 32 ∧ t.links.board = r.bpos ∧ t.i3cAddr = 0x30 + r.bpos.setWidth 7
        ∧ ∀ i, i / 256 ≠ 0x8001 → Table.get 0 t.cnt i = 0))
    ∧ (s.dev.st ≠ .off → m.startRq = 1 → idle → supplied → good → r.leaves = none → s.host.reqs = [] → s.loader.record.read = none → Does (exec (.warmStart r) s) (fun t => fresh t ∧ (∀ i, i < 8 → t.stack i = { Stack.reset with kept := true }) ∧ t.mem = s.mem ∧ t.badMem = s.badMem ∧ t.softMem = s.softMem
        ∧ (∀ cl, { t.clu cl with sync := { (t.clu cl).sync with watches := [] } } = Cluster.reset ∧ ∀ i b, (Table.get 0 (t.clu cl).sync.watches i).getLsbD b = (decide (96 ≤ b) && decide (b < 128) && (Table.get 0 (s.clu cl).sync.watches i).getLsbD b))
        ∧ t.mgmt.kind = 2 ∧ t.mgmt.colds = m.colds ∧ ∀ i, i / 256 ≠ 0x8001 → Table.get 0 t.cnt i = Table.get 0 s.cnt i))
    ∧ (m.startRq = 0 → m.paused = none → exec (.warmStart r) s = .next s ∧ (s.dev.st ≠ .off → exec (.coldStart r) s = .next s))
    ∧ (∀ n c, (s.dev.st = .off ∨ m.startRq = 2) → idle → supplied → good → r.leaves = some (n, c) → 7 ≤ n → n ≤ 11 → c ≠ 0 → Does (exec (.coldStart r) s) (fun t => t.dev.st = .tadpole ∧ t.mgmt.paused = some (r, n + 1) ∧ t.power.supply = (if c = 1 then .sag else if c = 2 then .warn else .under) ∧ t.cores = [] ∧ t.beat.en = false ∧ (c ≠ 2 → t.power.nGood = 0)))
    ∧ ((s.dev.st = .off ∨ m.startRq = 2) → r.failStep = none → m.unwrap = none → supplied → good → Does (exec (.coldStart r) s) (fun t => t.dev.st = .fault ∧ t.dev.cause = 4 ∧ t.mgmt.keyStore = [] ∧ t.mgmt.udsLock = true ∧ t.beat.en = false))
    ∧ (∀ r0 n, m.paused = some (r0, n) → m.kind = 1 → m.startRq = 0 → s.dev.st = .tadpole →
        (s.power.supply ≠ .good → exec (.coldStart r) s = .next s)
        ∧ (s.power.supply = .good → r0.failStep = none → r.leaves = none → m.pend.read.getD [] = [] → m.selection.trial = none → Does (exec (.coldStart r) s) (fun t => t.dev.st = .preop ∧ t.mgmt.paused = none ∧ t.beat.en = true ∧ (n ≤ 8 → t.dev.powered = s.dev.map) ∧ (n ≤ 9 → t.mem = []))))
    ∧ (s.dev.st ≠ .off → Does (exec .watchdogExpiry s) (fun t => Faulted s t 6) ∧ Does (exec .refclkLoss s) (fun t => Faulted s t 5 ∧ t.power.noRef = true))
    ∧ (s.dev.st = .off → exec .watchdogExpiry s = .next s ∧ exec .refclkLoss s = .next s)

/-- R451, R459 to R461, R464, R465, R467 to R469 and R474: each tick classifies the supply, of several states the one with the highest code; loss and over-voltage stop the regulators at once or after their ticks, 10 ms of UNDER moves to FAULT; a fall of PWR_WARN_N writes V3 into the entries that can still be written, and throttles to duty 2 after 4,500 cc where V3 is not in force; the thermal tick estimates T, halves the duty every 64 ticks of an excess, sets the hold bits, and limits each stack's rate; a region whose bit a request in PREOP clears powers down only when idle, and one refused is logged (log entry 168). The order of the supply states is log entry 98, the fall of A log entry 99, the phase of halvings and doublings log entry 100, and a region that was refused log entry 101. -/
def Obligations.PowerAndThermal : Prop :=
  ∀ (s : State) (mv mw : Nat) (low : Bool) (v : BitVec 16), s.dev.st ≠ .off →
    let p := s.power
    let now := s.beat.devt.toNat
    let run (n : Nat) (c : Prop) (n' : Nat) : Prop := (c → n' = n + 1) ∧ (¬ c → n' = 0)
    let bump (t : State) (i : Nat) : Prop := Table.get 0 t.cnt i = (Table.get 0 s.cnt i + 1) % 2 ^ 64
    let stops (i : Instr) (cause : Nat) : Prop := Does (exec i s) (fun t => t.dev.st = .off ∧ t.dev.prev = s.dev.st ∧ t.power.latch = cause ∧ t.power.lost = p.lost ++ (if s.mgmt.risen then [{ src := .off, dst := .tadpole }] else []) ++ [{ src := s.dev.st, dst := .off, cause := cause, beat := s.beat.bcnt }] ∧ t.cores = [] ∧ t.clus = [] ∧ t.stks = [] ∧ t.mem = [] ∧ t.net = [] ∧ t.loader.record = s.loader.record ∧ t.mgmt.store = s.mgmt.store ∧ t.mgmt.keys = s.mgmt.keys ∧ ∀ x ∈ t.log.recs, x ∈ s.log.recs ∧ x.flash = true)
    let lost : Prop := mv < 36000 ∨ (mv < 38000 ∧ 99 ≤ p.nLow)
    let high : Prop := 63000 < mv ∨ (60000 < mv ∧ 999 ≤ p.nOver)
    let until_ := if p.low = true ∧ low = false then now + 2250000 else p.warnTo
    let warn : Prop := low = true ∨ now < until_
    let under : Prop := (mv < 40000 ∧ 9 ≤ p.nUnder) ∨ (s.sensor 128).bad = true
    let sag : Prop := mv < 44000 ∧ 9 ≤ p.nSag
    let fine : Prop := 44000 ≤ mv ∧ mv ≤ 60000 ∧ 9 ≤ p.nGood
    let became (t : State) (n : Supply) : Prop := t.power.supply = n ∧ (n = p.supply ∨ n = .good → t.log = s.log ∧ t.cnt = s.cnt) ∧ (n ≠ p.supply → n ≠ .good → (∃ fields, t.log = (s.logEv 0x1301 true fields).log) ∧ (n = .sag ∨ n = .under → bump t 0x200503))
    let inMw := if (s.sensor 129).bad then p.ppeak * 1000 else mw
    let j := s.hottest 0 64 + (s.inputMw * 2 ^ 149 : Nat)
    let exT : Prop := tjmax ≤ j
    let exP : Prop := p.lowB = true ∨ 64 ≤ p.overPk ∨ p.supply = .under
    let deg (n : Int) : Int := n * degree
    (lost → stops (.supplyTick mv mw low) 1)
    ∧ (¬ lost → high → stops (.supplyTick mv mw low) 2)
    ∧ stops .thermalTrip 3
    ∧ (¬ lost → ¬ high → p.inUnder < 9999 → Does (exec (.supplyTick mv mw low) s) (fun t =>
        t.power.mv = mv ∧ t.power.low = low ∧ t.power.warnTo = until_ ∧ run p.nGood (44000 ≤ mv ∧ mv ≤ 60000) t.power.nGood ∧ run p.nSag (mv < 44000) t.power.nSag ∧ run p.nUnder (mv < 40000) t.power.nUnder ∧ run p.nLow (mv < 38000) t.power.nLow ∧ run p.nOver (60000 < mv) t.power.nOver
        ∧ t.power.emeas = p.emeas + 2250 * inMw ∧ run p.overPk (p.ppeak * 1000 < inMw) t.power.overPk ∧ run p.inUnder (t.power.supply = .under) t.power.inUnder ∧ { t with power := s.power, log := s.log, cnt := s.cnt } = s
        ∧ (under → became t .under) ∧ (¬ under → warn → became t .warn)
        ∧ (¬ under → ¬ warn → p.supply = .warn → (sag → became t .sag) ∧ (¬ sag → became t .good))
        ∧ (¬ under → ¬ warn → p.supply ≠ .warn → (sag → became t .sag) ∧ (¬ sag → fine → became t .good) ∧ (¬ sag → ¬ fine → became t p.supply))))
    ∧ (¬ lost → ¬ high → under → p.inUnder = 9999 → Does (exec (.supplyTick mv mw low) s) (fun t => Faulted s t 5))
    ∧ Does (exec .pwrWarnFall s) (fun t => bump t 0x200501 ∧ t.power = { p with low := true, falls := p.falls ++ [now] } ∧ t.cores = s.cores ∧ t.beat = s.beat ∧ t.mem = s.mem
        ∧ (s.loader.img ≠ 4 → t.loader = s.loader ∧ t.net = s.net)
        ∧ (s.loader.img = 4 → s.loader.image ≠ none → Table.get 0 t.loader.ring ((s.beat.bcnt.toNat + 2) % 2 ^ 32) = 3
            ∧ (now + 456 ≤ s.beat.lastApp + s.beat.period.toNat → Table.get 0 t.loader.ring ((s.beat.bcnt.toNat + 1) % 2 ^ 32) = 3)))
    ∧ ((∃ t0 ∈ p.falls, t0 + 4500 ≤ now) → Does (exec .warnThrottle s) (fun t => t.power.falls = p.falls.filter (fun (t0 : Nat) => decide (now < t0 + 4500)) ∧ { t with power := s.power, log := s.log, cnt := s.cnt } = s
        ∧ t.power.warnThr = (p.warnThr || decide (s.loader.var ≠ 3)) ∧ t.power.duty = min p.exDuty (if t.power.warnThr then 2 else 8)
        ∧ (t.power.duty = p.duty → t.log = s.log) ∧ (t.power.duty ≠ p.duty → ∃ fields, t.log = (s.logEv 0x1302 (decide (t.power.duty < 8)) fields).log)))
    ∧ ((∀ t0 ∈ p.falls, now < t0 + 4500) → exec .warnThrottle s = .next s)
    ∧ (p.hotRun < 9999 → Does (exec .thermalTick s) (fun t =>
        t.power.jm = j ∧ t.power.that = max j (tjmax - (4 * now * 2 ^ 149 / 9 : Nat)) ∧ t.cores = s.cores ∧ t.mem = s.mem ∧ t.beat = s.beat ∧ t.net = s.net ∧ t.loader = s.loader
        ∧ t.power.duty = min t.power.exDuty (if p.warnThr then 2 else 8) ∧ (t.power.duty < 8 → bump t 0x200502)
        ∧ ((exP ∨ exT) → t.power.exRun = p.exRun + 1 ∧ t.power.exDuty = if (p.exRun + 1) % 64 = 0 then max 1 (p.exDuty / 2) else p.exDuty)
        ∧ (¬ exP → ¬ exT → t.power.exRun = 0 ∧ (t.power.exDuty = p.exDuty ∨ (t.power.exDuty = min 8 (2 * p.exDuty) ∧ j ≤ tjmax - deg 3 ∧ 0 ≤ p.bucket)))
        ∧ (exP → t.dev.holds.getLsbD 0 = true) ∧ (exT → t.dev.holds.getLsbD 1 = true)
        ∧ (s.dev.st = .run → s.dev.holds = 0 → t.dev.st = if t.dev.holds = 0 then .run else .hold) ∧ (s.dev.st = .hold → t.dev.st = .hold) ∧ (s.dev.st ≠ .run → s.dev.st ≠ .hold → t.dev.st = s.dev.st)
        ∧ ∀ i, i < 8 →
            let hot := s.hottest (64 + 8 * i) 8
            let r := (s.stack i).rate
            let want := if hot < deg 90 then 8 else if hot < deg 93 then 6 else if hot < deg 95 then 4 else 2
            (want < r → (t.stack i).rate = want) ∧ (r ≤ want → ((t.stack i).rate = r ∨ (t.stack i).rate = r + 2)) ∧ (r = 8 → want = 8 → (t.stack i).rate = 8) ∧ ((t.stack i).hotRef = decide (deg 85 < hot))
            ∧ { t.stack i with rate := r, hotRef := (s.stack i).hotRef } = s.stack i))
    ∧ (p.hotRun = 9999 → p.exDuty = 1 → tjmax + deg 5 ≤ j → Does (exec .thermalTick s) (fun t => t.dev.st = .fault ∧ t.dev.cause = if s.dev.cause = 0 then 5 else s.dev.cause))
    ∧ (s.dev.st ≠ .preop → exec (.regionPowerRequest v) s = .next s)
    ∧ (s.dev.st = .preop → Does (exec (.regionPowerRequest v) s) (fun t => t.power.req = v ∧ { t with power := s.power, dev := s.dev, cores := s.cores, clus := s.clus, log := s.log, cnt := s.cnt } = s ∧ { t.dev with powered := s.dev.powered } = s.dev
        ∧ (∀ n, n < 16 → s.dev.map.getLsbD n = true →
            (p.req.getLsbD n = v.getLsbD n → t.dev.powered.getLsbD n = s.dev.powered.getLsbD n ∧ t.power.busyR.getLsbD n = false)
            ∧ (p.req.getLsbD n ≠ v.getLsbD n → (t.dev.powered.getLsbD n = true ↔ v.getLsbD n = true ∨ (s.dev.powered.getLsbD n = true ∧ s.regionIdle n = false))
              ∧ (t.power.busyR.getLsbD n = true ↔ v.getLsbD n = false ∧ s.dev.powered.getLsbD n = true ∧ s.regionIdle n = false)))
        ∧ (∀ c : CoreId, let n := regionOf c.toNat; (p.req.getLsbD n = v.getLsbD n ∨ v.getLsbD n = s.dev.powered.getLsbD n ∨ (v.getLsbD n = false ∧ s.regionIdle n = false)) → t.core c = s.core c)
        ∧ ((∀ n, n < 16 → s.dev.map.getLsbD n = true → p.req.getLsbD n ≠ v.getLsbD n → v.getLsbD n = false → s.dev.powered.getLsbD n = true → s.regionIdle n = true) → t.log = s.log)))

/-- R481 to R485: a sensor without a conversion for 4 ticks, or with one outside its range, is invalid, logged once, until 64 valid conversions in a row; a rail whose monitor, a sensor of numbers 130 to 143 (DESIGN CHOICE, log entry 174), is invalid or reads outside its window of 5 %, or of which the hardware says so, for 10 ticks in a row moves the device to FAULT, and one of the rails that a warm start keeps, outside 3 % while the start waits, makes its S9 fail (R523, log entry 107); the oldest waiting records go to flash, and once fewer than 4,096 entries wait, the events lost are announced by one record. The width of a log field is log entry 28, and the order of records in flash log entry 113. -/
def Obligations.SensorsAndLog : Prop :=
  ∀ (s : State) (id : Nat) (v : BitVec 32) (rail : Fin 14) (n : Nat), s.dev.st ≠ .off →
    let x := s.sensor id
    let only (t : State) (y : Sensor) : Prop := t.sensor id = y ∧ (∀ j, j ≠ id → t.sensor j = s.sensor j) ∧ { t with mgmt := s.mgmt, log := s.log, cnt := s.cnt } = s ∧ { t.mgmt with sensors := s.mgmt.sensors } = s.mgmt
    let quiet (t : State) : Prop := t.log = s.log
    let told (t : State) : Prop := (x.bad = true → t.log = s.log) ∧ (x.bad = false → ∃ fields, t.log = (s.logEv 0x1305 true fields).log)
    let lo : Int := if id < 128 then -40 else 0
    let hi : Int := if id < 64 then 150 else if id < 128 then 125 else if id = 128 then 70 else 60
    let inRange : Prop := (∃ neg m e, fp32.decode v.toNat = .fin neg m e) ∧ (fp32.decode v.toNat).lt (ofInt lo) = false ∧ (ofInt hi).lt (fp32.decode v.toNat) = false
    let tick := s.beat.devt.toNat / 2250
    let seen : Nat × Nat := Table.get (0, 0) s.mgmt.rails rail.val
    let again : Prop := seen.2 ≠ 0 ∧ seen.1 + 1 = tick
    let size (rs : List LogRec) : Nat := (rs.map (fun (r : LogRec) => logEntries r.fields.length)).sum
    let flushed (l : Log) : List LogRec := s.log.recs.mapIdx (fun i (r : LogRec) => { r with flash := r.flash || decide (((s.log.recs.take i).filter (fun (q : LogRec) => !q.flash)).length < n) })
    (id < 130 →
      (x.missed < 3 → Does (exec (.sensorSample id none) s) (fun t => only t { x with missed := x.missed + 1 } ∧ quiet t))
      ∧ (3 ≤ x.missed → Does (exec (.sensorSample id none) s) (fun t => only t { x with missed := x.missed + 1, bad := true, good := 0 } ∧ told t))
      ∧ (¬ inRange → Does (exec (.sensorSample id (some v)) s) (fun t => only t { x with missed := 0, bits := v, bad := true, good := 0 } ∧ told t))
      ∧ (inRange → x.bad = false → Does (exec (.sensorSample id (some v)) s) (fun t => only t { x with missed := 0, bits := v } ∧ quiet t))
      ∧ (inRange → x.bad = true → x.good < 63 → Does (exec (.sensorSample id (some v)) s) (fun t => only t { x with missed := 0, bits := v, good := x.good + 1 } ∧ quiet t))
      ∧ (inRange → x.bad = true → 63 ≤ x.good → Does (exec (.sensorSample id (some v)) s) (fun t => only t { x with missed := 0, bits := v, bad := false, good := 0 } ∧ quiet t)))
    ∧ (130 ≤ id → id < 144 →
        let at_ : Nat × Nat := Table.get (0, 0) s.mgmt.rails (id - 130)
        let count := if at_.2 = 0 then 1 else if at_.1 = tick then at_.2 else if at_.1 + 1 = tick then at_.2 + 1 else 1
        let legal : Prop := (∃ neg m e, fp32.decode v.toNat = .fin neg m e) ∧ (fp32.decode v.toNat).lt (ofInt 0) = false ∧ (ofInt 2).lt (fp32.decode v.toNat) = false
        let within : Prop := (fp32.decode v.toNat).lt ((ofInt 95).div (ofInt 100)) = false ∧ ((ofInt 105).div (ofInt 100)).lt (fp32.decode v.toNat) = false
        let tight : Prop := (fp32.decode v.toNat).lt ((ofInt 97).div (ofInt 100)) = false ∧ ((ofInt 103).div (ofInt 100)).lt (fp32.decode v.toNat) = false
        let out (i : Instr) (y : Sensor) : Prop := Does (exec i s) (fun t => t.sensor id = y ∧ (count < 10 → t.dev = s.dev ∧ t.mgmt.rails = Table.put s.mgmt.rails (id - 130) (tick, count)) ∧ (10 ≤ count → t.dev.st = .fault))
        (x.bad = false → legal → within → (tight ∨ s.mgmt.paused = none ∨ s.mgmt.kind ≠ 2) → Does (exec (.sensorSample id (some v)) s) (fun t => only t { x with missed := 0, bits := v } ∧ quiet t))
        ∧ (∀ r n, x.bad = false → legal → within → ¬ tight → s.mgmt.paused = some (r, n) → s.mgmt.kind = 2 → n ≤ 9 → id - 130 ∈ [7, 8, 10, 11, 12, 13] → Does (exec (.sensorSample id (some v)) s) (fun t => quiet t ∧ t.mgmt.kind = 3 ∧ t.mgmt.paused = some ({ r with srFail := List.finRange 8 }, n)))
        ∧ (x.bad = false → legal → ¬ within → out (.sensorSample id (some v)) { x with missed := 0, bits := v })
        ∧ (¬ legal → out (.sensorSample id (some v)) { x with missed := 0, bits := v, bad := true, good := 0 })
        ∧ (x.bad = false → x.missed < 3 → Does (exec (.sensorSample id none) s) (fun t => only t { x with missed := x.missed + 1 } ∧ quiet t))
        ∧ (3 ≤ x.missed → out (.sensorSample id none) { x with missed := x.missed + 1, bad := true, good := 0 }))
    ∧ (144 ≤ id → exec (.sensorSample id none) s = .next s ∧ exec (.sensorSample id (some v)) s = .next s)
    ∧ (again → seen.2 = 9 → Does (exec (.railEvent rail) s) (fun t => Faulted s t 5))
    ∧ (again → seen.2 < 9 → exec (.railEvent rail) s = .next { s with mgmt := { s.mgmt with rails := Table.put s.mgmt.rails rail.val (tick, seen.2 + 1) } })
    ∧ (seen.2 = 0 ∨ (seen.1 ≠ tick ∧ seen.1 + 1 ≠ tick) → exec (.railEvent rail) s = .next { s with mgmt := { s.mgmt with rails := Table.put s.mgmt.rails rail.val (tick, 1) } })
    ∧ (s.log.lost = 0 → size s.log.recs ≤ 524288 → exec (.logFlush n) s = .next { s with log := { s.log with recs := flushed s.log } })
    ∧ (s.log.lost ≠ 0 → size s.log.recs ≤ 524288 → s.log.waiting < 4096 → Does (exec (.logFlush n) s) (fun t => t.log.lost = 0 ∧ { t with log := s.log } = s
        ∧ ∃ r, t.log.recs = flushed s.log ++ [r] ∧ r.code = 0x1206 ∧ r.att = true ∧ r.seq = s.log.nextSeq ∧ r.fields = lf s.log.lost ++ lf s.log.lostSeq ++ lf s.log.lostBeat.toNat))

/-- R446, R447, R490, R491, R495, R499 and R503 to R505: a write of range 0x7000 is accepted only within an established session, of a requester whose root certificate has the operator's hash where one is set; a tenant release begins the erasure of every region of its directory entries unless a slot is bound to it; recovery stops STEN, pulls and records, raises INTP.MGMT on every running core and marks the area incomplete; a recovery load leaves 0x9001 as it is and reports at 0x7050:04, and where a recovery image runs its erasure is recorded and comes first (log entry 117); MCTP reads and writes answer with their status, after the vendor ID and with the type and length of the entry (DEDUCED, log entry 173), another command or vendor ID with BADOP, and a store that does not take the value with MEMERR. A recovery load has no peers and releases in one step (log entry 121), a persisted store may fail (log entry 172), and the rows for tenant release, recovery and MINSVN stand for writes within a session (log entry 123). -/
def Obligations.SecurityAndRecovery : Prop :=
  ∀ (s : State) (session ten : Nat) (v : Byte) (bytes : List Byte) (k : Fin 32) (mbase : DWord) (tag sub : Byte) (index : BitVec 16) (off : Word) (secured : Option Nat) (other : BitVec 16),
    let m := s.mgmt
    let on : Prop := s.dev.st ≠ .off ∧ m.romOnly = false
    let zero : Prop := ∀ b ∈ m.root, b = 0
    let mine := m.sess.find? (fun (x : Session) => decide (x.id = session) && x.done)
    let may : Prop := ∃ x, mine = some x ∧ (zero ∨ x.root = some m.root)
    let refusals (is : List Instr) : Prop := ∀ i ∈ is, exec i s = .next s
    let extents := (s.tenantExtents ten).filter (fun (x : Nat × Nat × Nat) => decide (x.2.2 ≠ 0))
    let free : Prop := 1 ≤ ten ∧ ten ≤ 4095 ∧ s.tenantBound ten = false
    let area := Table.look m.boot 0x705002
    let ax := match area with | some bs => leNat bs | none => 0x8E00000000
    let stage := match Table.look m.boot 0x900001 with | some bs => leNat bs | none => 0x8F00000000
    let meets (a n : Nat) : Prop := n ≠ 0 ∧ a < ax + 2 ^ 32 ∧ ax < a + n
    let overlaps : Prop := meets stage (2 ^ 32) ∨ ∃ im, s.loader.image = some im ∧ meets s.loader.mbase.toNat im.msize
    let from_ : Prop := (s.dev.st = .ready ∨ s.dev.st = .run ∨ s.dev.st = .hold) ∧ m.axo = none
    let runs : List Nat := (s.cores.filter (fun (kv : Nat × Core) => s.coreOn kv.1 && decide (kv.2.run.st = .running))).map (fun (kv : Nat × Core) => kv.1)
    let chk := s.loadCheck (ax + 0x100000) mbase.toNat true true
    let image (t : State) : Prop := { t.loader with cmpN := s.loader.cmpN, cmpPos := s.loader.cmpPos, cmpNeg := s.loader.cmpNeg, cmpOne := s.loader.cmpOne } = s.loader
    let replies (t : State) (cmd st ty : Nat) (len : Nat) (bs : List Byte) : Prop := t.mgmt.resp = bytesOf Config.vendorId 2 ++ [BitVec.ofNat 8 cmd, tag, BitVec.ofNat 8 st, BitVec.ofNat 8 ty, sub, 0] ++ leBytes 2 len ++ leBytes 4 off.toNat ++ bs
    let answers (i : Instr) (cmd st ty len : Nat) (bs : List Byte) : Prop := Does (exec i s) (fun t => replies t cmd st ty len bs ∧ { t with mgmt := { t.mgmt with resp := m.resp } } = s)
    let path := DPath.mctp secured
    let ent := s.visible path index.toNat sub.toNat
    let hd : Nat × Nat := match ent with | some e => (e.type.code, e.value.length) | none => (0, 0)
    ((¬ may ∨ ¬ on) → refusals [.setRootHash session bytes, .keyInstall session k bytes, .unlockModulusInstall session bytes, .minsvnRaise ⟨session, v⟩, .tenantRelease ⟨session, BitVec.ofNat 16 ten⟩, .recoveryStart ⟨session, v⟩, .recoveryLoad ⟨session, mbase⟩])
    ∧ (on → may → bytes.length = 64 → exec (.setRootHash session bytes) s = .next { s with mgmt := { m with root := bytes } })
    ∧ (on → may → bytes.length ≠ 64 → exec (.setRootHash session bytes) s = .next s)
    ∧ (on → may → bytes.length = 512 → exec (.keyInstall session k bytes) s = .next { s with mgmt := { m with keys := Table.put m.keys k.val bytes } } ∧ exec (.unlockModulusInstall session bytes) s = .next { s with mon := { s.mon with modulus := bytes } })
    ∧ (on → may → exec (.keyInstall session k []) s = .next { s with mgmt := { m with keys := Table.erase m.keys k.val } } ∧ exec (.unlockModulusInstall session []) s = .next { s with mon := { s.mon with modulus := [] } })
    ∧ (on → may → m.minsvn ≤ v.toNat → v.toNat ≤ (m.fwOf m.slot).svn → exec (.minsvnRaise ⟨session, v⟩) s = .next { s with mgmt := { m with minsvn := v.toNat } })
    ∧ ((v.toNat < m.minsvn ∨ (m.fwOf m.slot).svn < v.toNat) → exec (.minsvnRaise ⟨session, v⟩) s = .next s)
    ∧ (ten < 2 ^ 16 → ¬ free → exec (.tenantRelease ⟨session, BitVec.ofNat 16 ten⟩) s = .next s)
    ∧ (on → may → free → extents ≠ [] → Does (exec (.tenantRelease ⟨session, BitVec.ofNat 16 ten⟩) s) (fun t => t.mgmt.eraseId = m.eraseId + 1 ∧ t.mgmt.pend = m.pend.write (m.pend.read.getD [] ++ [{ id := m.eraseId, what := .tenant ten, outs := extents.map (fun (x : Nat × Nat × Nat) => (x.1, x.2.1, x.2.2, false)) }]) ∧ t.mgmt.erase = m.erase ++ [{ id := m.eraseId, what := .tenant ten, outs := extents.map (fun (x : Nat × Nat × Nat) => (x.1, x.2.1, x.2.2, false)) }]
        ∧ { t with net := s.net, mgmt := s.mgmt } = s ∧ ∃ ps, t.net = s.net ++ ps ∧ ps ≠ [] ∧ ∀ p ∈ ps, p.kind = .msg ∧ p.src = 0x408 ∧ ∃ i, i < 8 ∧ p.addr = mkFAddr s.own (0x200008010000 + i * 0x200000)))
    ∧ (on → may → free → (∀ i, i < 8 → ∀ e ∈ (s.stack i).dir, eTen e.2 ≠ ten) → Does (exec (.tenantRelease ⟨session, BitVec.ofNat 16 ten⟩) s) (fun t => { t with mgmt := s.mgmt, cnt := s.cnt, log := s.log } = s
        ∧ Table.get 0 t.cnt 0x703001 = (Table.get 0 s.cnt 0x703001 + 1) % 2 ^ 64 ∧ ∃ fields, t.log = (s.logEv 0x1403 false fields).log))
    ∧ ((v ≠ 1 ∨ ¬ from_ ∨ overlaps) → exec (.recoveryStart ⟨session, v⟩) s = .next s)
    ∧ (on → may → from_ → ¬ overlaps → (∀ kv ∈ s.cores, kv.1 < 1024) → Does (exec (.recoveryStart ⟨session, 1⟩) s) (fun t => t.mgmt.axo = some (.cores (s.beat.devt.toNat + 2250000) runs) ∧ t.beat.sten = false ∧ t.host = { s.host with slIn := false, slRt := false } ∧ t.dev = s.dev ∧ t.net = s.net ∧ t.stks = s.stks
        ∧ ∀ c : CoreId, t.core c = if c.toNat ∈ runs then { s.core c with cpu := { (s.core c).cpu with intp := (s.core c).cpu.intp ||| 1 } } else s.core c))
    ∧ (s.dev.st ≠ .axolotl → exec (.recoveryLoad ⟨session, mbase⟩) s = .next s)
    ∧ (on → may → s.dev.st = .axolotl → (∀ kv ∈ s.cores, kv.2.run.st ≠ .running) → (∀ cl, cl < 64 → (s.clu cl).sync.vm = true ∨ s.vmQuiet cl = true) → (∀ im rmap, chk.2 = .inr (im, rmap) → im.relocs = [] ∧ ∃ rows, im.rows = some rows ∧ ∀ y ∈ rows, y.tgt = 0) → Does (exec (.recoveryLoad ⟨session, mbase⟩) s) (fun t =>
        image t ∧ t.dev.st = .axolotl ∧ t.beat.sten = s.beat.sten ∧ (m.rimage = none → t.mgmt.rwait = none)
        ∧ (∀ e, chk.2 = .inl e → t.mgmt.rlStat = BitVec.ofNat 8 e.code ∧ t.mem = s.mem ∧ t.cores = s.cores)
        ∧ (∀ im rmap old rm mb, chk.2 = .inr (im, rmap) → m.rimage = some (old, rm, mb) → t.mgmt.rwait = some mbase ∧ t.mgmt.rimage = none ∧ t.mem = s.mem
            ∧ let xs := (interExtents mb.toNat old.msize).filter (fun (x : Nat × Nat × Nat) => decide (x.2.2 ≠ 0))
              (xs ≠ [] → ∃ e, e.what = .image old.imgid ∧ e.outs = xs.map (fun (x : Nat × Nat × Nat) => (x.1, x.2.1, x.2.2, false)) ∧ t.mgmt.erase = m.erase ++ [e] ∧ t.mgmt.pend = m.pend.write (m.pend.read.getD [] ++ [e])))
        ∧ (∀ im rmap, chk.2 = .inr (im, rmap) → m.rimage = none → t.mgmt.rlStat ≠ 0 ∨ (∃ im', t.mgmt.rimage = some (im', rmap, mbase)) ∧ ∀ j ∈ im.placed, (t.core (BitVec.ofNat 10 (physCore rmap j))).run.st = .running)))
    ∧ (on → other ≠ Config.vendorId → answers (.mctpDictRead secured other { tag := tag } index sub off) 0x81 0x20 0 0 [] ∧ answers (.mctpDictWrite secured other tag index sub off bytes) 0x82 0x20 0 0 [])
    ∧ (on → v ≠ 1 → v ≠ 2 → answers (.mctpDictRead secured other { tag := tag, cmd := v } index sub off) (v.toNat ||| 0x80) 0x20 0 0 [])
    ∧ (on → (ent = none → answers (.mctpDictRead secured Config.vendorId { tag := tag } index sub off) 0x81 0x2A 0 0 [])
        ∧ (∀ e, ent = some e → e.cls = .wo → answers (.mctpDictRead secured Config.vendorId { tag := tag } index sub off) 0x81 0x23 e.type.code e.value.length [])
        ∧ (∀ e, ent = some e → e.cls ≠ .wo → e.value.length ≤ 1024 → off.toNat < e.value.length → answers (.mctpDictRead secured Config.vendorId { tag := tag } index sub off) 0x81 0 e.type.code e.value.length ((e.value.drop off.toNat).take 232)))
    ∧ (on → (232 < bytes.length → answers (.mctpDictWrite secured Config.vendorId tag index sub off bytes) 0x82 0x21 hd.1 hd.2 []) ∧ (bytes.length ≤ 232 → off ≠ 0 → answers (.mctpDictWrite secured Config.vendorId tag index sub off bytes) 0x82 0x24 hd.1 hd.2 []))
    ∧ (on → bytes.length ≤ 232 → off = 0 → s.dictCheck path index.toNat sub.toNat bytes ≠ 0 → answers (.mctpDictWrite secured Config.vendorId tag index sub off bytes) 0x82 (s.dictCheck path index.toNat sub.toNat bytes) hd.1 hd.2 [])
    ∧ (on → bytes.length ≤ 232 → off = 0 → s.dictCheck path index.toNat sub.toNat bytes = 0 → index.toNat / 2 ^ 8 ∈ [0x10, 0x90] → Does (exec (.mctpDictWrite secured Config.vendorId tag index sub off bytes) s) (fun t => t.mgmt.writes = m.writes + 1 ∧ t.mgmt.boot = m.boot ∧ { t with mgmt := m } = s
        ∧ if Config.storeBad m.writes = true ∧ (∃ e, ent = some e ∧ e.cls = .rwp) then replies t 0x82 0x27 hd.1 hd.2 [] ∧ t.mgmt.vals = m.vals
          else (∃ ty len, replies t 0x82 0 ty len []) ∧ Table.look t.mgmt.vals (index.toNat * 256 + sub.toNat) = some bytes))

/-- R494: an update goes step by step into the slot that is not ACTIVE; a component that does not verify under R492 is reported as a failure; activation puts the written slot on trial for the next start; a command out of its step changes nothing but the response. States and codes of DSP0267 are PRESUMED (log entry 129). -/
def Obligations.FirmwareUpdate : Prop :=
  ∀ (s : State) (len off : Nat) (bytes : List Byte), s.dev.st ≠ .off → s.mgmt.romOnly = false →
    let m := s.mgmt
    let spare := !m.selection.active
    let answers (i : Instr) (m' : Mgmt) (bs : List Byte) : Prop := exec i s = .next { s with mgmt := { m' with resp := bs } }
    let refused (i : Instr) : Prop := answers i m [0x84]
    let written (bs : List Byte) (m' : Mgmt) : Mgmt := if spare then { m' with slotB := .bytes bs } else { m' with slotA := .bytes bs }
    let other := if spare then m.slotB else m.slotA
    answers .queryDeviceIdentifiers m ([0, 6, 0, 0, 0, 1, 0, 0, 2, 0] ++ bytesOf Config.vendorId 2)
    ∧ answers .getFirmwareParameters m (0 :: leBytes 4 (m.fwOf m.slot).version ++ leBytes 4 (if other.verifies m.minsvn then other.version else 0))
    ∧ answers .getStatus m [0, BitVec.ofNat 8 m.pldm.code]
    ∧ (m.pldm = .idle → answers .requestUpdate { m with pldm := .learn, fw := [], fwLen := 0 } [0]) ∧ (m.pldm ≠ .idle → refused .requestUpdate)
    ∧ (m.pldm = .learn → answers .passComponentTable { m with pldm := .ready } [0]) ∧ (m.pldm ≠ .learn → refused .passComponentTable)
    ∧ ((m.pldm = .ready ∨ m.pldm = .activate) → len ≤ 2 ^ 23 → answers (.updateComponent len) (written [] { m with pldm := .download, fw := [], fwLen := len }) [0])
    ∧ ((m.pldm ≠ .ready ∧ m.pldm ≠ .activate) → refused (.updateComponent len))
    ∧ (m.pldm = .download → off = m.fw.length → off + bytes.length ≤ m.fwLen → answers (.requestFirmwareData off bytes) (written (m.fw ++ bytes) { m with fw := m.fw ++ bytes }) [0])
    ∧ (m.pldm ≠ .download → refused (.requestFirmwareData off bytes))
    ∧ (m.pldm = .download → m.fw.length = m.fwLen → answers .transferComplete { m with pldm := .verify } [0]) ∧ ((m.pldm ≠ .download ∨ m.fw.length ≠ m.fwLen) → refused .transferComplete)
    ∧ (m.pldm = .verify → other.verifies m.minsvn = true → answers .verifyComplete { m with pldm := .apply } [0]) ∧ (m.pldm = .verify → other.verifies m.minsvn = false → answers .verifyComplete m [1])
    ∧ (m.pldm ≠ .verify → refused .verifyComplete)
    ∧ (m.pldm = .apply → answers .applyComplete { m with pldm := .activate } [0]) ∧ (m.pldm ≠ .apply → refused .applyComplete)
    ∧ (m.pldm = .activate → answers .activateFirmware { m with pldm := .idle, fw := [], fwLen := 0, sel := m.sel.write { m.selection with trial := some spare, tries := 0 } } [0]) ∧ (m.pldm ≠ .activate → refused .activateFirmware)
    ∧ ((m.pldm = .download ∨ m.pldm = .verify ∨ m.pldm = .apply) → answers .cancelUpdateComponent { m with pldm := .ready, fw := [], fwLen := 0 } [0])
    ∧ ((m.pldm ≠ .download ∧ m.pldm ≠ .verify ∧ m.pldm ≠ .apply) → refused .cancelUpdateComponent)
    ∧ (m.pldm ≠ .idle → answers .cancelUpdate { m with pldm := .idle, fw := [], fwLen := 0 } [0]) ∧ (m.pldm = .idle → refused .cancelUpdate)

/-- R489, R496 and R497: the responder answers from PREOP on; version, capabilities and algorithms come in order; slot 0 alone has a chain; challenges and measurements are signed, over blocks taken at one instant; two sessions at most, a third KEY_EXCHANGE gets BUSY, and a session's requests need it to exist; FINISH and KEY_UPDATE give it fresh keys, and its requester's root is that of a chain whose signatures verify (log entry 124). Codes of DSP0274 are PRESUMED, and the signature, the responder's share and the keys are open values (log entries 130, 193). -/
def Obligations.Attestation : Prop :=
  ∀ (s : State) (slot index : Byte) (off len : BitVec 16) (nonce : List Byte) (x : KeyExchange) (session : Nat),
    s.dev.st ≠ .off → s.dev.st ≠ .tadpole → s.mgmt.romOnly = false →
    let m := s.mgmt
    let answers (i : Instr) (m' : Mgmt) (bs : List Byte) : Prop := exec i s = .next { s with mgmt := { m' with resp := bs } }
    let signs (i : Instr) (m' : Mgmt) (bs : List Byte) : Prop := exec i s = .next { s with free := s.free + 1, mgmt := { m' with resp := bs ++ (Config.identitySign s.free bs).take 512 } }
    let keyed (i : Instr) (bs : List Byte) : Prop :=
      exec i s = .next { s with free := s.free + 1, mgmt := { m with resp := bs, sess := m.sess.map (fun (x : Session) => if x.id = session then { x with done := true, keys := (List.range 64).map (Config.sessionKey s.free) } else x) } }
    let early (n : Nat) (is : List Instr) : Prop := m.spdm < n → ∀ i ∈ is, answers i m [0x7F, 4]
    let chain := Config.certChain.take 4096
    let part := (chain.drop off.toNat).take len.toNat
    let block (i : Nat) : List Byte := s.measBlock i
    let known : Prop := ∃ x ∈ m.sess, x.id = session
    let open_ : Prop := ∃ x ∈ m.sess, x.id = session ∧ x.done = true
    (chainRoot [] = none ∧ ∀ der rest root, chainRoot (der :: rest) = some root → root = sha512 der ∧ ∃ c, certOf der = some c ∧ pssVerify c.key c.tbs c.sig = true
        ∧ ∀ k, k + 1 < (der :: rest).length → ∃ a b, certOf ((der :: rest).getD k []) = some a ∧ certOf ((der :: rest).getD (k + 1) []) = some b ∧ b.issuer = a.subject ∧ pssVerify a.key b.tbs b.sig = true)
    ∧ answers .getVersion { m with spdm := 1 } [0x04, 0x12]
    ∧ early 1 [.getCapabilities] ∧ early 2 [.negotiateAlgorithms]
    ∧ early 3 [.getDigests, .getCertificate slot off len, .challenge slot nonce, .getMeasurements index, .keyExchange x, .finish session, .heartbeat session, .keyUpdate session, .endSession session]
    ∧ (1 ≤ m.spdm → answers .getCapabilities { m with spdm := max 2 m.spdm } (0x61 :: leBytes 4 0x63D6))
    ∧ (2 ≤ m.spdm → answers .negotiateAlgorithms { m with spdm := 3 } (0x63 :: leBytes 4 8 ++ leBytes 4 0x40 ++ leBytes 4 4 ++ leBytes 2 0x10 ++ leBytes 2 2))
    ∧ (3 ≤ m.spdm →
        answers .getDigests m ([0x01, 1] ++ sha512 chain)
        ∧ (slot ≠ 0 → answers (.getCertificate slot off len) m [0x7F, 1] ∧ answers (.challenge slot nonce) m [0x7F, 1])
        ∧ (off.toNat ≤ chain.length → answers (.getCertificate 0 off len) m ([0x02, 0] ++ leBytes 2 part.length ++ leBytes 2 (chain.length - off.toNat - part.length) ++ part))
        ∧ signs (.challenge 0 nonce) m ([0x03, 0] ++ sha512 chain ++ nonce)
        ∧ signs (.getMeasurements 0) m [0x60, 7]
        ∧ signs (.getMeasurements 0xFF) m ([0x60, 7] ++ block 1 ++ block 2 ++ block 3 ++ block 4 ++ block 5 ++ block 6 ++ block 7)
        ∧ (0 < index.toNat → index.toNat ≤ 7 → signs (.getMeasurements index) m ([0x60, 1] ++ block index.toNat))
        ∧ (7 < index.toNat → index ≠ 0xFF → answers (.getMeasurements index) m [0x7F, 1])
        ∧ (2 ≤ m.sess.length → answers (.keyExchange x) m [0x7F, 3])
        ∧ (m.sess.length < 2 → signs (.keyExchange x) { m with sess := m.sess ++ [{ id := m.sessId, done := false, root := chainRoot x.chain, share := x.share }], sessId := m.sessId + 1 }
            (0x64 :: leBytes 4 m.sessId ++ (Config.dheShare s.free).take 96))
        ∧ (known → keyed (.finish session) [0x65])
        ∧ (¬ known → answers (.finish session) m [0x7F, 2])
        ∧ (open_ → answers (.heartbeat session) m [0x68] ∧ keyed (.keyUpdate session) [0x69] ∧ answers (.endSession session) { m with sess := m.sess.filter (fun (x : Session) => decide (x.id ≠ session)) } [0x6C])
        ∧ (¬ open_ → answers (.heartbeat session) m [0x7F, 2] ∧ answers (.keyUpdate session) m [0x7F, 2] ∧ answers (.endSession session) m [0x7F, 2]))

/-! ## The Varan monitor (chapter 22) -/

/-- R509 to R516: an idle monitor executes a line as it arrives, a busy one receives it, and one of more than 3,200 characters is discarded with er 21; a character is taken a cycle, a line is parsed into its command, with BADOP for an unknown keyword and BADLEN for fields that do not fit; st and lr answer in every state but OFF, lock in OFF too, and the others where S3 has not failed; or and ow apply the checks of Table 19.3, and a value of more than 1,024 bytes is not read; a nonce is good for one unlock within 60 s, and any failure answers ACCESS and discards it; lock, and 15 minutes without a line, relock, each relock logged; mr, mw and cs need the unlocked monitor, mr and mw go on item by item, and reach what the management subsystem reaches. That an or beyond 1,024 bytes and an lr beyond 16 records end with RANGE, an or of a longer value too, which lines st, lr and lock answer, the names of cs and the line's own buffer are the model's choices (log entries 125 to 128, 194, 195). Lines as rows, statuses of limits, unanswered lines, the characters on the line and the refusal of long values are log entries 125, 126, 128, 194 and 195. -/
def Obligations.Monitor : Prop :=
  ∀ (s : State) (index : BitVec 16) (sub : Byte) (off len seq n core : Nat) (bytes : List Byte) (w : Width) (addr : DWord),
    let s1 : State := { s with mon := { s.mon with lastLine := s.beat.devt.toNat } }
    let now := s.beat.devt.toNat
    let on : Prop := s.dev.st ≠ .off ∧ s.mgmt.romOnly = false
    let lines : List (Instr × MonCmd) := [(.varanSt, .st), (.varanOr index sub off len, .od index.toNat sub.toNat off len), (.varanOw index sub bytes, .ow index.toNat sub.toNat bytes), (.varanLr seq n, .lr seq n), (.varanChal, .chal),
      (.varanUnlock bytes, .unlock bytes), (.varanLock, .lock), (.varanMr w addr n, .mr w addr.toNat n), (.varanMw w addr bytes, .mw w addr.toNat bytes), (.varanCs core, .cs core)]
    let short (i : Instr) : Prop := s.mon.idle = true ∧ ∀ c, (i, c) ∈ lines → c.text.length ≤ 3201
    let ok (t u : State) (ls : List Byte) : Prop := t = { u with mon := { u.mon with err := none, out := ls ++ ascii "ok" ++ [13, 10] } }
    let er (t u : State) (st : Byte) (ls : List Byte) : Prop := t = { u with mon := { u.mon with err := some st, out := ls ++ ascii "er " ++ hexFix 2 st.toNat ++ [13, 10] } }
    let oks (i : Instr) (u : State) (ls : List Byte) : Prop := short i → Does (exec i s) (fun t => ok t u ls)
    let ers (i : Instr) (u : State) (st : Byte) (ls : List Byte) : Prop := short i → Does (exec i s) (fun t => er t u st ls)
    let silent (i : Instr) : Prop := short i → exec i s = .next s
    let ent := s.visible .varan index.toNat sub.toNat
    let relocked (u : State) (cause : Nat) : Prop := (s.mon.unlocked = false → u = s1) ∧ (s.mon.unlocked = true → u = { s1 with mon := { s1.mon with unlocked := false } }.logEv 0x1205 false (lf 0 ++ lf cause))
    let recs := if s.mgmt.romOnly then s.log.recs.filter (fun (r : LogRec) => r.flash) else s.log.recs
    let records := ((recs.dropWhile (fun (r : LogRec) => decide (r.seq + logEntries r.fields.length ≤ seq))).take n).flatMap LogRec.bytes
    let permitted : Prop := s.setting 0x7040 1 0 = 1
    let valid : Prop := ∃ x t0, s.mon.nonce = some (x, t0) ∧ now ≤ t0 + 135000000000 ∧ permitted ∧ s.mon.modulus ≠ [] ∧ pssVerify s.mon.modulus (x ++ bytesOf Config.dieId 8 ++ ascii "EV4-VARAN") bytes = true
    let k := s.core (BitVec.ofNat 10 core)
    let a := addr.toNat % 2 ^ 46
    let reachable (m : Nat) : Prop := w ≠ .w256 ∧ w ≠ .w512 ∧ addr.toNat < 2 ^ 56 ∧ s.resolveDev (BitVec.ofNat 10 (addr.toNat / 2 ^ 46)) = s.own ∧ addr.toNat % w.bytes = 0 ∧ m ≤ 1024 ∧ a + m ≤ 0x9000000000 ∧ 0 < m
    (s.mon.idle = false → ∀ x ∈ lines, exec x.1 s = .next { s with mon := { s.mon with uart := s.mon.uart ++ x.2.text } })
    ∧ (s.mon.idle = true → ∀ x ∈ lines, 3201 < x.2.text.length → if s.dev.st ≠ .off ∧ s.mgmt.romOnly = false then Does (exec x.1 s) (fun t => er t s1 0x21 []) else exec x.1 s = .next s)
    ∧ (∀ c cs, s.mon.uart = c :: cs → s.mon.job = none → s.mon.rx = [] → c ≠ 10 → c ≠ 13 → let part := if s.mon.ovf then s.mon.part else if 3200 ≤ s.mon.part.length then [] else s.mon.part ++ [c]
        s.monCycle = .next { s with mon := { s.mon with uart := cs, cr := false, part := part, ovf := s.mon.ovf || decide (3200 ≤ s.mon.part.length) } })
    ∧ (∀ l ls, s.mon.uart = [] → s.mon.job = none → s.mon.rx = l :: ls → on → let u : State := { s with mon := { s.mon with rx := ls } }
        (l = none → Does s.monCycle (fun t => er t u.line 0x21 []))
        ∧ (∀ cs st, l = some cs → parseLine cs = .error st → Does s.monCycle (fun t => er t u.line (BitVec.ofNat 8 st) []))
        ∧ (∀ cs c, l = some cs → parseLine cs = .ok c → s.monCycle = u.monRun c))
    ∧ (s.dev.st ≠ .off → oks .varanSt s1 (dataLine (leBytes 1 s.dev.st.code ++ leBytes 1 s.dev.holds.toNat ++ [s.dev.cause] ++ bytesOf s.beat.bcnt 8 ++ leBytes 1 (bnat s.mon.unlocked) ++ leBytes 4 s.log.attn))
        ∧ (n ≤ 16 → oks (.varanLr seq n) s1 (dataLines records)) ∧ (16 < n → ers (.varanLr seq n) s1 0x24 []))
    ∧ (s.dev.st = .off → silent .varanSt ∧ silent (.varanLr seq n))
    ∧ (¬ on → ∀ i ∈ [Instr.varanOr index sub off len, .varanOw index sub bytes, .varanChal, .varanUnlock bytes, .varanMr w addr n, .varanMw w addr bytes, .varanCs core], silent i)
    ∧ (s.mgmt.romOnly = true → silent .varanLock)
    ∧ (s.mgmt.romOnly = false → ∃ u, relocked u 1 ∧ oks .varanLock u [])
    ∧ (on →
        (1024 < len → ers (.varanOr index sub off len) s1 0x24 [])
        ∧ (len ≤ 1024 → ent = none → ers (.varanOr index sub off len) s1 0x2A [])
        ∧ (∀ e, len ≤ 1024 → ent = some e → e.cls = .wo → ers (.varanOr index sub off len) s1 0x23 [])
        ∧ (∀ e, len ≤ 1024 → ent = some e → e.cls ≠ .wo → 1024 < e.value.length → ers (.varanOr index sub off len) s1 0x24 [])
        ∧ (∀ e, len ≤ 1024 → ent = some e → e.cls ≠ .wo → e.value.length ≤ 1024 → off < e.value.length → oks (.varanOr index sub off len) s1 (dataLine (leBytes 1 e.type.code ++ leBytes 2 e.value.length) ++ dataLines ((e.value.drop off).take len)))
        ∧ (1024 < bytes.length → ers (.varanOw index sub bytes) s1 0x21 [])
        ∧ (bytes.length ≤ 1024 → s.dictCheck .varan index.toNat sub.toNat bytes ≠ 0 → ers (.varanOw index sub bytes) s1 (BitVec.ofNat 8 (s.dictCheck .varan index.toNat sub.toNat bytes)) [])
        ∧ (bytes.length ≤ 1024 → s.dictCheck .varan index.toNat sub.toNat bytes = 0 → index.toNat / 2 ^ 8 ∈ [0x10, 0x90] → short (.varanOw index sub bytes) → Does (exec (.varanOw index sub bytes) s) (fun t => { t with mon := s.mon, mgmt := s.mgmt } = s ∧ t.mgmt.writes = s.mgmt.writes + 1
            ∧ if Config.storeBad s.mgmt.writes = true ∧ (∃ e, ent = some e ∧ e.cls = .rwp) then t.mon = { s1.mon with err := some 0x27, out := ascii "er 27" ++ [13, 10] } ∧ t.mgmt.vals = s.mgmt.vals
              else t.mon = { s1.mon with err := none, out := ascii "ok" ++ [13, 10] } ∧ Table.look t.mgmt.vals (index.toNat * 256 + sub.toNat) = some bytes))
        ∧ (let nonce := (List.range 32).map (Config.random s.free)
           short .varanChal → exec .varanChal s = .next { s1 with free := s.free + 1, mon := { s1.mon with nonce := some (nonce, now), err := none, out := dataLines nonce ++ ascii "ok" ++ [13, 10] } })
        ∧ (short (.varanUnlock bytes) → Does (exec (.varanUnlock bytes) s) (fun t =>
            (¬ valid ∧ er t { s1 with mon := { s1.mon with nonce := none } } 0x23 [])
            ∨ (valid ∧ ok t ({ s1 with mon := { s1.mon with nonce := none, unlocked := true, unlocks := (s.mon.unlocks + 1) % 2 ^ 32 } }.logEv 0x1205 true (lf 1 ++ lf 0)) [])))
        ∧ (s.mon.unlocked = false → ∀ i ∈ [Instr.varanMr w addr n, .varanMw w addr bytes, .varanCs core], ers i s1 0x23 [])
        ∧ (s.mon.unlocked = true →
            (reachable w.bytes → w.bytes ≤ 8 → s.localBad a w.bytes = false → short (.varanMr w addr 1) → Does (exec (.varanMr w addr 1) s) (fun t => t.mon = { s1.mon with err := none, out := dataLines (s.localRead a w.bytes) ++ ascii "ok" ++ [13, 10] } ∧ t.mem = s.mem ∧ t.cores = s.cores ∧ t.log = s.log))
            ∧ (1 < n → reachable (n * w.bytes) → w.bytes ≤ 8 → s.localBad a w.bytes = false → short (.varanMr w addr n) → Does (exec (.varanMr w addr n) s) (fun t =>
                t.mon = { s1.mon with job := some { write := false, size := w.bytes, addr := a + w.bytes, left := n - 1, bytes := s.localRead a w.bytes } } ∧ t.mem = s.mem ∧ t.cores = s.cores ∧ t.log = s.log))
            ∧ ((s.dev.st = .run ∨ s.dev.st = .hold ∨ s.dev.st = .tadpole) → ers (.varanMw w addr bytes) s1 0x22 [])
            ∧ ((s.dev.st = .preop ∨ s.dev.st = .ready ∨ s.dev.st = .axolotl ∨ s.dev.st = .fault) → bytes.length = w.bytes → reachable w.bytes → w.bytes ≤ 8 → s.badMem = [] → short (.varanMw w addr bytes) → Does (exec (.varanMw w addr bytes) s) (fun t =>
                t.mon = { s1.mon with err := none, out := ascii "ok" ++ [13, 10] } ∧ t.localRead a w.bytes = bytes ∧ (∀ b, (b + 1 ≤ a ∨ a + w.bytes ≤ b) → b < 0x9000000000 → t.localRead b 1 = s.localRead b 1) ∧ t.cores = s.cores ∧ t.dev = s.dev))
            ∧ ((1024 ≤ core ∨ s.dev.st = .tadpole ∨ s.coreOn core = false ∨ k.run.st = .running) → ers (.varanCs core) s1 0x22 [])
            ∧ (core < 1024 → s.dev.st ≠ .tadpole → s.coreOn core = true → k.run.st ≠ .running → oks (.varanCs core) s1 k.scan)))
    ∧ (now < s.mon.lastLine + 2025000000000 → exec .monitorInactivityTimeout s = .next s)
    ∧ (s.mon.lastLine + 2025000000000 ≤ now → exec .monitorInactivityTimeout s = .next (if s.mon.unlocked then { s with mon := { s.mon with unlocked := false } }.logEv 0x1205 false (lf 0 ++ lf 2) else s))

/-! ## Register writes, the clock, reset, and what every step keeps -/

/-- R11, R15, R235, R316, R368, R379, R420 and R421: a register write at its own width sets RW fields, clears W1C bits where it writes 1, and leaves RO registers; a write of another width, of an undefined offset, of a value that its table refuses, or of a disabled region's unit changes nothing, and in BAR0 is counted; a live change of SUCTL.VM, which R316 leaves undefined, stops the machine. Configuration offsets are presumed (log entry 170); the row that carries configuration writes (log entry 171), the widths of the dictionary window's data (log entry 95), the stop at a live change of VM (log entry 133) and reserved offsets (log entry 26) are the model's. -/
def Obligations.RegisterWrites : Prop :=
  ∀ (s : State) (v : DWord) (c : CoreId) (cl : ClusterId) (w : Width) (off : BitVec 46) (i : Nat), s.dev.st ≠ .off →
    let h := s.host
    let b := s.beat
    let k := s.core c
    let y := (s.clu cl.toNat).sync
    let lo : Word := v.setWidth 32
    let bar (o : Nat) (w : Width) := exec (.registerWrite .bar0 (BitVec.ofNat 46 o) w v) s
    let cfg (o : Nat) (w : Width) := exec (.registerWrite .config (BitVec.ofNat 46 o) w v) s
    let dev (o : Nat) (w : Width) := exec (.registerWrite .local_ (BitVec.ofNat 46 (0x200010100000 + o)) w v) s
    let core (o : Nat) (w : Width) := exec (.registerWrite .local_ (BitVec.ofNat 46 (0x200000000000 + 0x10000 * c.toNat + o)) w v) s
    let clus (o : Nat) (w : Width) := exec (.registerWrite .local_ (BitVec.ofNat 46 (0x200004000000 + 0x10000 * cl.toNat + o)) w v) s
    let host (h' : HostIf) : Host.Outcome State Fault Refusal := .next { s with host := h' }
    let beat (b' : Beat) : Host.Outcome State Fault Refusal := .next { s with beat := b' }
    let dropped (t : State) : Prop := Table.get 0 t.cnt 0x600206 = (Table.get 0 s.cnt 0x600206 + 1) % 2 ^ 64 ∧ { t with cnt := s.cnt } = s
    let base := v.extractLsb' 30 16
    let ours (o : Host.Outcome State Fault Refusal) (p : Core → Prop) : Prop := Does o (fun t => (∀ d, d ≠ c → t.core d = s.core d) ∧ { t with cores := s.cores } = s ∧ p (t.core c))
    let sync (o : Host.Outcome State Fault Refusal) (y' : Sync) : Prop := Does o (fun t => (t.clu cl.toNat).sync = y' ∧ { t with clus := s.clus } = s ∧ (∀ d, d ≠ cl.toNat → t.clu d = s.clu d) ∧ ∀ ch, t.chan cl.toNat ch = s.chan cl.toNat ch)
    (h.d3 = true → bar off.toNat w = .next s)
    ∧ (h.d3 = false →
        (bar 0x01C .w32 = host { h with ovr := h.ovr && !v.getLsbD 30 })
        ∧ (bar 0x108 .w64 = host { h with inAddr := v &&& ~~~0x3FFF })
        ∧ (bar 0x118 .w32 = host { h with ci := v.setWidth 16, rtFull := h.rtFull && decide (v.setWidth 16 = h.ci) })
        ∧ (base.toNat % 2 ^ h.bar2Log = 0 → bar 0x200 .w64 = host { h with hbBase := base }) ∧ (base.toNat % 2 ^ h.bar2Log ≠ 0 → Does (bar 0x200 .w64) dropped)
        ∧ (h.mbEn = false → bar 0x008 .w64 = host { h with qbase := v &&& ~~~0xFFF } ∧ bar 0x010 .w64 = host { h with rbase := v &&& ~~~0xFFF })
        ∧ (h.mbEn = true → (v &&& ~~~0xFFF) ≠ h.qbase → Does (bar 0x008 .w64) dropped) ∧ (h.mbEn = true → (v &&& ~~~0xFFF) ≠ h.rbase → Does (bar 0x010 .w64) dropped)
        ∧ (h.slRt = false → bar 0x110 .w64 = host { h with rtBase := v &&& ~~~0xFFF }) ∧ (h.slRt = true → (v &&& ~~~0xFFF) ≠ h.rtBase → Does (bar 0x110 .w64) dropped)
        ∧ (bar 0x11C .w32 = .next s) ∧ (bar 0x208 .w32 = .next s)
        ∧ ((off.toNat < 0x2000 ∨ 0x3000 ≤ off.toNat) → (off.toNat, w) ∉ [(0x000, Width.w32), (0x008, .w64), (0x010, .w64), (0x018, .w32), (0x01C, .w32), (0x100, .w32), (0x108, .w64), (0x110, .w64), (0x118, .w32), (0x11C, .w32), (0x200, .w64), (0x208, .w32), (0x1000, .w32), (0x1004, .w32)] → Does (bar off.toNat w) dropped)
        ∧ (0x2000 ≤ off.toNat → off.toNat + w.bytes ≤ 0x3000 → off.toNat % w.bytes = 0 → w.bytes ≤ 8 → Does (bar off.toNat w) (fun t => { t with host := { t.host with odData := h.odData } } = s
            ∧ ∀ a, Table.get 0 t.host.odData a = if off.toNat - 0x2000 ≤ a ∧ a < off.toNat - 0x2000 + w.bytes then v.extractLsb' (8 * (a - (off.toNat - 0x2000))) 8 else Table.get 0 h.odData a)))
    ∧ (cfg 0x44 .w32 = (if v.toNat % 2 ^ 32 % 4 = 0 then host { h with d3 := false } else if v.toNat % 2 ^ 32 % 4 = 3 then host { h with d3 := true } else .next s))
    ∧ (cfg 0x104 .w32 = host { h with aer := h.aer &&& ~~~lo })
    ∧ (∀ n : Nat, (v.extractLsb' 8 6).toNat = n + 10 → (n ≤ s.bar2Max → cfg 0x208 .w32 = host { h with bar2Log := n }) ∧ (s.bar2Max < n → cfg 0x208 .w32 = .next s))
    ∧ (w ≠ .w32 → cfg i w = .next s)
    ∧ (dev 0x04 .w32 = beat { b with tout := b.tout && !v.getLsbD 27 }) ∧ (dev 0x10 .w64 = beat { b with slack := v }) ∧ (dev 0x30 .w64 = beat { b with rsb := v }) ∧ (dev 0x38 .w32 = beat { b with stout := lo })
    ∧ (v.extractLsb' 24 8 = 0 → dev 0x0C .w32 = .next s) ∧ (v.extractLsb' 24 8 ≠ 0 → dev 0x0C .w32 = beat { b with lagmax := v.extractLsb' 24 8, hcut := v.extractLsb' 16 8, strmax := v.extractLsb' 0 15 })
    ∧ Does (dev (0x1000 + 8 * c.toNat) .w64) (fun t => { t with beat := { t.beat with due := b.due } } = s ∧ ∀ d, Table.get 0 t.beat.due d = if d = c.toNat then v.setWidth 48 else Table.get 0 b.due d)
    ∧ (∀ o ∈ [0x18, 0x1C], dev o .w32 = .next s) ∧ (∀ o ∈ [0x20, 0x28], dev o .w64 = .next s)
    ∧ (w ≠ .w32 → ∀ o ∈ [0, 4, 8, 0xC, 0x18, 0x1C, 0x38], dev o w = .next s) ∧ (w ≠ .w64 → ∀ o ∈ [0x10, 0x20, 0x28, 0x30, 0x1000 + 8 * c.toNat], dev o w = .next s)
    ∧ (0x3C ≤ i → i < 0x1000 → dev i w = .next s)
    ∧ (s.coreOn c.toNat = false → i < 0x10000 → core i w = .next s)
    ∧ (s.coreOn c.toNat = true →
        ours (core 0x20 .w32) (fun t => t = { k with cpu := { k.cpu with intp := k.cpu.intp &&& ~~~(v.setWidth 4) } })
        ∧ ours (core 0x24 .w32) (fun t => t = { k with cpu := { k.cpu with inte := v.setWidth 4 ||| 1 } })
        ∧ ours (core 0x408 .w32) (fun t => t = { k with run := { k.run with rcpc := v.setWidth 14 } })
        ∧ ours (core 0x40C .w32) (fun t => t = { k with run := { k.run with role := v.extractLsb' 16 16, lcore := v.setWidth 10 } })
        ∧ (i < 8 → ours (core (4 * i) .w32) (fun t => { t with cpu := { t.cpu with cds := k.cpu.cds } } = k ∧ ∀ j, t.cpu.cd j = if j = i then lo &&& 0xFFFF037F else k.cpu.cd j)
            ∧ ours (core (0x100 + 16 * i) .w64) (fun t => { t with cpu := { t.cpu with sds := k.cpu.sds } } = k ∧ ∀ j, Table.get 0 t.cpu.sds j = if j = i then ((Table.get 0 k.cpu.sds i).extractLsb' 64 64 ++ v) &&& sdMask else Table.get 0 k.cpu.sds j)
            ∧ ours (core (0x108 + 16 * i) .w64) (fun t => { t with cpu := { t.cpu with sds := k.cpu.sds } } = k ∧ ∀ j, Table.get 0 t.cpu.sds j = if j = i then (v ++ (Table.get 0 k.cpu.sds i).extractLsb' 0 64) &&& sdMask else Table.get 0 k.cpu.sds j)
            ∧ core (0x2A0 + 4 * i) .w32 = .next s ∧ core (0x40 + i / 2 * 4) .w32 = .next s)
        ∧ (i < 0x4000 → ours (core (0x8000 + 2 * i) .w16) (fun t => { t with cpu := { t.cpu with prog := k.cpu.prog } } = k ∧ ∀ j, Table.get 0 t.cpu.prog j = if j = i then v.setWidth 14 else Table.get 0 k.cpu.prog j))
        ∧ core 0x2E0 .w32 = .next s ∧ core 0x404 .w32 = .next s
        ∧ (w ≠ .w32 → ∀ o ∈ [0x20, 0x24, 0x404, 0x408, 0x40C], core o w = .next s) ∧ (0x500 ≤ i → i < 0x2000 → core i w = .next s))
    ∧ (i < 8 → Does (exec (.registerWrite .local_ (BitVec.ofNat 46 (0x200008000004 + 0x200000 * i)) .w32 v) s) (fun t =>
        (t.stack i) = { s.stack i with refd := (s.stack i).refd && !v.getLsbD 29 } ∧ (∀ j, j ≠ i → t.stack j = s.stack j) ∧ { t with stks := s.stks } = s))
    ∧ (s.coreOn (nwOf cl.toNat) = true →
        (sync (clus 0x3008 .w64) { y with vtbase := v.extractLsb' 14 26 } ∧ sync (clus 0x3010 .w64) { y with vctx := v })
        ∧ (v.getLsbD 31 = y.vm → sync (clus 0x3000 .w32) { y with tlb := if v.getLsbD 0 then [] else y.tlb })
        ∧ (v.getLsbD 31 = true → i < 768 → clus (4 * i) .w32 = .next s)
        ∧ (v.getLsbD 31 ≠ y.vm → (∃ j, j < 16 ∧ (s.core (BitVec.ofNat 10 (coreOfK cl.toNat j))).run.st = .running) → clus 0x3000 .w32 = .fault .vmChangedLive))

/-- Table 3.8, R110, R297, R349, R358, R362, R363 and R463: with no command waiting, none in execution at the monitor and no BAR2 read, one cycle of the clock passes; DEVT counts always, and no boundary and no store comes of it; where the fabric, the tile transfers, the operand ports, an abort and a response hold have nothing to move or end, CYC counts in a region with a clock edge; QUIET.LEFT, QSWC and the count of a hold stand still in a device-wide stall, whose cycles are counted, and nothing else changes but the links, and what an upset of stored data does (free, log entry 146). That an empty queue means a cycle is the model's choice (log entry 1). How QSWC counts is log entry 61. -/
def Obligations.ClockCycle : Prop :=
  ∀ (s : State), s.pending = [] → s.mon.uart = [] → s.mon.rx = [] → s.mon.job = none → s.host.bar2R = [] →
    (s.dev.st = .off → step s = .next s)
    ∧ (s.dev.st ≠ .off → s.host.reqs = [] → s.mgmt.axo = none → s.mgmt.rwait = none → s.host.odBusy = false → Does (step s) (fun t => t.beat.devt = s.beat.devt + 1 ∧ t.beat.bcnt = s.beat.bcnt ∧ t.mem = s.mem ∧ t.pending = []))
    ∧ (s.dev.st ≠ .off → s.host.reqs = [] → s.mgmt.axo = none → s.mgmt.rwait = none → s.host.odBusy = false → s.net = [] → (∀ c m, (s.core c).run.hold ≠ .rows m) → (∀ c, (s.core c).run.stall = false) → (∀ cl ch, (s.chan cl ch).abort = false) → (∀ c e, ((s.core c).mat.eng e).queue = []) → Does (step s) (fun t =>
        { t with cores := s.cores, beat := s.beat, cnt := s.cnt, links := s.links, badMem := s.badMem, softMem := s.softMem } = s
        ∧ (s.beat.frz = false → { t.beat with sent := s.beat.sent } = { s.beat with devt := s.beat.devt + 1 } ∧ t.cnt = s.cnt)
        ∧ (s.beat.frz = true → { t.beat with sent := s.beat.sent } = { s.beat with devt := s.beat.devt + 1, stallb := if s.beat.stallb = 0xFFFFFF then s.beat.stallb else s.beat.stallb + 1, frzLen := s.beat.frzLen + 1, holdCyc := s.beat.holdCyc + 1 }
            ∧ Table.get 0 t.cnt 0x100302 = (Table.get 0 s.cnt 0x100302 + 1) % 2 ^ 64)
        ∧ (∀ (c : CoreId), s.coreOn c.toNat = false → t.core c = s.core c)
        ∧ (∀ (c : CoreId), s.coreOn c.toNat = true → s.freqCode (regionOf c.toNat) = 0 →
            let k := s.core c
            let k' := t.core c
            let live := s.beat.frz = false
            k'.cpu.cyc = k.cpu.cyc + 1 ∧ { k'.cpu with cyc := k.cpu.cyc, qLeft := k.cpu.qLeft } = k.cpu
            ∧ { k'.run with held := k.run.held } = k.run ∧ { k'.que with qswc := k.que.qswc } = k.que ∧ k'.lsu = k.lsu ∧ k'.vec = k.vec
            ∧ (¬ live → k'.mat = k.mat ∧ k'.cpu.qLeft = k.cpu.qLeft ∧ k'.run.held = k.run.held ∧ k'.que.qswc = k.que.qswc)
            ∧ (live → k'.cpu.qLeft = (if k.cpu.qAct = true ∧ k.cpu.qLeft ≠ 0 then k.cpu.qLeft - 1 else k.cpu.qLeft)
                ∧ (∀ e q, (k.mat.eng e).array = some q → (k'.mat.eng e).array = some { q with left := q.left - 1 })
                ∧ ((k.run.st ≠ .running ∨ ∀ e, k.run.wait ≠ .send e) → k'.que.qswc = 0) ∧ (∀ e, k.run.st = .running → k.run.wait = .send e → k'.que.qswc = k.que.qswc + 1)
                ∧ (∀ l, k.run.st = .running → k.run.wait = .load l → k'.run.held = k.run.held + 1) ∧ (k.run.st ≠ .running → k'.run.held = 0)))
        ∧ (Config.upset s.beat.devt.toNat ≠ none ∨ (t.badMem = s.badMem ∧ t.softMem = s.softMem ∧ ∀ c, (t.core c).pad = (s.core c).pad))))

/-- R13, R51, Tables 2.7, 3.1, 3.8 to 3.12, 4.2, 4.5 to 4.7, 4.11, 4.12, 5.8, 6.7, 9.14, 12.1, 13.8, 14.2, 14.3, 15.4, 16.7, 16.8 and 18.3: the values that the spec gives for reset, in every core, cluster, stack and channel, and PREOP, which a cold start ends in (R449). That entry 0 of the send-credit table is 0 follows R271 against Table 12.2 (log entry 25). -/
def Obligations.ResetValues : Prop :=
  let s := State.reset
  s.pending = [] ∧ s.dev.st = .preop ∧ s.dev.holds = 0 ∧ s.dev.cause = 0
  ∧ (∀ c : CoreId, (s.core c).run.st = .stopped ∧ (s.core c).run.role = 0xFFFF ∧ (s.core c).cpu.sup = true ∧ (s.core c).cpu.rso = true ∧ (s.core c).cpu.ie = false ∧ (s.core c).cpu.depth = 0 ∧ (s.core c).cpu.top = 7
      ∧ (s.core c).cpu.tsV = false ∧ (s.core c).cpu.xvb = 0 ∧ (s.core c).cpu.espV = false ∧ (s.core c).cpu.espAct = false ∧ (s.core c).cpu.quiet = 0xFF ∧ (s.core c).cpu.intp = 0 ∧ (s.core c).cpu.inte = 1
      ∧ (s.core c).lsu.dcCtl = 0x00000010 ∧ (s.core c).que.ssdCtl = 0x00000029 ∧ ∀ i : Nat, (s.core c).cpu.cd i = 0x7F000000 ∧ Table.get 0x3F800000 (s.core c).vec.ftinv i = 0x3F800000 ∧ Table.get 0 (s.core c).que.rcfg i = 0 ∧ Table.get 0 (s.core c).que.sct i = 0)
  ∧ (∀ cl ch : Nat, (s.clu cl).sync.vm = false ∧ (s.clu cl).sync.waits = [] ∧ (s.chan cl ch).stat = 0 ∧ (s.chan cl ch).dis = false ∧ (s.chan cl ch).task = false ∧ (s.chan cl ch).crc = 0xFFFFFFFF ∧ (s.chan cl ch).bytes = 0)
  ∧ (∀ st : Nat, (s.stack st).en = true ∧ (s.stack st).haltq = false ∧ (s.stack st).ring = [] ∧ (s.stack st).errs = [])
  ∧ s.beat.ctl = 0x80000200 ∧ s.beat.stat = 0 ∧ s.beat.cfg = 0x8CA ∧ s.beat.lim = 0x04100465 ∧ s.beat.slack = 0 ∧ s.beat.lag = 0 ∧ s.beat.stallb = 0 ∧ s.beat.bcnt = 0 ∧ s.beat.rsb = 0 ∧ s.beat.stout = 0x100000
  ∧ s.host.mbEn = false ∧ s.host.mbLog = 6 ∧ s.host.qbase = 0 ∧ s.host.rbase = 0 ∧ s.host.tail = 0 ∧ s.host.head = 0 ∧ s.host.ovr = false ∧ s.host.slIn = false ∧ s.host.slRt = false ∧ s.host.rtLog = 10 ∧ s.host.inAddr = 0 ∧ s.host.rtBase = 0 ∧ s.host.ci = 0 ∧ s.host.pi = 0 ∧ s.host.hbBase = 0
  ∧ s.mon.unlocked = false ∧ s.mon.modulus = [] ∧ s.power.supply = .good ∧ s.power.duty = 8

/-- The canonical form of memory, and what R2, R5 and R7 fix at manufacture, hold of the machine after reset: full grade A, A0 (log entry 2 chooses the module). -/
def Obligations.InvariantAtReset : Prop :=
 State.reset.memOk = true ∧ State.reset.fuses = (false, 0xFFFF)

/-- Every step keeps stack memory and the written part of host memory in canonical form, so that equal memories are equal data. -/
def Obligations.MemoryStaysCanonical : Prop :=
 ∀ s t : State, s.memOk = true → step s = .next t → t.memOk = true

/-- R2, R5 and R7: no command changes the stepping or the enabled-region map. -/
def Obligations.FusesStay : Prop :=
 ∀ s t : State, step s = .next t → t.fuses = s.fuses
end

