-- ==== Sys2Proof/Laws/Table.lean ====
section
/-! SUPPORT. Laws of the association lists that every unit is held in: read after write, and the canonical form. -/

namespace Sys2Proof.Table

/-- Reading a key after a write gives the value written there, and elsewhere what was read before. -/
@[simp] theorem get_put {α : Type} (d : α) (m : Table α) (i j : Nat) (v : α) :
    get d (put m i v) j = if j = i then v else get d m j := by
  induction m with
  | nil => grind [put, get]
  | cons e m ih => obtain ⟨k, w⟩ := e; grind [put, get]

/-- A later write of the same number stands alone. -/
theorem put_put {α : Type} (m : Table α) (i : Nat) (v w : α) : put (put m i v) i w = put m i w := by
  induction m with
  | nil => simp [put]
  | cons e m ih => unfold put; grind [put]

/-- Looking up a key after a write. -/
@[simp] theorem look_put {α : Type} (m : Table α) (i j : Nat) (v : α) :
    look (put m i v) j = if j = i then some v else look m j := by
  induction m with
  | nil => grind [put, look]
  | cons e m ih => obtain ⟨k, w⟩ := e; grind [put, look]

/-- Reading after a key has been erased. -/
@[simp] theorem get_erase {α : Type} (d : α) (m : Table α) (i j : Nat) :
    get d (erase m i) j = if j = i then d else get d m j := by
  induction m with
  | nil => grind [erase, get]
  | cons e m ih => obtain ⟨k, w⟩ := e; grind [erase, get]

/-- Reading after a canonical write. -/
@[simp] theorem get_putc {α : Type} [DecidableEq α] (d : α) (m : Table α) (i j : Nat) (v : α) :
    get d (putc d m i v) j = if j = i then v else get d m j := by
  unfold putc
  split
  · simp_all
  · simp

/-- A canonical table from a bound is one from every lower bound. -/
theorem wfFrom_mono {α : Type} [DecidableEq α] (d : α) {lo lo' : Nat} (h : lo' ≤ lo) (m : Table α) :
    wfFrom d lo m = true → wfFrom d lo' m = true := by
  cases m with
  | nil => simp [wfFrom]
  | cons e m => obtain ⟨k, v⟩ := e; simp only [wfFrom, Bool.and_eq_true, decide_eq_true_eq]; rintro ⟨⟨a, b⟩, c⟩; exact ⟨⟨by omega, b⟩, c⟩

/-- A write of a value other than the default keeps the canonical form. -/
theorem wfFrom_put {α : Type} [DecidableEq α] (d : α) (v : α) (hv : v ≠ d) (i : Nat) (m : Table α) :
    ∀ lo, lo ≤ i → wfFrom d lo m = true → wfFrom d lo (put m i v) = true := by
  induction m with
  | nil => intro lo hi _; simp [put, wfFrom, hv, hi]
  | cons e m ih =>
    obtain ⟨k, w⟩ := e
    intro lo hi h
    simp only [wfFrom, Bool.and_eq_true, decide_eq_true_eq] at h
    obtain ⟨⟨a, b⟩, c⟩ := h
    simp only [put]
    split
    · simp only [wfFrom, Bool.and_eq_true, decide_eq_true_eq]; exact ⟨⟨hi, hv⟩, ⟨by omega, b⟩, c⟩
    · split
      · subst_vars; simp only [wfFrom, Bool.and_eq_true, decide_eq_true_eq]; exact ⟨⟨hi, hv⟩, c⟩
      · simp only [wfFrom, Bool.and_eq_true, decide_eq_true_eq]; exact ⟨⟨a, b⟩, ih (k + 1) (by omega) c⟩

/-- Erasing a key keeps the canonical form. -/
theorem wfFrom_erase {α : Type} [DecidableEq α] (d : α) (i : Nat) (m : Table α) :
    ∀ lo, wfFrom d lo m = true → wfFrom d lo (erase m i) = true := by
  induction m with
  | nil => intro lo _; simp [erase, wfFrom]
  | cons e m ih =>
    obtain ⟨k, w⟩ := e
    intro lo h
    simp only [wfFrom, Bool.and_eq_true, decide_eq_true_eq] at h
    obtain ⟨⟨a, b⟩, c⟩ := h
    simp only [erase]
    split
    · exact wfFrom_mono d (by omega) _ (ih _ c)
    · simp only [wfFrom, Bool.and_eq_true, decide_eq_true_eq]; exact ⟨⟨a, b⟩, ih _ c⟩

/-- Leaving entries out keeps the canonical form. -/
theorem wfFrom_filter {α : Type} [DecidableEq α] (d : α) (p : Nat × α → Bool) (m : Table α) :
    ∀ lo, wfFrom d lo m = true → wfFrom d lo (m.filter p) = true := by
  induction m with
  | nil => intro lo _; simp [wfFrom]
  | cons e m ih =>
    obtain ⟨k, w⟩ := e
    intro lo h
    simp only [wfFrom, Bool.and_eq_true, decide_eq_true_eq] at h
    obtain ⟨⟨a, b⟩, c⟩ := h
    simp only [List.filter_cons]
    split
    · simp only [wfFrom, Bool.and_eq_true, decide_eq_true_eq]; exact ⟨⟨a, b⟩, ih _ c⟩
    · exact wfFrom_mono d (by omega) _ (ih _ c)

/-- A canonical write keeps the canonical form. -/
theorem wf_putc {α : Type} [DecidableEq α] (d : α) (m : Table α) (i : Nat) (v : α) (h : wf d m = true) :
    wf d (putc d m i v) = true := by
  unfold putc wf at *
  split
  · exact wfFrom_erase d i m 0 h
  · exact wfFrom_put d v ‹_› i m 0 (Nat.zero_le _) h

/-- Leaving entries out of a canonical table. -/
theorem wf_filter {α : Type} [DecidableEq α] (d : α) (p : Nat × α → Bool) (m : Table α) (h : wf d m = true) :
    wf d (m.filter p) = true := wfFrom_filter d p m 0 h

end Sys2Proof.Table
end

