-- ==== Sys2Proof/Laws/State.lean ====
section
/-! SUPPORT. What each update of the state leaves alone, field by field, and what each accessor reads after it. -/

namespace Sys2Proof.Machine

/-! ## setCore -/

@[simp] theorem State.setCore_pending (s : State) (c : CoreId) (v : Core) : (s.setCore c v).pending = s.pending := rfl
@[simp] theorem State.setCore_clus (s : State) (c : CoreId) (v : Core) : (s.setCore c v).clus = s.clus := rfl
@[simp] theorem State.setCore_stacks (s : State) (c : CoreId) (v : Core) : (s.setCore c v).stks = s.stks := rfl
@[simp] theorem State.setCore_mem (s : State) (c : CoreId) (v : Core) : (s.setCore c v).mem = s.mem := rfl
@[simp] theorem State.setCore_badMem (s : State) (c : CoreId) (v : Core) : (s.setCore c v).badMem = s.badMem := rfl
@[simp] theorem State.setCore_softMem (s : State) (c : CoreId) (v : Core) : (s.setCore c v).softMem = s.softMem := rfl
@[simp] theorem State.setCore_net (s : State) (c : CoreId) (v : Core) : (s.setCore c v).net = s.net := rfl
@[simp] theorem State.setCore_rings (s : State) (c : CoreId) (v : Core) : (s.setCore c v).rings = s.rings := rfl
@[simp] theorem State.setCore_imb (s : State) (c : CoreId) (v : Core) : (s.setCore c v).imb = s.imb := rfl
@[simp] theorem State.setCore_beat (s : State) (c : CoreId) (v : Core) : (s.setCore c v).beat = s.beat := rfl
@[simp] theorem State.setCore_links (s : State) (c : CoreId) (v : Core) : (s.setCore c v).links = s.links := rfl
@[simp] theorem State.setCore_host (s : State) (c : CoreId) (v : Core) : (s.setCore c v).host = s.host := rfl
@[simp] theorem State.setCore_log (s : State) (c : CoreId) (v : Core) : (s.setCore c v).log = s.log := rfl
@[simp] theorem State.setCore_loader (s : State) (c : CoreId) (v : Core) : (s.setCore c v).loader = s.loader := rfl
@[simp] theorem State.setCore_power (s : State) (c : CoreId) (v : Core) : (s.setCore c v).power = s.power := rfl
@[simp] theorem State.setCore_mgmt (s : State) (c : CoreId) (v : Core) : (s.setCore c v).mgmt = s.mgmt := rfl
@[simp] theorem State.setCore_mon (s : State) (c : CoreId) (v : Core) : (s.setCore c v).mon = s.mon := rfl
@[simp] theorem State.setCore_cnt (s : State) (c : CoreId) (v : Core) : (s.setCore c v).cnt = s.cnt := rfl
@[simp] theorem State.setCore_dev (s : State) (c : CoreId) (v : Core) : (s.setCore c v).dev = s.dev := rfl
@[simp] theorem State.setCore_free (s : State) (c : CoreId) (v : Core) : (s.setCore c v).free = s.free := rfl

/-! ## modCore -/

@[simp] theorem State.modCore_pending (s : State) (c : CoreId) (f : Core → Core) : (s.modCore c f).pending = s.pending := rfl
@[simp] theorem State.modCore_clus (s : State) (c : CoreId) (f : Core → Core) : (s.modCore c f).clus = s.clus := rfl
@[simp] theorem State.modCore_stacks (s : State) (c : CoreId) (f : Core → Core) : (s.modCore c f).stks = s.stks := rfl
@[simp] theorem State.modCore_mem (s : State) (c : CoreId) (f : Core → Core) : (s.modCore c f).mem = s.mem := rfl
@[simp] theorem State.modCore_badMem (s : State) (c : CoreId) (f : Core → Core) : (s.modCore c f).badMem = s.badMem := rfl
@[simp] theorem State.modCore_softMem (s : State) (c : CoreId) (f : Core → Core) : (s.modCore c f).softMem = s.softMem := rfl
@[simp] theorem State.modCore_net (s : State) (c : CoreId) (f : Core → Core) : (s.modCore c f).net = s.net := rfl
@[simp] theorem State.modCore_rings (s : State) (c : CoreId) (f : Core → Core) : (s.modCore c f).rings = s.rings := rfl
@[simp] theorem State.modCore_imb (s : State) (c : CoreId) (f : Core → Core) : (s.modCore c f).imb = s.imb := rfl
@[simp] theorem State.modCore_beat (s : State) (c : CoreId) (f : Core → Core) : (s.modCore c f).beat = s.beat := rfl
@[simp] theorem State.modCore_links (s : State) (c : CoreId) (f : Core → Core) : (s.modCore c f).links = s.links := rfl
@[simp] theorem State.modCore_host (s : State) (c : CoreId) (f : Core → Core) : (s.modCore c f).host = s.host := rfl
@[simp] theorem State.modCore_log (s : State) (c : CoreId) (f : Core → Core) : (s.modCore c f).log = s.log := rfl
@[simp] theorem State.modCore_loader (s : State) (c : CoreId) (f : Core → Core) : (s.modCore c f).loader = s.loader := rfl
@[simp] theorem State.modCore_power (s : State) (c : CoreId) (f : Core → Core) : (s.modCore c f).power = s.power := rfl
@[simp] theorem State.modCore_mgmt (s : State) (c : CoreId) (f : Core → Core) : (s.modCore c f).mgmt = s.mgmt := rfl
@[simp] theorem State.modCore_mon (s : State) (c : CoreId) (f : Core → Core) : (s.modCore c f).mon = s.mon := rfl
@[simp] theorem State.modCore_cnt (s : State) (c : CoreId) (f : Core → Core) : (s.modCore c f).cnt = s.cnt := rfl
@[simp] theorem State.modCore_dev (s : State) (c : CoreId) (f : Core → Core) : (s.modCore c f).dev = s.dev := rfl
@[simp] theorem State.modCore_free (s : State) (c : CoreId) (f : Core → Core) : (s.modCore c f).free = s.free := rfl

/-! ## setClu -/

@[simp] theorem State.setClu_pending (s : State) (i : Nat) (v : Cluster) : (s.setClu i v).pending = s.pending := rfl
@[simp] theorem State.setClu_cores (s : State) (i : Nat) (v : Cluster) : (s.setClu i v).cores = s.cores := rfl
@[simp] theorem State.setClu_stacks (s : State) (i : Nat) (v : Cluster) : (s.setClu i v).stks = s.stks := rfl
@[simp] theorem State.setClu_mem (s : State) (i : Nat) (v : Cluster) : (s.setClu i v).mem = s.mem := rfl
@[simp] theorem State.setClu_badMem (s : State) (i : Nat) (v : Cluster) : (s.setClu i v).badMem = s.badMem := rfl
@[simp] theorem State.setClu_softMem (s : State) (i : Nat) (v : Cluster) : (s.setClu i v).softMem = s.softMem := rfl
@[simp] theorem State.setClu_net (s : State) (i : Nat) (v : Cluster) : (s.setClu i v).net = s.net := rfl
@[simp] theorem State.setClu_rings (s : State) (i : Nat) (v : Cluster) : (s.setClu i v).rings = s.rings := rfl
@[simp] theorem State.setClu_imb (s : State) (i : Nat) (v : Cluster) : (s.setClu i v).imb = s.imb := rfl
@[simp] theorem State.setClu_beat (s : State) (i : Nat) (v : Cluster) : (s.setClu i v).beat = s.beat := rfl
@[simp] theorem State.setClu_links (s : State) (i : Nat) (v : Cluster) : (s.setClu i v).links = s.links := rfl
@[simp] theorem State.setClu_host (s : State) (i : Nat) (v : Cluster) : (s.setClu i v).host = s.host := rfl
@[simp] theorem State.setClu_log (s : State) (i : Nat) (v : Cluster) : (s.setClu i v).log = s.log := rfl
@[simp] theorem State.setClu_loader (s : State) (i : Nat) (v : Cluster) : (s.setClu i v).loader = s.loader := rfl
@[simp] theorem State.setClu_power (s : State) (i : Nat) (v : Cluster) : (s.setClu i v).power = s.power := rfl
@[simp] theorem State.setClu_mgmt (s : State) (i : Nat) (v : Cluster) : (s.setClu i v).mgmt = s.mgmt := rfl
@[simp] theorem State.setClu_mon (s : State) (i : Nat) (v : Cluster) : (s.setClu i v).mon = s.mon := rfl
@[simp] theorem State.setClu_cnt (s : State) (i : Nat) (v : Cluster) : (s.setClu i v).cnt = s.cnt := rfl
@[simp] theorem State.setClu_dev (s : State) (i : Nat) (v : Cluster) : (s.setClu i v).dev = s.dev := rfl
@[simp] theorem State.setClu_free (s : State) (i : Nat) (v : Cluster) : (s.setClu i v).free = s.free := rfl

/-! ## modSync -/

@[simp] theorem State.modSync_pending (s : State) (i : Nat) (f : Sync → Sync) : (s.modSync i f).pending = s.pending := rfl
@[simp] theorem State.modSync_cores (s : State) (i : Nat) (f : Sync → Sync) : (s.modSync i f).cores = s.cores := rfl
@[simp] theorem State.modSync_stacks (s : State) (i : Nat) (f : Sync → Sync) : (s.modSync i f).stks = s.stks := rfl
@[simp] theorem State.modSync_mem (s : State) (i : Nat) (f : Sync → Sync) : (s.modSync i f).mem = s.mem := rfl
@[simp] theorem State.modSync_badMem (s : State) (i : Nat) (f : Sync → Sync) : (s.modSync i f).badMem = s.badMem := rfl
@[simp] theorem State.modSync_softMem (s : State) (i : Nat) (f : Sync → Sync) : (s.modSync i f).softMem = s.softMem := rfl
@[simp] theorem State.modSync_net (s : State) (i : Nat) (f : Sync → Sync) : (s.modSync i f).net = s.net := rfl
@[simp] theorem State.modSync_rings (s : State) (i : Nat) (f : Sync → Sync) : (s.modSync i f).rings = s.rings := rfl
@[simp] theorem State.modSync_imb (s : State) (i : Nat) (f : Sync → Sync) : (s.modSync i f).imb = s.imb := rfl
@[simp] theorem State.modSync_beat (s : State) (i : Nat) (f : Sync → Sync) : (s.modSync i f).beat = s.beat := rfl
@[simp] theorem State.modSync_links (s : State) (i : Nat) (f : Sync → Sync) : (s.modSync i f).links = s.links := rfl
@[simp] theorem State.modSync_host (s : State) (i : Nat) (f : Sync → Sync) : (s.modSync i f).host = s.host := rfl
@[simp] theorem State.modSync_log (s : State) (i : Nat) (f : Sync → Sync) : (s.modSync i f).log = s.log := rfl
@[simp] theorem State.modSync_loader (s : State) (i : Nat) (f : Sync → Sync) : (s.modSync i f).loader = s.loader := rfl
@[simp] theorem State.modSync_power (s : State) (i : Nat) (f : Sync → Sync) : (s.modSync i f).power = s.power := rfl
@[simp] theorem State.modSync_mgmt (s : State) (i : Nat) (f : Sync → Sync) : (s.modSync i f).mgmt = s.mgmt := rfl
@[simp] theorem State.modSync_mon (s : State) (i : Nat) (f : Sync → Sync) : (s.modSync i f).mon = s.mon := rfl
@[simp] theorem State.modSync_cnt (s : State) (i : Nat) (f : Sync → Sync) : (s.modSync i f).cnt = s.cnt := rfl
@[simp] theorem State.modSync_dev (s : State) (i : Nat) (f : Sync → Sync) : (s.modSync i f).dev = s.dev := rfl
@[simp] theorem State.modSync_free (s : State) (i : Nat) (f : Sync → Sync) : (s.modSync i f).free = s.free := rfl

/-! ## setChan -/

@[simp] theorem State.setChan_pending (s : State) (i ch : Nat) (v : Chan) : (s.setChan i ch v).pending = s.pending := rfl
@[simp] theorem State.setChan_cores (s : State) (i ch : Nat) (v : Chan) : (s.setChan i ch v).cores = s.cores := rfl
@[simp] theorem State.setChan_stacks (s : State) (i ch : Nat) (v : Chan) : (s.setChan i ch v).stks = s.stks := rfl
@[simp] theorem State.setChan_mem (s : State) (i ch : Nat) (v : Chan) : (s.setChan i ch v).mem = s.mem := rfl
@[simp] theorem State.setChan_badMem (s : State) (i ch : Nat) (v : Chan) : (s.setChan i ch v).badMem = s.badMem := rfl
@[simp] theorem State.setChan_softMem (s : State) (i ch : Nat) (v : Chan) : (s.setChan i ch v).softMem = s.softMem := rfl
@[simp] theorem State.setChan_net (s : State) (i ch : Nat) (v : Chan) : (s.setChan i ch v).net = s.net := rfl
@[simp] theorem State.setChan_rings (s : State) (i ch : Nat) (v : Chan) : (s.setChan i ch v).rings = s.rings := rfl
@[simp] theorem State.setChan_imb (s : State) (i ch : Nat) (v : Chan) : (s.setChan i ch v).imb = s.imb := rfl
@[simp] theorem State.setChan_beat (s : State) (i ch : Nat) (v : Chan) : (s.setChan i ch v).beat = s.beat := rfl
@[simp] theorem State.setChan_links (s : State) (i ch : Nat) (v : Chan) : (s.setChan i ch v).links = s.links := rfl
@[simp] theorem State.setChan_host (s : State) (i ch : Nat) (v : Chan) : (s.setChan i ch v).host = s.host := rfl
@[simp] theorem State.setChan_log (s : State) (i ch : Nat) (v : Chan) : (s.setChan i ch v).log = s.log := rfl
@[simp] theorem State.setChan_loader (s : State) (i ch : Nat) (v : Chan) : (s.setChan i ch v).loader = s.loader := rfl
@[simp] theorem State.setChan_power (s : State) (i ch : Nat) (v : Chan) : (s.setChan i ch v).power = s.power := rfl
@[simp] theorem State.setChan_mgmt (s : State) (i ch : Nat) (v : Chan) : (s.setChan i ch v).mgmt = s.mgmt := rfl
@[simp] theorem State.setChan_mon (s : State) (i ch : Nat) (v : Chan) : (s.setChan i ch v).mon = s.mon := rfl
@[simp] theorem State.setChan_cnt (s : State) (i ch : Nat) (v : Chan) : (s.setChan i ch v).cnt = s.cnt := rfl
@[simp] theorem State.setChan_dev (s : State) (i ch : Nat) (v : Chan) : (s.setChan i ch v).dev = s.dev := rfl
@[simp] theorem State.setChan_free (s : State) (i ch : Nat) (v : Chan) : (s.setChan i ch v).free = s.free := rfl

/-! ## setStack -/

@[simp] theorem State.setStack_pending (s : State) (i : Nat) (v : Stack) : (s.setStack i v).pending = s.pending := rfl
@[simp] theorem State.setStack_cores (s : State) (i : Nat) (v : Stack) : (s.setStack i v).cores = s.cores := rfl
@[simp] theorem State.setStack_clus (s : State) (i : Nat) (v : Stack) : (s.setStack i v).clus = s.clus := rfl
@[simp] theorem State.setStack_mem (s : State) (i : Nat) (v : Stack) : (s.setStack i v).mem = s.mem := rfl
@[simp] theorem State.setStack_badMem (s : State) (i : Nat) (v : Stack) : (s.setStack i v).badMem = s.badMem := rfl
@[simp] theorem State.setStack_softMem (s : State) (i : Nat) (v : Stack) : (s.setStack i v).softMem = s.softMem := rfl
@[simp] theorem State.setStack_net (s : State) (i : Nat) (v : Stack) : (s.setStack i v).net = s.net := rfl
@[simp] theorem State.setStack_rings (s : State) (i : Nat) (v : Stack) : (s.setStack i v).rings = s.rings := rfl
@[simp] theorem State.setStack_imb (s : State) (i : Nat) (v : Stack) : (s.setStack i v).imb = s.imb := rfl
@[simp] theorem State.setStack_beat (s : State) (i : Nat) (v : Stack) : (s.setStack i v).beat = s.beat := rfl
@[simp] theorem State.setStack_links (s : State) (i : Nat) (v : Stack) : (s.setStack i v).links = s.links := rfl
@[simp] theorem State.setStack_host (s : State) (i : Nat) (v : Stack) : (s.setStack i v).host = s.host := rfl
@[simp] theorem State.setStack_log (s : State) (i : Nat) (v : Stack) : (s.setStack i v).log = s.log := rfl
@[simp] theorem State.setStack_loader (s : State) (i : Nat) (v : Stack) : (s.setStack i v).loader = s.loader := rfl
@[simp] theorem State.setStack_power (s : State) (i : Nat) (v : Stack) : (s.setStack i v).power = s.power := rfl
@[simp] theorem State.setStack_mgmt (s : State) (i : Nat) (v : Stack) : (s.setStack i v).mgmt = s.mgmt := rfl
@[simp] theorem State.setStack_mon (s : State) (i : Nat) (v : Stack) : (s.setStack i v).mon = s.mon := rfl
@[simp] theorem State.setStack_cnt (s : State) (i : Nat) (v : Stack) : (s.setStack i v).cnt = s.cnt := rfl
@[simp] theorem State.setStack_dev (s : State) (i : Nat) (v : Stack) : (s.setStack i v).dev = s.dev := rfl
@[simp] theorem State.setStack_free (s : State) (i : Nat) (v : Stack) : (s.setStack i v).free = s.free := rfl

/-! ## setPort -/

@[simp] theorem State.setPort_pending (s : State) (i : Nat) (v : Port) : (s.setPort i v).pending = s.pending := rfl
@[simp] theorem State.setPort_cores (s : State) (i : Nat) (v : Port) : (s.setPort i v).cores = s.cores := rfl
@[simp] theorem State.setPort_clus (s : State) (i : Nat) (v : Port) : (s.setPort i v).clus = s.clus := rfl
@[simp] theorem State.setPort_stacks (s : State) (i : Nat) (v : Port) : (s.setPort i v).stks = s.stks := rfl
@[simp] theorem State.setPort_mem (s : State) (i : Nat) (v : Port) : (s.setPort i v).mem = s.mem := rfl
@[simp] theorem State.setPort_badMem (s : State) (i : Nat) (v : Port) : (s.setPort i v).badMem = s.badMem := rfl
@[simp] theorem State.setPort_softMem (s : State) (i : Nat) (v : Port) : (s.setPort i v).softMem = s.softMem := rfl
@[simp] theorem State.setPort_net (s : State) (i : Nat) (v : Port) : (s.setPort i v).net = s.net := rfl
@[simp] theorem State.setPort_rings (s : State) (i : Nat) (v : Port) : (s.setPort i v).rings = s.rings := rfl
@[simp] theorem State.setPort_imb (s : State) (i : Nat) (v : Port) : (s.setPort i v).imb = s.imb := rfl
@[simp] theorem State.setPort_beat (s : State) (i : Nat) (v : Port) : (s.setPort i v).beat = s.beat := rfl
@[simp] theorem State.setPort_host (s : State) (i : Nat) (v : Port) : (s.setPort i v).host = s.host := rfl
@[simp] theorem State.setPort_log (s : State) (i : Nat) (v : Port) : (s.setPort i v).log = s.log := rfl
@[simp] theorem State.setPort_loader (s : State) (i : Nat) (v : Port) : (s.setPort i v).loader = s.loader := rfl
@[simp] theorem State.setPort_power (s : State) (i : Nat) (v : Port) : (s.setPort i v).power = s.power := rfl
@[simp] theorem State.setPort_mgmt (s : State) (i : Nat) (v : Port) : (s.setPort i v).mgmt = s.mgmt := rfl
@[simp] theorem State.setPort_mon (s : State) (i : Nat) (v : Port) : (s.setPort i v).mon = s.mon := rfl
@[simp] theorem State.setPort_cnt (s : State) (i : Nat) (v : Port) : (s.setPort i v).cnt = s.cnt := rfl
@[simp] theorem State.setPort_dev (s : State) (i : Nat) (v : Port) : (s.setPort i v).dev = s.dev := rfl
@[simp] theorem State.setPort_free (s : State) (i : Nat) (v : Port) : (s.setPort i v).free = s.free := rfl

/-! ## countN -/

@[simp] theorem State.countN_pending (s : State) (a b n : Nat) : (s.countN a b n).pending = s.pending := rfl
@[simp] theorem State.countN_cores (s : State) (a b n : Nat) : (s.countN a b n).cores = s.cores := rfl
@[simp] theorem State.countN_clus (s : State) (a b n : Nat) : (s.countN a b n).clus = s.clus := rfl
@[simp] theorem State.countN_stacks (s : State) (a b n : Nat) : (s.countN a b n).stks = s.stks := rfl
@[simp] theorem State.countN_mem (s : State) (a b n : Nat) : (s.countN a b n).mem = s.mem := rfl
@[simp] theorem State.countN_badMem (s : State) (a b n : Nat) : (s.countN a b n).badMem = s.badMem := rfl
@[simp] theorem State.countN_softMem (s : State) (a b n : Nat) : (s.countN a b n).softMem = s.softMem := rfl
@[simp] theorem State.countN_net (s : State) (a b n : Nat) : (s.countN a b n).net = s.net := rfl
@[simp] theorem State.countN_rings (s : State) (a b n : Nat) : (s.countN a b n).rings = s.rings := rfl
@[simp] theorem State.countN_imb (s : State) (a b n : Nat) : (s.countN a b n).imb = s.imb := rfl
@[simp] theorem State.countN_beat (s : State) (a b n : Nat) : (s.countN a b n).beat = s.beat := rfl
@[simp] theorem State.countN_links (s : State) (a b n : Nat) : (s.countN a b n).links = s.links := rfl
@[simp] theorem State.countN_host (s : State) (a b n : Nat) : (s.countN a b n).host = s.host := rfl
@[simp] theorem State.countN_log (s : State) (a b n : Nat) : (s.countN a b n).log = s.log := rfl
@[simp] theorem State.countN_loader (s : State) (a b n : Nat) : (s.countN a b n).loader = s.loader := rfl
@[simp] theorem State.countN_power (s : State) (a b n : Nat) : (s.countN a b n).power = s.power := rfl
@[simp] theorem State.countN_mgmt (s : State) (a b n : Nat) : (s.countN a b n).mgmt = s.mgmt := rfl
@[simp] theorem State.countN_mon (s : State) (a b n : Nat) : (s.countN a b n).mon = s.mon := rfl
@[simp] theorem State.countN_dev (s : State) (a b n : Nat) : (s.countN a b n).dev = s.dev := rfl
@[simp] theorem State.countN_free (s : State) (a b n : Nat) : (s.countN a b n).free = s.free := rfl

/-! ## count -/

@[simp] theorem State.count_pending (s : State) (a b : Nat) : (s.count a b).pending = s.pending := rfl
@[simp] theorem State.count_cores (s : State) (a b : Nat) : (s.count a b).cores = s.cores := rfl
@[simp] theorem State.count_clus (s : State) (a b : Nat) : (s.count a b).clus = s.clus := rfl
@[simp] theorem State.count_stacks (s : State) (a b : Nat) : (s.count a b).stks = s.stks := rfl
@[simp] theorem State.count_mem (s : State) (a b : Nat) : (s.count a b).mem = s.mem := rfl
@[simp] theorem State.count_badMem (s : State) (a b : Nat) : (s.count a b).badMem = s.badMem := rfl
@[simp] theorem State.count_softMem (s : State) (a b : Nat) : (s.count a b).softMem = s.softMem := rfl
@[simp] theorem State.count_net (s : State) (a b : Nat) : (s.count a b).net = s.net := rfl
@[simp] theorem State.count_rings (s : State) (a b : Nat) : (s.count a b).rings = s.rings := rfl
@[simp] theorem State.count_imb (s : State) (a b : Nat) : (s.count a b).imb = s.imb := rfl
@[simp] theorem State.count_beat (s : State) (a b : Nat) : (s.count a b).beat = s.beat := rfl
@[simp] theorem State.count_links (s : State) (a b : Nat) : (s.count a b).links = s.links := rfl
@[simp] theorem State.count_host (s : State) (a b : Nat) : (s.count a b).host = s.host := rfl
@[simp] theorem State.count_log (s : State) (a b : Nat) : (s.count a b).log = s.log := rfl
@[simp] theorem State.count_loader (s : State) (a b : Nat) : (s.count a b).loader = s.loader := rfl
@[simp] theorem State.count_power (s : State) (a b : Nat) : (s.count a b).power = s.power := rfl
@[simp] theorem State.count_mgmt (s : State) (a b : Nat) : (s.count a b).mgmt = s.mgmt := rfl
@[simp] theorem State.count_mon (s : State) (a b : Nat) : (s.count a b).mon = s.mon := rfl
@[simp] theorem State.count_dev (s : State) (a b : Nat) : (s.count a b).dev = s.dev := rfl
@[simp] theorem State.count_free (s : State) (a b : Nat) : (s.count a b).free = s.free := rfl

/-! ## memWrite -/

@[simp] theorem State.memWrite_pending (s : State) (k : Nat) (bs : List Byte) : (s.memWrite k bs).pending = s.pending := rfl
@[simp] theorem State.memWrite_cores (s : State) (k : Nat) (bs : List Byte) : (s.memWrite k bs).cores = s.cores := rfl
@[simp] theorem State.memWrite_clus (s : State) (k : Nat) (bs : List Byte) : (s.memWrite k bs).clus = s.clus := rfl
@[simp] theorem State.memWrite_stacks (s : State) (k : Nat) (bs : List Byte) : (s.memWrite k bs).stks = s.stks := rfl
@[simp] theorem State.memWrite_badMem (s : State) (k : Nat) (bs : List Byte) : (s.memWrite k bs).badMem = s.badMem := rfl
@[simp] theorem State.memWrite_softMem (s : State) (k : Nat) (bs : List Byte) : (s.memWrite k bs).softMem = s.softMem := rfl
@[simp] theorem State.memWrite_net (s : State) (k : Nat) (bs : List Byte) : (s.memWrite k bs).net = s.net := rfl
@[simp] theorem State.memWrite_rings (s : State) (k : Nat) (bs : List Byte) : (s.memWrite k bs).rings = s.rings := rfl
@[simp] theorem State.memWrite_imb (s : State) (k : Nat) (bs : List Byte) : (s.memWrite k bs).imb = s.imb := rfl
@[simp] theorem State.memWrite_beat (s : State) (k : Nat) (bs : List Byte) : (s.memWrite k bs).beat = s.beat := rfl
@[simp] theorem State.memWrite_links (s : State) (k : Nat) (bs : List Byte) : (s.memWrite k bs).links = s.links := rfl
@[simp] theorem State.memWrite_host (s : State) (k : Nat) (bs : List Byte) : (s.memWrite k bs).host = s.host := rfl
@[simp] theorem State.memWrite_log (s : State) (k : Nat) (bs : List Byte) : (s.memWrite k bs).log = s.log := rfl
@[simp] theorem State.memWrite_loader (s : State) (k : Nat) (bs : List Byte) : (s.memWrite k bs).loader = s.loader := rfl
@[simp] theorem State.memWrite_power (s : State) (k : Nat) (bs : List Byte) : (s.memWrite k bs).power = s.power := rfl
@[simp] theorem State.memWrite_mgmt (s : State) (k : Nat) (bs : List Byte) : (s.memWrite k bs).mgmt = s.mgmt := rfl
@[simp] theorem State.memWrite_mon (s : State) (k : Nat) (bs : List Byte) : (s.memWrite k bs).mon = s.mon := rfl
@[simp] theorem State.memWrite_cnt (s : State) (k : Nat) (bs : List Byte) : (s.memWrite k bs).cnt = s.cnt := rfl
@[simp] theorem State.memWrite_dev (s : State) (k : Nat) (bs : List Byte) : (s.memWrite k bs).dev = s.dev := rfl
@[simp] theorem State.memWrite_free (s : State) (k : Nat) (bs : List Byte) : (s.memWrite k bs).free = s.free := rfl

/-! ## modCpu -/

@[simp] theorem State.modCpu_pending (s : State) (c : CoreId) (f : Cpu → Cpu) : (s.modCpu c f).pending = s.pending := rfl
@[simp] theorem State.modCpu_clus (s : State) (c : CoreId) (f : Cpu → Cpu) : (s.modCpu c f).clus = s.clus := rfl
@[simp] theorem State.modCpu_stacks (s : State) (c : CoreId) (f : Cpu → Cpu) : (s.modCpu c f).stks = s.stks := rfl
@[simp] theorem State.modCpu_mem (s : State) (c : CoreId) (f : Cpu → Cpu) : (s.modCpu c f).mem = s.mem := rfl
@[simp] theorem State.modCpu_badMem (s : State) (c : CoreId) (f : Cpu → Cpu) : (s.modCpu c f).badMem = s.badMem := rfl
@[simp] theorem State.modCpu_softMem (s : State) (c : CoreId) (f : Cpu → Cpu) : (s.modCpu c f).softMem = s.softMem := rfl
@[simp] theorem State.modCpu_net (s : State) (c : CoreId) (f : Cpu → Cpu) : (s.modCpu c f).net = s.net := rfl
@[simp] theorem State.modCpu_rings (s : State) (c : CoreId) (f : Cpu → Cpu) : (s.modCpu c f).rings = s.rings := rfl
@[simp] theorem State.modCpu_imb (s : State) (c : CoreId) (f : Cpu → Cpu) : (s.modCpu c f).imb = s.imb := rfl
@[simp] theorem State.modCpu_beat (s : State) (c : CoreId) (f : Cpu → Cpu) : (s.modCpu c f).beat = s.beat := rfl
@[simp] theorem State.modCpu_links (s : State) (c : CoreId) (f : Cpu → Cpu) : (s.modCpu c f).links = s.links := rfl
@[simp] theorem State.modCpu_host (s : State) (c : CoreId) (f : Cpu → Cpu) : (s.modCpu c f).host = s.host := rfl
@[simp] theorem State.modCpu_log (s : State) (c : CoreId) (f : Cpu → Cpu) : (s.modCpu c f).log = s.log := rfl
@[simp] theorem State.modCpu_loader (s : State) (c : CoreId) (f : Cpu → Cpu) : (s.modCpu c f).loader = s.loader := rfl
@[simp] theorem State.modCpu_power (s : State) (c : CoreId) (f : Cpu → Cpu) : (s.modCpu c f).power = s.power := rfl
@[simp] theorem State.modCpu_mgmt (s : State) (c : CoreId) (f : Cpu → Cpu) : (s.modCpu c f).mgmt = s.mgmt := rfl
@[simp] theorem State.modCpu_mon (s : State) (c : CoreId) (f : Cpu → Cpu) : (s.modCpu c f).mon = s.mon := rfl
@[simp] theorem State.modCpu_cnt (s : State) (c : CoreId) (f : Cpu → Cpu) : (s.modCpu c f).cnt = s.cnt := rfl
@[simp] theorem State.modCpu_dev (s : State) (c : CoreId) (f : Cpu → Cpu) : (s.modCpu c f).dev = s.dev := rfl
@[simp] theorem State.modCpu_free (s : State) (c : CoreId) (f : Cpu → Cpu) : (s.modCpu c f).free = s.free := rfl

/-! ## setReg -/

@[simp] theorem State.setReg_pending (s : State) (c : CoreId) (g : Reg) (v : Word) : (s.setReg c g v).pending = s.pending := rfl
@[simp] theorem State.setReg_clus (s : State) (c : CoreId) (g : Reg) (v : Word) : (s.setReg c g v).clus = s.clus := rfl
@[simp] theorem State.setReg_stacks (s : State) (c : CoreId) (g : Reg) (v : Word) : (s.setReg c g v).stks = s.stks := rfl
@[simp] theorem State.setReg_mem (s : State) (c : CoreId) (g : Reg) (v : Word) : (s.setReg c g v).mem = s.mem := rfl
@[simp] theorem State.setReg_badMem (s : State) (c : CoreId) (g : Reg) (v : Word) : (s.setReg c g v).badMem = s.badMem := rfl
@[simp] theorem State.setReg_softMem (s : State) (c : CoreId) (g : Reg) (v : Word) : (s.setReg c g v).softMem = s.softMem := rfl
@[simp] theorem State.setReg_net (s : State) (c : CoreId) (g : Reg) (v : Word) : (s.setReg c g v).net = s.net := rfl
@[simp] theorem State.setReg_rings (s : State) (c : CoreId) (g : Reg) (v : Word) : (s.setReg c g v).rings = s.rings := rfl
@[simp] theorem State.setReg_imb (s : State) (c : CoreId) (g : Reg) (v : Word) : (s.setReg c g v).imb = s.imb := rfl
@[simp] theorem State.setReg_beat (s : State) (c : CoreId) (g : Reg) (v : Word) : (s.setReg c g v).beat = s.beat := rfl
@[simp] theorem State.setReg_links (s : State) (c : CoreId) (g : Reg) (v : Word) : (s.setReg c g v).links = s.links := rfl
@[simp] theorem State.setReg_host (s : State) (c : CoreId) (g : Reg) (v : Word) : (s.setReg c g v).host = s.host := rfl
@[simp] theorem State.setReg_log (s : State) (c : CoreId) (g : Reg) (v : Word) : (s.setReg c g v).log = s.log := rfl
@[simp] theorem State.setReg_loader (s : State) (c : CoreId) (g : Reg) (v : Word) : (s.setReg c g v).loader = s.loader := rfl
@[simp] theorem State.setReg_power (s : State) (c : CoreId) (g : Reg) (v : Word) : (s.setReg c g v).power = s.power := rfl
@[simp] theorem State.setReg_mgmt (s : State) (c : CoreId) (g : Reg) (v : Word) : (s.setReg c g v).mgmt = s.mgmt := rfl
@[simp] theorem State.setReg_mon (s : State) (c : CoreId) (g : Reg) (v : Word) : (s.setReg c g v).mon = s.mon := rfl
@[simp] theorem State.setReg_cnt (s : State) (c : CoreId) (g : Reg) (v : Word) : (s.setReg c g v).cnt = s.cnt := rfl
@[simp] theorem State.setReg_dev (s : State) (c : CoreId) (g : Reg) (v : Word) : (s.setReg c g v).dev = s.dev := rfl
@[simp] theorem State.setReg_free (s : State) (c : CoreId) (g : Reg) (v : Word) : (s.setReg c g v).free = s.free := rfl

/-! ## Reading a unit after an update -/

/-- A core after a core has been replaced. -/
@[simp] theorem State.core_setCore (s : State) (c d : CoreId) (v : Core) : (s.setCore c v).core d = if d = c then v else s.core d := by
  simp [State.core, State.setCore, BitVec.toNat_inj]

/-- A core after a core has been changed. -/
@[simp] theorem State.core_modCore (s : State) (c d : CoreId) (f : Core → Core) :
    (s.modCore c f).core d = if d = c then f (s.core c) else s.core d := by simp [State.modCore]

/-- A core after a scalar core has been changed. -/
@[simp] theorem State.core_modCpu (s : State) (c d : CoreId) (f : Cpu → Cpu) :
    (s.modCpu c f).core d = if d = c then { s.core c with cpu := f (s.core c).cpu } else s.core d := by simp [State.modCpu]

/-- A cluster after a cluster has been replaced. -/
@[simp] theorem State.clu_setClu (s : State) (i j : Nat) (v : Cluster) : (s.setClu i v).clu j = if j = i then v else s.clu j := by
  simp [State.clu, State.setClu]

/-- A stack after a stack has been replaced. -/
@[simp] theorem State.stack_setStack (s : State) (i j : Nat) (v : Stack) : (s.setStack i v).stack j = if j = i then v else s.stack j := by
  simp [State.stack, State.setStack]

/-- A link port after a port has been replaced. -/
@[simp] theorem State.port_setPort (s : State) (i j : Nat) (v : Port) : (s.setPort i v).port j = if j = i then v else s.port j := by
  simp [State.port, State.setPort]

/-- A channel after a channel has been replaced. -/
@[simp] theorem State.chan_setChan (s : State) (i j a b : Nat) (v : Chan) :
    (s.setChan i a v).chan j b = if j = i ∧ b = a then v else s.chan j b := by
  simp only [State.chan, State.setChan, State.clu_setClu]
  split
  · subst_vars; simp
  · simp_all

/-- The other units are out of a core update's reach. -/
@[simp] theorem State.clu_setCore (s : State) (c : CoreId) (v : Core) (i : Nat) : (s.setCore c v).clu i = s.clu i := rfl
@[simp] theorem State.stack_setCore (s : State) (c : CoreId) (v : Core) (i : Nat) : (s.setCore c v).stack i = s.stack i := rfl
@[simp] theorem State.port_setCore (s : State) (c : CoreId) (v : Core) (i : Nat) : (s.setCore c v).port i = s.port i := rfl
@[simp] theorem State.core_setClu (s : State) (i : Nat) (v : Cluster) (c : CoreId) : (s.setClu i v).core c = s.core c := rfl
@[simp] theorem State.stack_setClu (s : State) (i : Nat) (v : Cluster) (j : Nat) : (s.setClu i v).stack j = s.stack j := rfl
@[simp] theorem State.port_setClu (s : State) (i : Nat) (v : Cluster) (j : Nat) : (s.setClu i v).port j = s.port j := rfl
@[simp] theorem State.core_setStack (s : State) (i : Nat) (v : Stack) (c : CoreId) : (s.setStack i v).core c = s.core c := rfl
@[simp] theorem State.clu_setStack (s : State) (i : Nat) (v : Stack) (j : Nat) : (s.setStack i v).clu j = s.clu j := rfl
@[simp] theorem State.core_setPort (s : State) (i : Nat) (v : Port) (c : CoreId) : (s.setPort i v).core c = s.core c := rfl
@[simp] theorem State.clu_setPort (s : State) (i : Nat) (v : Port) (j : Nat) : (s.setPort i v).clu j = s.clu j := rfl

/-! ## General registers (R51, R52) -/

/-- A register after a register has been written: g0 reads 0, and a write of it is discarded. -/
@[simp] theorem Cpu.reg_setReg (u : Cpu) (g h : Reg) (v : Word) :
    (u.setReg g v).reg h = if h = 0 then 0 else if h = g then v else u.reg h := by
  grind [Cpu.reg, Cpu.setReg, Table.get_put, BitVec.toNat_inj]

/-- Writing a register leaves the rest of the scalar core alone. -/
theorem Cpu.setReg_special (u : Cpu) (g : Reg) (v : Word) : { u.setReg g v with regs := u.regs } = u := by
  unfold Cpu.setReg; split <;> rfl

end Sys2Proof.Machine
end

