-- ==== Sys2Proof/Laws/Log.lean ====
section
/-! SUPPORT. What an event of the log leaves alone, and what its records depend on (R483, R484). -/

namespace Sys2Proof.Machine

/-- An event changes the log and the counters of 0x8001, nothing else. -/
theorem State.logEv_only (s : State) (code : Nat) (att : Bool) (fields : List Byte) :
    { s.logEv code att fields with log := s.log, cnt := s.cnt } = s := by
  unfold State.logEv
  dsimp only
  split
  · rfl
  · split <;> rfl

@[simp] theorem State.logEv_pending (s : State) (code : Nat) (att : Bool) (fields : List Byte) : (s.logEv code att fields).pending = s.pending :=
  by have h := congrArg State.pending (s.logEv_only code att fields); exact h
@[simp] theorem State.logEv_cores (s : State) (code : Nat) (att : Bool) (fields : List Byte) : (s.logEv code att fields).cores = s.cores :=
  by have h := congrArg State.cores (s.logEv_only code att fields); exact h
@[simp] theorem State.logEv_clus (s : State) (code : Nat) (att : Bool) (fields : List Byte) : (s.logEv code att fields).clus = s.clus :=
  by have h := congrArg State.clus (s.logEv_only code att fields); exact h
@[simp] theorem State.logEv_stks (s : State) (code : Nat) (att : Bool) (fields : List Byte) : (s.logEv code att fields).stks = s.stks :=
  by have h := congrArg State.stks (s.logEv_only code att fields); exact h
@[simp] theorem State.logEv_mem (s : State) (code : Nat) (att : Bool) (fields : List Byte) : (s.logEv code att fields).mem = s.mem :=
  by have h := congrArg State.mem (s.logEv_only code att fields); exact h
@[simp] theorem State.logEv_badMem (s : State) (code : Nat) (att : Bool) (fields : List Byte) : (s.logEv code att fields).badMem = s.badMem :=
  by have h := congrArg State.badMem (s.logEv_only code att fields); exact h
@[simp] theorem State.logEv_softMem (s : State) (code : Nat) (att : Bool) (fields : List Byte) : (s.logEv code att fields).softMem = s.softMem :=
  by have h := congrArg State.softMem (s.logEv_only code att fields); exact h
@[simp] theorem State.logEv_rings (s : State) (code : Nat) (att : Bool) (fields : List Byte) : (s.logEv code att fields).rings = s.rings :=
  by have h := congrArg State.rings (s.logEv_only code att fields); exact h
@[simp] theorem State.logEv_net (s : State) (code : Nat) (att : Bool) (fields : List Byte) : (s.logEv code att fields).net = s.net :=
  by have h := congrArg State.net (s.logEv_only code att fields); exact h
@[simp] theorem State.logEv_imb (s : State) (code : Nat) (att : Bool) (fields : List Byte) : (s.logEv code att fields).imb = s.imb :=
  by have h := congrArg State.imb (s.logEv_only code att fields); exact h
@[simp] theorem State.logEv_beat (s : State) (code : Nat) (att : Bool) (fields : List Byte) : (s.logEv code att fields).beat = s.beat :=
  by have h := congrArg State.beat (s.logEv_only code att fields); exact h
@[simp] theorem State.logEv_links (s : State) (code : Nat) (att : Bool) (fields : List Byte) : (s.logEv code att fields).links = s.links :=
  by have h := congrArg State.links (s.logEv_only code att fields); exact h
@[simp] theorem State.logEv_host (s : State) (code : Nat) (att : Bool) (fields : List Byte) : (s.logEv code att fields).host = s.host :=
  by have h := congrArg State.host (s.logEv_only code att fields); exact h
@[simp] theorem State.logEv_loader (s : State) (code : Nat) (att : Bool) (fields : List Byte) : (s.logEv code att fields).loader = s.loader :=
  by have h := congrArg State.loader (s.logEv_only code att fields); exact h
@[simp] theorem State.logEv_power (s : State) (code : Nat) (att : Bool) (fields : List Byte) : (s.logEv code att fields).power = s.power :=
  by have h := congrArg State.power (s.logEv_only code att fields); exact h
@[simp] theorem State.logEv_mgmt (s : State) (code : Nat) (att : Bool) (fields : List Byte) : (s.logEv code att fields).mgmt = s.mgmt :=
  by have h := congrArg State.mgmt (s.logEv_only code att fields); exact h
@[simp] theorem State.logEv_mon (s : State) (code : Nat) (att : Bool) (fields : List Byte) : (s.logEv code att fields).mon = s.mon :=
  by have h := congrArg State.mon (s.logEv_only code att fields); exact h
@[simp] theorem State.logEv_dev (s : State) (code : Nat) (att : Bool) (fields : List Byte) : (s.logEv code att fields).dev = s.dev :=
  by have h := congrArg State.dev (s.logEv_only code att fields); exact h
@[simp] theorem State.logEv_free (s : State) (code : Nat) (att : Bool) (fields : List Byte) : (s.logEv code att fields).free = s.free :=
  by have h := congrArg State.free (s.logEv_only code att fields); exact h

/-- Every counter outside 0x8001 stands through an event. -/
theorem State.logEv_cnt (s : State) (code : Nat) (att : Bool) (fields : List Byte) (i : Nat) (h : i / 256 ≠ 0x8001) :
    Table.get 0 (s.logEv code att fields).cnt i = Table.get 0 s.cnt i := by
  unfold State.logEv
  dsimp only
  split
  · simp only [State.count, State.countN, Table.get_put]
    rw [if_neg (by omega)]
  · split
    · simp only [State.count, State.countN, Table.get_put]
      rw [if_neg (by omega)]
    · rfl

/-- The records of an event depend on the log and the beat alone. -/
theorem State.logEv_log (s t : State) (code : Nat) (att : Bool) (fields : List Byte) (hl : t.log = s.log) (hb : t.beat = s.beat) :
    (t.logEv code att fields).log = (s.logEv code att fields).log := by
  unfold State.logEv
  dsimp only
  rw [hl, hb]
  split
  · rfl
  · split <;> rfl

end Sys2Proof.Machine
end

