-- ==== Sys2Proof/Laws/Fabric.lean ====
section
/-! SUPPORT. What a cycle of the fabric, and what it may raise on the way, leaves alone: the stored bytes of stack memory and host memory, and the fuses. -/

namespace Sys2Proof.Machine

/-- `t` stores what `s` stores and has its fuses. -/
def Stored (s t : State) : Prop :=
  t.mem = s.mem ∧ t.host.mem = s.host.mem ∧ t.dev.b0 = s.dev.b0 ∧ t.dev.map = s.dev.map

theorem Stored.refl (s : State) : Stored s s := ⟨rfl, rfl, rfl, rfl⟩

theorem Stored.trans {s t u : State} (h : Stored s t) (k : Stored t u) : Stored s u :=
  ⟨k.1.trans h.1, k.2.1.trans h.2.1, k.2.2.1.trans h.2.2.1, k.2.2.2.trans h.2.2.2⟩

/-- What stores what `s'` stores does so of any state that agrees with `s'` there. -/
theorem Stored.via {s s' t : State} (h : Stored s' t) (h1 : s'.mem = s.mem) (h2 : s'.host.mem = s.host.mem) (h3 : s'.dev.b0 = s.dev.b0)
    (h4 : s'.dev.map = s.dev.map) : Stored s t :=
  ⟨h.1.trans h1, h.2.1.trans h2, h.2.2.1.trans h3, h.2.2.2.trans h4⟩

/-- A fold whose every step stores the same stores the same. -/
theorem Stored.foldl {α : Type} {f : State → α → State} (h : ∀ s x, Stored s (f s x)) (xs : List α) (s : State) : Stored s (xs.foldl f s) := by
  induction xs generalizing s with
  | nil => exact .refl s
  | cons x xs ih => exact (h s x).trans (ih (f s x))

theorem Stored.forN {f : State → Nat → State} (h : ∀ s i, Stored s (f s i)) (n : Nat) (s : State) : Stored s (forN n f s) :=
  Stored.foldl h (List.range n) s

theorem State.count_stored (s : State) (index sub : Nat) : Stored s (s.count index sub) := ⟨rfl, rfl, rfl, rfl⟩

theorem State.logEv_stored (s : State) (code : Nat) (att : Bool) (fields : List Byte) : Stored s (s.logEv code att fields) := by
  simp [Stored]

theorem State.toState_stored (s : State) (st : DevSt) (cause : Nat) : Stored s (s.toState st cause) := by
  unfold State.toState
  split
  · exact .refl s
  · simp [Stored]

theorem State.discard406_stored (s : State) (atPort : Bool) (n : Nat) (p : Packet) : Stored s (s.discard406 atPort n p) := by
  unfold State.discard406 State.drop406
  dsimp only
  repeat' split
  all_goals simp [Stored, State.unasked, State.count, State.countN]

theorem State.inject_stored (s : State) (p : Packet) : Stored s (s.inject p) := by
  unfold State.inject
  repeat' split
  all_goals first
    | exact ⟨rfl, rfl, rfl, rfl⟩
    | exact s.discard406_stored _ _ _

theorem State.stopNow_stored (s : State) (c : CoreId) (k : Core) (pc : PAddr) : Stored s (s.stopNow c k pc) := by
  unfold State.stopNow State.endHold
  dsimp only
  split
  · exact (State.inject_stored _ _).via rfl rfl rfl rfl
  · exact ⟨rfl, rfl, rfl, rfl⟩

theorem State.settleStop_stored (s : State) (c : CoreId) : Stored s (s.settleStop c) := by
  unfold State.settleStop
  dsimp only
  repeat' split
  all_goals first
    | exact s.stopNow_stored c _ _
    | exact ⟨rfl, rfl, rfl, rfl⟩
    | exact (State.inject_stored _ _).via rfl rfl rfl rfl

theorem State.stopReq_stored (s : State) (c : CoreId) : Stored s (s.stopReq c) := by
  unfold State.stopReq
  split
  · exact (State.settleStop_stored _ c).via rfl rfl rfl rfl
  · exact .refl s

theorem State.disableChan_stored (s : State) (cl ch : Nat) : Stored s (s.disableChan cl ch) := by
  unfold State.disableChan State.abortChan
  dsimp only
  repeat' split
  all_goals first
    | exact ⟨rfl, rfl, rfl, rfl⟩
    | exact (State.inject_stored _ _).via rfl rfl rfl rfl

theorem State.stopAll_stored (s : State) : Stored s s.stopAll :=
  Stored.foldl (f := fun s (kv : Nat × Core) => s.stopReq (BitVec.ofNat 10 kv.1)) (fun s _ => s.stopReq_stored _) s.cores s

theorem State.disableAll_stored (s : State) : Stored s (forN 64 (fun s cl => forN 8 (fun s ch => s.disableChan cl ch) s) s) :=
  Stored.forN (fun s cl => Stored.forN (fun s ch => s.disableChan_stored cl ch) 8 s) 64 s

theorem State.haltAll_stored (s : State) : Stored s (forN 8 (fun s i => s.setStack i { s.stack i with haltq := true }) s) :=
  Stored.forN (f := fun s i => s.setStack i { s.stack i with haltq := true }) (fun _ _ => ⟨rfl, rfl, rfl, rfl⟩) 8 s

theorem State.setBeat_stored (s : State) (b : Beat) : Stored s { s with beat := b } := ⟨rfl, rfl, rfl, rfl⟩

theorem State.pullsOff_stored (s : State) : Stored s { s with host := { s.host with slIn := false, slRt := false } } := ⟨rfl, rfl, rfl, rfl⟩

/-- A FAULT keeps memory and fuses (R452). -/
theorem State.deviceFault_stored (s : State) (cause : Nat) : Stored s (s.deviceFault cause) := by
  unfold State.deviceFault
  split
  · exact .refl s
  · dsimp only
    split
    · exact ⟨rfl, rfl, rfl, rfl⟩
    · refine Stored.trans ?_ (State.pullsOff_stored _)
      refine Stored.trans ?_ (State.haltAll_stored _)
      refine Stored.trans ?_ (State.disableAll_stored _)
      refine Stored.trans ?_ (State.setBeat_stored _ _)
      refine Stored.trans ?_ (State.stopAll_stored _)
      exact (State.toState_stored _ .fault cause).via rfl rfl rfl rfl

theorem State.offRegion_stored (s : State) (p : Packet) : Stored s (s.offRegion p) := by
  unfold State.offRegion
  dsimp only
  split
  · refine Stored.trans ?_ (State.inject_stored _ _)
    repeat' split
    all_goals simp [Stored, State.count, State.countN]
  · repeat' split
    all_goals simp [Stored, State.count, State.countN]

theorem State.freeRx_stored (s : State) (p : Packet) : Stored s (s.freeRx p) := by
  unfold State.freeRx
  repeat' split
  all_goals exact ⟨rfl, rfl, rfl, rfl⟩

theorem State.hopOn_stored (s : State) (k : Nat) (p : Packet) (l : RingLink) (e : Ecc) : Stored s (s.hopOn k p l e) := by
  unfold State.hopOn State.poison
  dsimp only
  split
  · exact ⟨rfl, rfl, rfl, rfl⟩
  · exact ⟨rfl, rfl, rfl, rfl⟩
  · split
    · unfold State.dropVc0
      exact Stored.trans (by simp [Stored]) (State.deviceFault_stored _ 3)
    · simp [Stored, State.count, State.countN]

theorem State.grant_stored (s : State) (k : Nat) (p : Packet) (l : RingLink) (e : Ecc) : Stored s (s.grant k p l e) := by
  unfold State.grant
  dsimp only
  split
  · exact ((s.freeRx_stored p).trans (State.hopOn_stored _ k p l e)).trans (State.count_stored _ _ _)
  · exact (s.freeRx_stored p).trans (State.hopOn_stored _ k p l e)

theorem State.grantRank_stored (s : State) (r : Nat) : Stored s (s.grantRank r) := by
  refine Stored.foldl (fun s k => ?_) _ s
  repeat' split
  all_goals first
    | exact .refl s
    | exact (State.grant_stored _ _ _ _ _).via rfl rfl rfl rfl

theorem State.leave_stored {s t : State} {p : Packet} (h : s.leave p = some t) : Stored s t := by
  unfold State.leave State.toPort at h
  split at h
  · cases h
  · split at h
    · dsimp only at h
      repeat' split at h
      all_goals first
        | (cases h; exact ⟨rfl, rfl, rfl, rfl⟩)
        | (cases h; exact State.discard406_stored _ _ _ _)
    · split at h
      · split at h
        · cases h; exact State.logEv_stored _ _ _ _
        · cases h; exact State.offRegion_stored _ _
      · cases h

theorem State.leaveAt_stored {s t : State} {k : Nat} {p : Packet} (h : s.leaveAt k p = some t) : Stored s t := by
  unfold State.leaveAt at h
  split at h
  · cases h
  · obtain ⟨u, hu, rfl⟩ := Option.map_eq_some_iff.1 h
    exact ((State.leave_stored hu).via rfl rfl rfl rfl).trans (u.freeRx_stored p)

theorem State.leaveFrom_stored (n k : Nat) (s : State) : Stored s (State.leaveFrom n k s) := by
  induction n generalizing k s with
  | zero => exact .refl s
  | succ n ih =>
    unfold State.leaveFrom
    split
    · exact .refl s
    · split
      · rename_i h
        exact (State.leaveAt_stored h).trans (ih k _)
      · exact ih (k + 1) s

theorem State.setNet_stored (s : State) (ps : List Packet) : Stored s { s with net := ps } := ⟨rfl, rfl, rfl, rfl⟩

theorem State.grants_stored (s : State) : Stored s ((List.range 9).foldl (fun s r => s.grantRank r) s) :=
  Stored.foldl (fun s r => s.grantRank_stored r) (List.range 9) s

/-- A cycle of the fabric keeps memory and fuses. -/
theorem State.fabricCycle_stored (s : State) : Stored s s.fabricCycle := by
  unfold State.fabricCycle
  split
  · exact .refl s
  · dsimp only
    refine Stored.trans ?_ (State.setNet_stored _ _)
    refine Stored.trans ?_ (State.grants_stored _)
    refine Stored.trans ?_ (State.setNet_stored _ _)
    exact State.leaveFrom_stored _ 0 s

end Sys2Proof.Machine
end

