-- ==== Sys2Proof/Laws/Memory.lean ====
section
/-! SUPPORT. Laws of stack memory and host memory: read after write, and the canonical form. -/

namespace Sys2Proof.Machine

/-- A byte of a memory list after bytes were put there from `key` on: the byte put there, and elsewhere the one before. -/
theorem get_memPut (bs : List Byte) : ∀ (m : List Host.Cell) (key j : Nat),
    Table.get 0 (memPut m key bs) j =
      if key ≤ j ∧ j < key + bs.length then bs.getD (j - key) 0 else Table.get 0 m j := by
  induction bs with
  | nil => intro m key j; simp [memPut] <;> omega
  | cons b bs ih =>
    intro m key j
    simp only [memPut, ih, Table.get_putc, List.length_cons]
    by_cases h : j = key
    · subst h; simp <;> omega
    · by_cases h1 : key + 1 ≤ j ∧ j < key + 1 + bs.length
      · obtain ⟨n, rfl⟩ : ∃ n, j = key + 1 + n := ⟨j - (key + 1), by omega⟩
        have h2 : key + 1 + n - key = n + 1 := by omega
        rw [if_pos h1, if_pos (by omega), h2]
        simp
      · rw [if_neg h1, if_neg h, if_neg (by omega)]

/-- Putting bytes into a memory list keeps its canonical form. -/
theorem wf_memPut (bs : List Byte) : ∀ (m : List Host.Cell) (key : Nat),
    Table.wf 0 m = true → Table.wf 0 (memPut m key bs) = true := by
  induction bs with
  | nil => intro m key h; exact h
  | cons b bs ih => intro m key h; exact ih _ _ (Table.wf_putc 0 m key b h)

/-- A byte of stack memory after a write. -/
@[simp] theorem State.memByte_memWrite (s : State) (key j : Nat) (bs : List Byte) :
    (s.memWrite key bs).memByte j = if key ≤ j ∧ j < key + bs.length then bs.getD (j - key) 0 else s.memByte j :=
  get_memPut bs s.mem key j

/-- Reading `n` bytes gives `n` bytes. -/
@[simp] theorem State.length_memRead (s : State) (n : Nat) : ∀ key, (s.memRead key n).length = n := by
  induction n with
  | zero => intro key; rfl
  | succ n ih => intro key; simp [State.memRead, ih]

/-- The `i`-th byte of a range that is read. -/
theorem State.getElem?_memRead (s : State) (n : Nat) : ∀ key i, i < n → (s.memRead key n)[i]? = some (s.memByte (key + i)) := by
  induction n with
  | zero => intro key i h; omega
  | succ n ih =>
    intro key i h
    cases i with
    | zero => simp [State.memRead]
    | succ i => simp only [State.memRead, List.getElem?_cons_succ]; rw [ih (key + 1) i (by omega)]; congr 2; omega

/-- Two states that hold the same bytes in a range read the same there. -/
theorem State.memRead_congr (s t : State) (n : Nat) : ∀ key, (∀ j, key ≤ j → j < key + n → t.memByte j = s.memByte j) →
    t.memRead key n = s.memRead key n := by
  induction n with
  | zero => intro key _; rfl
  | succ n ih =>
    intro key h
    simp only [State.memRead]
    rw [h key (Nat.le_refl _) (by omega), ih (key + 1) (fun j a b => h j (by omega) (by omega))]

/-- A range reads back what was written to it. -/
theorem State.memRead_memWrite (s : State) (key : Nat) (bs : List Byte) : (s.memWrite key bs).memRead key bs.length = bs := by
  apply List.ext_getElem?
  intro i
  by_cases h : i < bs.length
  · rw [State.getElem?_memRead _ _ _ _ h, State.memByte_memWrite, if_pos (by omega), show key + i - key = i by omega]
    simp [List.getD, h]
  · rw [List.getElem?_eq_none (by simp; omega), List.getElem?_eq_none (by omega)]

/-- A range away from a write reads as before. -/
theorem State.memRead_apart (s : State) (key n a : Nat) (bs : List Byte) (h : a + n ≤ key ∨ key + bs.length ≤ a) :
    (s.memWrite key bs).memRead a n = s.memRead a n := by
  apply State.memRead_congr
  intro j h1 h2
  rw [State.memByte_memWrite, if_neg (by omega)]

/-- A write to stack memory keeps both memories canonical. -/
theorem State.memOk_memWrite (s : State) (key : Nat) (bs : List Byte) (h : s.memOk = true) : (s.memWrite key bs).memOk = true := by
  simp only [State.memOk, Bool.and_eq_true] at *
  exact ⟨wf_memPut bs s.mem key h.1, h.2⟩

/-- A write at a local address keeps both memories canonical. -/
theorem State.memOk_localWrite (bs : List Byte) : ∀ (s : State) (a : Nat), s.memOk = true → (s.localWrite a bs).memOk = true := by
  induction bs with
  | nil => intro s a h; exact h
  | cons b bs ih =>
    intro s a h
    simp only [State.localWrite]
    apply ih
    split
    · simp only [State.memOk, Bool.and_eq_true] at *
      exact ⟨Table.wf_putc 0 s.mem _ b h.1, h.2⟩
    · exact h

/-- A write to host memory keeps both memories canonical. -/
theorem State.memOk_hostWrite (s : State) (a : Nat) (bs : List Byte) (h : s.memOk = true) : (s.hostWrite a bs).memOk = true := by
  simp only [State.memOk, Bool.and_eq_true] at *
  exact ⟨h.1, wf_memPut bs s.host.mem a h.2⟩

/-- A write at a local address changes nothing but stack memory. -/
theorem State.localWrite_frame (bs : List Byte) : ∀ (s : State) (a : Nat), ∃ m, s.localWrite a bs = { s with mem := m } := by
  induction bs with
  | nil => intro s a; exact ⟨s.mem, rfl⟩
  | cons b bs ih =>
    intro s a
    simp only [State.localWrite]
    split
    · obtain ⟨m, hm⟩ := ih { s with mem := Table.putc 0 s.mem _ b } (a + 1)
      exact ⟨m, hm⟩
    · exact ih s (a + 1)

/-- Two fields decide whether the memories are canonical. -/
theorem State.memOk_congr {s t : State} (h1 : t.mem = s.mem) (h2 : t.host.mem = s.host.mem) : t.memOk = s.memOk := by
  simp only [State.memOk, h1, h2]

end Sys2Proof.Machine
end

