-- ==== Sys2Proof/Laws/Burst.lean ====
section
/-! SUPPORT. What a memory controller's shared operations do: reads that count and log, and writes that merge (R225). -/

namespace Sys2Proof.Machine

theorem State.memEvent_stored (s : State) (st sa : Nat) : Stored s (s.memEvent st sa) :=
  (State.count_stored s 0x3003 (st + 1)).trans (State.logEv_stored _ _ _ _)

/-- A read's reports leave every stored byte. -/
theorem State.granuleRead_stored (s : State) (st sa n : Nat) : Stored s (s.granuleRead st sa n) := by
  simp only [State.granuleRead]
  by_cases h : s.memBad (memKey st sa) n = true
  · rw [if_pos h]
    exact s.memEvent_stored st sa
  · rw [if_neg h]
    by_cases h' : s.memSoft (memKey st sa) n = true
    · rw [if_pos h']
      exact s.count_stored 0x3002 (st + 1)
    · rw [if_neg h']
      exact .refl s

theorem State.cleanBursts_stored (s : State) (key n : Nat) : Stored s (s.cleanBursts key n) := ⟨rfl, rfl, rfl, rfl⟩

theorem State.strike_stored (s : State) (key n : Nat) : Stored s (s.strike key n).1 := by
  unfold State.strike State.draw
  dsimp only
  refine ⟨?_, ?_, ?_, ?_⟩ <;> split <;> rfl

/-- A controller's write that is performed leaves the bytes that it names and every other byte as they were. -/
theorem State.burstWrite_ok {s t : State} {key : Nat} {bs : List Byte} (h : s.burstWrite key bs = some t) : Stored (s.memWrite key bs) t := by
  simp only [State.burstWrite] at h
  by_cases hb : ((partialBursts key bs.length).any fun b => s.badMem.contains b) = true
  · rw [if_pos hb] at h
    cases h
  · rw [if_neg hb] at h
    cases h
    exact (s.memWrite key bs).cleanBursts_stored key _

/-- The reports of a write's merges leave every stored byte. -/
theorem State.mergeReads_stored (s : State) (st key n : Nat) : Stored s (s.mergeReads st key n) :=
  Stored.foldl (fun s b => s.granuleRead_stored st (b * 64 % 2 ^ 37) 64) _ s

/-- A controller's write after reads that store nothing: performed, it writes its bytes and no other; refused, none. -/
theorem State.burstWrite_after {s u : State} (key : Nat) (bs : List Byte) (hr : Stored s u) :
    ((u.burstWrite key bs).isSome = true ∧ Stored (s.memWrite key bs) ((u.burstWrite key bs).getD u))
      ∨ ((u.burstWrite key bs).isSome = false ∧ Stored s ((u.burstWrite key bs).getD u)) := by
  cases hb : u.burstWrite key bs with
  | none => exact .inr ⟨rfl, hr⟩
  | some v =>
    have hm : (u.memWrite key bs).mem = (s.memWrite key bs).mem := congrArg (fun m => memPut m key bs) hr.1
    exact .inl ⟨rfl, (State.burstWrite_ok hb).via hm hr.2.1 hr.2.2.1 hr.2.2.2⟩

/-- A write with its merges that is performed writes its bytes and no other; one that is refused writes none. -/
theorem State.mergeWrite_stored (s : State) (st sa : Nat) (bs : List Byte) :
    ((s.mergeWrite st sa bs).2 = true ∧ Stored (s.memWrite (memKey st sa) bs) (s.mergeWrite st sa bs).1)
      ∨ ((s.mergeWrite st sa bs).2 = false ∧ Stored s (s.mergeWrite st sa bs).1) := by
  rw [State.mergeWrite]
  exact State.burstWrite_after _ _ (s.mergeReads_stored st (memKey st sa) bs.length)

/-- A write with its merges keeps both memories canonical. -/
theorem State.memOk_mergeWrite (s : State) (st sa : Nat) (bs : List Byte) (h : s.memOk = true) : (s.mergeWrite st sa bs).1.memOk = true := by
  obtain ⟨-, hw⟩ | ⟨-, hw⟩ := s.mergeWrite_stored st sa bs
  · exact (State.memOk_congr hw.1 hw.2.1).trans (State.memOk_memWrite s (memKey st sa) bs h)
  · exact (State.memOk_congr hw.1 hw.2.1).trans h

/-- Writes in turn: the first, then the rest after it, and all are performed where each is. -/
theorem State.burstWrites_cons (s : State) (st sa : Nat) (bs : List Byte) (ws : List (Nat × List Byte)) :
    s.burstWrites st ((sa, bs) :: ws)
      = (((s.mergeWrite st sa bs).1.burstWrites st ws).1, (s.mergeWrite st sa bs).2 && ((s.mergeWrite st sa bs).1.burstWrites st ws).2) := by
  rw [State.burstWrites]

/-- Writes in turn keep both memories canonical. -/
theorem State.memOk_burstWrites (st : Nat) (ws : List (Nat × List Byte)) : ∀ s : State, s.memOk = true → (s.burstWrites st ws).1.memOk = true := by
  induction ws with
  | nil => intro s h; exact h
  | cons w ws ih =>
    intro s h
    obtain ⟨sa, bs⟩ := w
    rw [State.burstWrites_cons]
    exact ih _ (s.memOk_mergeWrite st sa bs h)

end Sys2Proof.Machine
end

