-- ==== Sys2Proof/Laws/Issue.lean ====
section
/-! SUPPORT. What the issue of one instruction comes to, once for every instruction of a core. -/

namespace Sys2Proof.Machine

/-- A core that can issue runs the instruction's effect with the shadow of R79 over. -/
theorem State.issue_ready {s : State} {c : CoreId} {ws : List Nat} {uses : List Reg} {eff : State → Exec}
    (h : Ready s c uses ws.length) :
    s.issue c ws uses eff = (eff (s.modCpu c (fun u => { u with shadow := false }))).apply s c (s.core c).cpu.pc ws.length := by
  have h1 := h.can
  have h2 := h.free
  have h3 := h.fits
  unfold State.issue
  simp only [h1, h2, if_true]
  split
  · simp_all
  · simp

/-- A core that cannot issue is left alone. -/
theorem State.issue_not {s : State} {c : CoreId} {ws : List Nat} {uses : List Reg} {eff : State → Exec}
    (h : s.canIssue c = false) : s.issue c ws uses eff = s := by simp [State.issue, h]

/-- The packet that withdraws a response hold's stall request (R358). -/
def holdEnd (s : State) (c : CoreId) : Packet :=
  ctlPkt s (BitVec.ofNat 11 c.toNat) (BitVec.ofNat 32 (2 * 2 ^ 28 + 1 * 2 ^ 16 + c.toNat)) 0

/-- A packet for this device enters the fabric behind those in flight (R254). -/
theorem State.inject_own (s : State) (p : Packet) (h : p.ddev = s.own) : s.inject p = { s with net := s.net ++ [p] } := by
  unfold State.inject; rw [if_pos h]

/-- The end of a response hold: the stall request is withdrawn, and nothing else changes. -/
theorem State.endHold_eq (s : State) (c : CoreId) :
    s.endHold c = if (s.core c).run.stall = true then
        { s.setCore c { s.core c with run := { (s.core c).run with stall := false } } with net := s.net ++ [holdEnd s c] } else s := by
  by_cases h : (s.core c).run.stall = true
  · rw [if_pos h]
    unfold State.endHold
    rw [if_pos h]
    exact State.inject_own _ _ rfl
  · rw [if_neg h]
    unfold State.endHold
    rw [if_neg h]

/-- The state that an instruction's effect leaves on its core: `t` is the state the instruction issues in. -/
theorem State.core_endHold (s : State) (c d : CoreId) :
    (s.endHold c).core d = if d = c then { s.core c with run := { (s.core c).run with stall := false } } else s.core d := by
  rw [State.endHold_eq]
  by_cases h : (s.core c).run.stall = true
  · rw [if_pos h]
    exact State.core_setCore s c d _
  · rw [if_neg h]
    by_cases hd : d = c
    · rw [if_pos hd, hd]
      have h' : (s.core c).run.stall = false := by simpa using h
      rw [← h']
    · rw [if_neg hd]

theorem State.endHold_apart (s : State) (c : CoreId) :
    { s.endHold c with cores := s.cores, net := s.net } = s ∧ ((s.core c).run.stall = false → (s.endHold c).net = s.net) := by
  rw [State.endHold_eq]
  by_cases h : (s.core c).run.stall = true
  · rw [if_pos h]
    exact ⟨rfl, fun h' => absurd h (by simp [h'])⟩
  · rw [if_neg h]
    exact ⟨rfl, fun _ => rfl⟩

/-- What the completion of an instruction that does not transfer control comes to: the effect on the core's cell, the pc advanced, the wait over, the stall request withdrawn. -/
theorem Exec.done_core (s : State) (c : CoreId) (k : Core) (n : Nat) (pc : PAddr) :
    ∃ t, (Exec.done (s.setCore c k)).apply s c pc n = t
      ∧ t.core c = { Core.issued k with cpu := (Core.issued k).cpu.advance pc n, run := { (Core.issued k).run with stall := false } }
      ∧ (∀ d, d ≠ c → t.core d = s.core d)
      ∧ { t with cores := s.cores, net := s.net } = s ∧ (k.run.stall = false → t.net = s.net) := by
  refine ⟨_, rfl, ?_, ?_, ?_, ?_⟩
  · simp only [Exec.apply, id_eq, State.core_endHold]
    simp
  · intro d hd
    simp only [Exec.apply, id_eq, State.core_endHold]
    simp [hd]
  · have h := (State.endHold_apart (((s.setCore c k).modCore c Core.issued).modCpu c (fun u => u.advance pc n)) c).1
    simp only [Exec.apply, id_eq]
    have h' := congrArg (fun x : State => { x with cores := s.cores, net := s.net }) h
    exact h'
  · intro hk
    have h := (State.endHold_apart (((s.setCore c k).modCore c Core.issued).modCpu c (fun u => u.advance pc n)) c).2
    simp only [Exec.apply, id_eq]
    rw [h (by simp [Core.issued, hk])]
    rfl

/-- The same for an instruction that transfers control (R72). -/
theorem Exec.jump_core (s : State) (c : CoreId) (k : Core) (n : Nat) (pc p : PAddr) :
    ∃ t, (Exec.jump (s.setCore c k) p).apply s c pc n = t
      ∧ t.core c = { Core.issued k with cpu := { (Core.issued k).cpu with pc := p }, run := { (Core.issued k).run with stall := false } }
      ∧ (∀ d, d ≠ c → t.core d = s.core d)
      ∧ { t with cores := s.cores, net := s.net } = s ∧ (k.run.stall = false → t.net = s.net) := by
  refine ⟨_, rfl, ?_, ?_, ?_, ?_⟩
  · simp only [Exec.apply, State.core_endHold]
    simp
  · intro d hd
    simp only [Exec.apply, State.core_endHold]
    simp [hd]
  · have h := (State.endHold_apart (((s.setCore c k).modCore c Core.issued).modCpu c (fun u => { u with pc := p })) c).1
    simp only [Exec.apply]
    exact congrArg (fun x : State => { x with cores := s.cores, net := s.net }) h
  · intro hk
    have h := (State.endHold_apart (((s.setCore c k).modCore c Core.issued).modCpu c (fun u => { u with pc := p })) c).2
    simp only [Exec.apply]
    rw [h (by simp [Core.issued, hk])]
    rfl

/-- What the pc and the loop counters after an instruction depend on: not on the general registers. -/
theorem Cpu.advance_regs (u : Cpu) (r : Table Word) (sh : Bool) (pc : PAddr) (n : Nat) :
    Cpu.advance { u with regs := r, shadow := sh } pc n = { u.advance pc n with regs := r, shadow := sh } := by
  unfold Cpu.advance
  dsimp only
  repeat' split
  all_goals simp_all

/-- The pc's advance changes the pc and the loop counters alone (R53, R70). -/
theorem Cpu.advance_special (u : Cpu) (pc : PAddr) (n : Nat) :
    { u.advance pc n with regs := u.regs, pc := u.pc, lc0 := u.lc0, lc1 := u.lc1, shadow := u.shadow } = u := by
  unfold Cpu.advance
  dsimp only
  repeat' split
  all_goals rfl

/-- The state an instruction issues in: the shadow of R79 is over. -/
abbrev State.open (s : State) (c : CoreId) : State := s.modCpu c (fun u => { u with shadow := false })

/-- What a completed instruction that writes only its core's scalar state leaves. -/
theorem done_cpu {s : State} {c : CoreId} {ws : List Nat} {uses : List Reg} {eff : State → Exec} {f : Cpu → Cpu}
    (h : Ready s c uses ws.length) (he : eff (s.open c) = .done ((s.open c).modCpu c f)) :
    ∃ t, s.issue c ws uses eff = t
      ∧ t.core c = { Core.issued (s.core c) with
          cpu := (f { (s.core c).cpu with shadow := false }).advance (s.core c).cpu.pc ws.length,
          run := { (Core.issued (s.core c)).run with stall := false } }
      ∧ Apart s t c := by
  rw [State.issue_ready h, he]
  obtain ⟨t, ht, hc, hd, ha, hn⟩ := Exec.done_core (s.open c) c { (s.open c).core c with cpu := f ((s.open c).core c).cpu } ws.length (s.core c).cpu.pc
  have hs : (s.open c).core c = { s.core c with cpu := { (s.core c).cpu with shadow := false } } := by simp
  rw [hs] at hc hn
  refine ⟨t, ht, hc, fun d hne => ?_, ?_, fun hst => ?_⟩
  · rw [hd d hne]; simp [hne]
  · exact congrArg (fun x : State => { x with cores := s.cores }) ha
  · exact hn hst

/-- What a completed jump leaves. -/
theorem jump_cpu {s : State} {c : CoreId} {ws : List Nat} {uses : List Reg} {eff : State → Exec} {f : Cpu → Cpu} {p : PAddr}
    (h : Ready s c uses ws.length) (he : eff (s.open c) = .jump ((s.open c).modCpu c f) p) :
    ∃ t, s.issue c ws uses eff = t
      ∧ t.core c = { Core.issued (s.core c) with
          cpu := { f { (s.core c).cpu with shadow := false } with pc := p },
          run := { (Core.issued (s.core c)).run with stall := false } }
      ∧ Apart s t c := by
  rw [State.issue_ready h, he]
  obtain ⟨t, ht, hc, hd, ha, hn⟩ := Exec.jump_core (s.open c) c { (s.open c).core c with cpu := f ((s.open c).core c).cpu } ws.length (s.core c).cpu.pc p
  have hs : (s.open c).core c = { s.core c with cpu := { (s.core c).cpu with shadow := false } } := by simp
  rw [hs] at hc hn
  refine ⟨t, ht, hc, fun d hne => ?_, ?_, fun hst => ?_⟩
  · rw [hd d hne]; simp [hne]
  · exact congrArg (fun x : State => { x with cores := s.cores }) ha
  · exact hn hst

/-- An instruction reads the registers that its core holds. -/
@[simp] theorem State.reg_open (s : State) (c : CoreId) (g : Reg) : (s.open c).reg c g = s.reg c g := by
  simp [State.reg, Cpu.reg]

/-- An instruction whose whole effect is a register write. -/
theorem wrote_of_done {s : State} {c : CoreId} {ws : List Nat} {uses : List Reg} {eff : State → Exec} {gd : Reg} {v : Word}
    (h : Ready s c uses ws.length) (he : eff (s.open c) = .done ((s.open c).setReg c gd v)) :
    Wrote s (s.issue c ws uses eff) c ws.length gd v := by
  obtain ⟨t, ht, hc, ha⟩ := done_cpu h (f := fun u => u.setReg gd v) he
  rw [ht]
  have hr : (Cpu.setReg { (s.core c).cpu with shadow := false } gd v)
      = { (s.core c).cpu with regs := (Cpu.setReg (s.core c).cpu gd v).regs, shadow := false } := by
    unfold Cpu.setReg; split <;> rfl
  have hadv := Cpu.advance_regs (s.core c).cpu (Cpu.setReg (s.core c).cpu gd v).regs false (s.core c).cpu.pc ws.length
  rw [hr, hadv] at hc
  have hsp := Cpu.advance_special (s.core c).cpu (s.core c).cpu.pc ws.length
  refine ⟨fun g => ?_, ?_, ?_, ?_, ha⟩
  · have : t.reg c g = ((s.core c).cpu.setReg gd v).reg g := by
      simp only [State.reg, hc, Cpu.reg]
    rw [this, Cpu.reg_setReg]
    rfl
  · rw [hc]; exact ⟨rfl, rfl, rfl⟩
  · rw [hc]; exact hsp
  · rw [hc]; exact ⟨rfl, rfl, rfl, rfl, rfl, rfl⟩

/-- A core written back as it is, after it has been written once, changes nothing. -/
theorem State.open_self (s : State) (c : CoreId) : (s.open c).modCpu c id = s.open c := by
  have h : (s.open c).core c = { s.core c with cpu := { (s.core c).cpu with shadow := false } } := by simp
  unfold State.modCpu State.modCore
  rw [h]
  unfold State.setCore
  simp only [id_eq, State.open, State.modCpu, State.modCore, State.setCore, Table.put_put]

/-- An instruction that completes with no effect of its own writes g0 (R52). -/
theorem wrote_of_none {s : State} {c : CoreId} {ws : List Nat} {uses : List Reg} {eff : State → Exec}
    (h : Ready s c uses ws.length) (he : eff (s.open c) = .done (s.open c)) : Wrote s (s.issue c ws uses eff) c ws.length 0 0 := by
  refine wrote_of_done h ?_
  have h0 : (s.open c).setReg c 0 0 = (s.open c).modCpu c id := rfl
  rw [he, h0, State.open_self]

/-- An instruction whose whole effect is a jump. -/
theorem jumped_of_jump {s : State} {c : CoreId} {ws : List Nat} {uses : List Reg} {eff : State → Exec} {p : PAddr}
    (h : Ready s c uses ws.length) (he : eff (s.open c) = .jump (s.open c) p) : Jumped s (s.issue c ws uses eff) c p := by
  have he' : eff (s.open c) = .jump ((s.open c).modCpu c id) p := by rw [State.open_self, he]
  obtain ⟨t, ht, hc, ha⟩ := jump_cpu h he'
  rw [ht]
  refine ⟨?_, ?_, ?_, ha⟩
  · rw [hc]
  · rw [hc]; rfl
  · rw [hc]; exact ⟨rfl, rfl, rfl, rfl, rfl, rfl⟩

end Sys2Proof.Machine
end

