-- ==== Sys2Proof/Laws/Entry.lean ====
section
/-! SUPPORT. What the fabric, an entry and a precise fault come to: lemmas about the shared operations of chapters 4 and 11. -/

namespace Sys2Proof.Machine

/-- A packet that a node makes, field by field. -/
theorem State.mkPkt_eq (s : State) (kind : PKind) (src : NodeId) (sport : BitVec 3) (tid : BitVec 12) (a : FAddr) :
    s.mkPkt kind src sport tid a =
      { kind, src, sport, sdev := s.own, tid, dst := (targetOf (localOf a)).dest.1, dport := (targetOf (localOf a)).dest.2,
        ddev := s.resolveDev (devOf a), addr := mkFAddr (s.resolveDev (devOf a)) (localOf a) } := rfl

theorem devOf_mkFAddr (d : DevId) (a : Nat) : devOf (mkFAddr d a) = d := by
  unfold devOf mkFAddr
  apply BitVec.eq_of_toNat_eq
  have h := d.isLt
  have h2 : a % 2 ^ 46 < 2 ^ 46 := Nat.mod_lt _ (by decide)
  simp only [BitVec.toNat_ofNat, Nat.shiftRight_eq_div_pow]
  rw [Nat.mod_eq_of_lt (by omega), Nat.mod_eq_of_lt (by omega)]
  omega

theorem localOf_mkFAddr (d : DevId) (a : Nat) : localOf (mkFAddr d a) = a % 2 ^ 46 := by
  unfold localOf mkFAddr
  have h := d.isLt
  have h2 : a % 2 ^ 46 < 2 ^ 46 := Nat.mod_lt _ (by decide)
  simp only [BitVec.toNat_ofNat]
  omega

theorem mkFAddr_mod (d : DevId) (a : Nat) : mkFAddr d (a % 2 ^ 46) = mkFAddr d a := by
  unfold mkFAddr; rw [Nat.mod_mod]

theorem State.injectAll_own (s : State) (ps : List Packet) (h : ∀ p ∈ ps, p.ddev = s.own) :
    s.injectAll ps = { s with net := s.net ++ ps } := by
  induction ps generalizing s with
  | nil => simp [State.injectAll]
  | cons p ps ih =>
    simp only [State.injectAll]
    rw [State.inject_own s p (h p (by simp))]
    rw [ih _ (fun q hq => by simpa [State.own] using h q (by simp [hq]))]
    simp

@[simp] theorem Lsu.dropLines_sbuf (l : Lsu) (x : BitVec 50) (n : Nat) : (l.dropLines x n).sbuf = l.sbuf := by
  induction n generalizing l x with
  | zero => rfl
  | succ n ih => simp [Lsu.dropLines, ih, Lsu.dropLine]

theorem Lsu.mem_dropLines {l : Lsu} {x : BitVec 50} {n : Nat} {e : Nat × BitVec 50 × BitVec 512} (h : e ∈ (l.dropLines x n).lines) :
    e ∈ l.lines ∧ ∀ i, i < n → e.2.1 ≠ x + BitVec.ofNat 50 i := by
  induction n generalizing l x with
  | zero => exact ⟨h, fun i hi => absurd hi (Nat.not_lt_zero i)⟩
  | succ n ih =>
    obtain ⟨h1, h2⟩ := ih h
    simp only [Lsu.dropLine, List.mem_filter] at h1
    refine ⟨h1.1, fun i hi => ?_⟩
    rcases i with _ | i
    · simpa using h1.2
    · have := h2 i (by omega)
      rw [BitVec.add_assoc] at this
      have e1 : (1 : BitVec 50) + BitVec.ofNat 50 i = BitVec.ofNat 50 (i + 1) := by
        rw [Nat.add_comm i 1, BitVec.ofNat_add]; rfl
      rwa [e1] at this

theorem savePkts_length (s : State) (c : CoreId) (tid : BitVec 12) (a : Nat) (bs : List Byte) : (savePkts s c tid a bs).length = 4 := by
  unfold savePkts; rw [List.length_map, List.length_range]

/-- One packet of `savePkts`, from the packet that its node makes. -/
theorem mem_savePkts {s : State} {c : CoreId} {tid : BitVec 12} {a : Nat} {bs : List Byte} {i : Nat} {p : Packet} (h : (savePkts s c tid a bs)[i]? = some p) :
    i < 4 ∧ p.kind = .wr ∧ p.ord = true ∧ p.size = 5 ∧ p.ddev = s.own ∧ p.addr = mkFAddr s.own (a + 64 * i)
      ∧ p.data = BitVec.ofNat 4096 (leNat ((bs.drop (64 * i)).take 64)) := by
  have hi : i < 4 := by
    obtain ⟨h, _⟩ := List.getElem?_eq_some_iff.1 h
    rw [savePkts_length] at h
    exact h
  unfold savePkts at h
  rw [List.getElem?_map, List.getElem?_range hi, Option.map_some, Option.some.injEq] at h
  have hk : (s.mkPkt .wr (BitVec.ofNat 11 c.toNat) 0 (tid + BitVec.ofNat 12 i) (mkFAddr s.own (a + 64 * i))).kind = .wr := rfl
  have hd : (s.mkPkt .wr (BitVec.ofNat 11 c.toNat) 0 (tid + BitVec.ofNat 12 i) (mkFAddr s.own (a + 64 * i))).ddev = s.own := by
    rw [State.mkPkt_eq]
    simp only [devOf_mkFAddr, State.resolveDev, ite_self]
  have ha : (s.mkPkt .wr (BitVec.ofNat 11 c.toNat) 0 (tid + BitVec.ofNat 12 i) (mkFAddr s.own (a + 64 * i))).addr = mkFAddr s.own (a + 64 * i) := by
    rw [State.mkPkt_eq]
    simp only [devOf_mkFAddr, localOf_mkFAddr, State.resolveDev, ite_self, mkFAddr_mod]
  generalize s.mkPkt .wr (BitVec.ofNat 11 c.toNat) 0 (tid + BitVec.ofNat 12 i) (mkFAddr s.own (a + 64 * i)) = q at h hk hd ha
  subst h
  exact ⟨hi, hk, rfl, rfl, hd, ha, rfl⟩

theorem savePkts_own (s : State) (c : CoreId) (tid : BitVec 12) (a : Nat) (bs : List Byte) :
    ∀ p ∈ savePkts s c tid a bs, p.ddev = s.own := by
  intro p hp
  obtain ⟨i, h⟩ := List.getElem?_of_mem hp
  exact (mem_savePkts h).2.2.2.2.1

theorem savePkts_writes (s : State) (c : CoreId) (tid : BitVec 12) (a : Nat) (k : Core) (e : Cause) (escr : Nat) :
    SaveWrites s k e escr a (savePkts s c tid a (blockBytes k e escr)) := by
  refine ⟨savePkts_length s c tid a _, fun i p hp => ?_⟩
  obtain ⟨_, h1, h2, _, h4, h5, h6⟩ := mem_savePkts hp
  refine ⟨h1, ?_, h2, h4, h5, h6⟩
  unfold Packet.vc
  rw [h1]

@[simp] theorem Lsu.awaitSaves_sbuf (l : Lsu) (tid : BitVec 12) : (l.awaitSaves tid).sbuf = l.sbuf := rfl
@[simp] theorem Lsu.awaitSaves_lines (l : Lsu) (tid : BitVec 12) : (l.awaitSaves tid).lines = l.lines := rfl

/-- What the write of a block and the jump to a vector come to. -/
theorem State.enterAt_ok (s : State) (c : CoreId) (e : Cause) (escr vec addr : Nat) (frame : Bool) :
    Captured s (s.enterAt c e escr vec addr frame) c (s.core c) e escr addr
      ∧ ((s.enterAt c e escr vec addr frame).core c).cpu = (s.core c).cpu.atVector vec := by
  have key : ∀ (l : Lsu), l.sbuf = (s.core c).lsu.sbuf →
      (∀ e ∈ l.lines, ∀ i, i < 4 → e.2.1 ≠ lineOf (mkFAddr s.own addr) + BitVec.ofNat 50 i) →
      ∀ ps, SaveWrites s (s.core c) e escr addr ps → (∀ p ∈ ps, p.ddev = s.own) → ∀ t,
      t = (s.setCore c ((s.core c).saves vec l (savingOf (s.core c) e escr frame (s.core c).lsu.nextTid))).injectAll ps →
      Captured s t c (s.core c) e escr addr ∧ (t.core c).cpu = (s.core c).cpu.atVector vec := by
    intro l hb hl ps hw ho t ht
    have ho' : ∀ p ∈ ps, p.ddev = (s.setCore c ((s.core c).saves vec l (savingOf (s.core c) e escr frame (s.core c).lsu.nextTid))).own := ho
    rw [State.injectAll_own _ _ ho'] at ht
    have hc : t.core c = (s.core c).saves vec l (savingOf (s.core c) e escr frame (s.core c).lsu.nextTid) := by
      have h := State.core_setCore s c c ((s.core c).saves vec l (savingOf (s.core c) e escr frame (s.core c).lsu.nextTid))
      rw [if_pos rfl] at h
      rw [ht]; exact h
    refine ⟨⟨⟨[], ps, [], ?_, hw, fun _ => ⟨rfl, rfl⟩⟩, ?_, ?_, ?_, ?_, ?_, ?_, ?_, ?_, ?_, ?_, ?_⟩, ?_⟩
    all_goals try rw [hc]
    · rw [ht]; simp
    · exact fun i hi e he => hl e he i hi
    · rfl
    · simp [Core.saves, savingOf, Core.entered]
    · rfl
    · rfl
    · rfl
    · rfl
    · rfl
    · exact hb
    · intro d hd
      have h := State.core_setCore s c d ((s.core c).saves vec l (savingOf (s.core c) e escr frame (s.core c).lsu.nextTid))
      rw [if_neg hd] at h
      rw [ht]; exact h
    · rw [ht]; rfl
    · rfl
  unfold State.enterAt
  refine key _ ?_ ?_ _ (savePkts_writes s c (s.core c).lsu.nextTid addr (s.core c) e escr) (savePkts_own s c _ _ _) _ rfl
  · rw [Lsu.awaitSaves_sbuf, Lsu.dropLines_sbuf]
  · intro e he i hi
    rw [Lsu.awaitSaves_lines] at he
    exact (Lsu.mem_dropLines he).2 i hi

/-- A change of the scalar state alone keeps what an entry left. -/
theorem Captured.modCpu {s t : State} {c : CoreId} {k : Core} {e : Cause} {escr addr : Nat} (h : Captured s t c k e escr addr) (f : Cpu → Cpu) :
    Captured s (t.modCore c (fun k => { k with cpu := f k.cpu })) c k e escr addr := by
  have hc : (t.modCore c (fun k => { k with cpu := f k.cpu })).core c = { t.core c with cpu := f (t.core c).cpu } := by simp
  obtain ⟨h1, h2, h3, h4, h5, h6, h7, h8, h9, h10, h11, h12⟩ := h
  refine ⟨h1, ?_, ?_, ?_, ?_, ?_, ?_, ?_, ?_, ?_, ?_, ?_⟩
  all_goals try rw [hc]
  · exact h2
  · exact h3
  · exact h4
  · exact h5
  · exact h6
  · exact h7
  · exact h8
  · exact h9
  · exact h10
  · intro d hd
    have : (t.modCore c (fun k => { k with cpu := f k.cpu })).core d = t.core d := by simp [hd]
    rw [this]; exact h11 d hd
  · exact h12

/-- Entry through the task-state block (R101). -/
theorem State.enter_ok {s : State} {c : CoreId} (e : Cause) (h : CanEnter s c) : Entered s (s.enter c e) c (s.core c) e := by
  obtain ⟨_, h2, h3, h4, h5⟩ := h
  have h6 : ¬ memTop ≤ (s.core c).cpu.tsAddr.toNat * 1024 := by omega
  unfold State.enter
  simp only [h2, h3, h4, h6, Bool.false_eq_true, false_and, if_false]
  obtain ⟨ha, hb⟩ := State.enterAt_ok s c e 0 e.vec ((s.core c).cpu.tsAddr.toNat * 1024) false
  refine ⟨?_, ha.modCpu (fun u => { u with tsSaved := true })⟩
  simp [hb]

/-- Core `c` of `s'` is core `c` of `s` but for the shadow of R79, the wait that has ended and the send-wait count; a stall request may have been withdrawn; all else is the same. -/
structure Opened (s s' : State) (c : CoreId) : Prop where
  cpu   : { (s'.core c).cpu with shadow := (s.core c).cpu.shadow } = (s.core c).cpu
  lsu   : (s'.core c).lsu = (s.core c).lsu
  mat   : (s'.core c).mat = (s.core c).mat
  pad   : (s'.core c).pad = (s.core c).pad
  vec   : (s'.core c).vec = (s.core c).vec
  run   : { (s'.core c).run with wait := (s.core c).run.wait, held := (s.core c).run.held, stall := (s.core c).run.stall } = (s.core c).run
  calm  : (s.core c).run.stall = false → (s'.core c).run.stall = false
  other : ∀ d, d ≠ c → s'.core d = s.core d
  rest  : { s' with cores := s.cores, net := s.net } = s
  net   : ∃ w, s'.net = s.net ++ w ∧ ((s.core c).run.stall = false → w = [])

theorem Opened.own {s s' : State} {c : CoreId} (h : Opened s s' c) : s'.own = s.own := by
  have h := congrArg State.own h.rest
  exact h

/-- The bytes of a block depend on the scalar registers, the tiles and MORE alone (Table 4.8). -/
theorem blockBytes_congr {k k' : Core} (h : { k'.cpu with shadow := k.cpu.shadow } = k.cpu) (hm : k'.mat = k.mat) (hr : k'.run.more = k.run.more)
    (e : Cause) (escr : Nat) : blockBytes k' e escr = blockBytes k e escr := by
  unfold blockBytes
  rw [hm, hr, ← h]
  rfl

/-- An entry taken from a state that only the issue of the instruction separates from `s`. -/
theorem Captured.of_opened {s s' t : State} {c : CoreId} {e : Cause} {escr addr : Nat} (ho : Opened s s' c)
    (h : Captured s' t c (s'.core c) e escr addr) : Captured s t c (s.core c) e escr addr := by
  obtain ⟨h1, h2, h3, h4, h5, h6, h7, h8, h9, h10, h11, h12⟩ := h
  have hown := ho.own
  have hst : (s'.core c).run.saving = (s.core c).run.saving ∧ (s'.core c).run.pend = (s.core c).run.pend ∧ (s'.core c).run.st = (s.core c).run.st
      ∧ (s'.core c).run.more = (s.core c).run.more := by
    rw [← ho.run]; exact ⟨rfl, rfl, rfl, rfl⟩
  obtain ⟨w, hw, hw0⟩ := ho.net
  refine ⟨?_, ?_, ?_, ?_, h5, ?_, ?_, ?_, ?_, ?_, ?_, ?_⟩
  · obtain ⟨a, ps, b, hn, hs, hz⟩ := h1
    refine ⟨w ++ a, ps, b, ?_, ?_, ?_⟩
    · rw [hn, hw]; simp only [List.append_assoc]
    · obtain ⟨hl, hp⟩ := hs
      refine ⟨hl, fun i p hi => ?_⟩
      obtain ⟨p1, p2, p3, p4, p5, p6⟩ := hp i p hi
      rw [blockBytes_congr ho.cpu ho.mat hst.2.2.2] at p6
      rw [hown] at p4 p5
      exact ⟨p1, p2, p3, p4, p5, p6⟩
    · intro hz'
      obtain ⟨ha, hb⟩ := hz (ho.calm hz')
      exact ⟨by rw [hw0 hz', ha]; rfl, hb⟩
  · rw [← hown]; exact h2
  · rw [h3, ho.mat]
  · rw [h4, hst.1]
  · rw [h6, hst.2.1]
  · rw [h7, hst.2.2.1]
  · rw [h8, ho.pad]
  · rw [h9, ho.vec]
  · rw [h10, ho.lsu]
  · intro d hd; rw [h11 d hd, ho.other d hd]
  · have h := congrArg (fun x : State => { x with cores := s.cores, net := s.net }) h12
    exact h.trans ho.rest

theorem Entered.of_opened {s s' t : State} {c : CoreId} {e : Cause} (ho : Opened s s' c) (h : Entered s' t c (s'.core c) e) :
    Entered s t c (s.core c) e := by
  obtain ⟨h1, h2⟩ := h
  have h3 : (s'.core c).cpu.tsAddr = (s.core c).cpu.tsAddr := by rw [← ho.cpu]
  rw [h3] at h2
  refine ⟨?_, h2.of_opened ho⟩
  rw [h1, ← ho.cpu]
  rfl

theorem Opened.issued (s : State) (c : CoreId) : Opened s ((s.open c).modCore c Core.issued) c := by
  have hc : ((s.open c).modCore c Core.issued).core c = Core.issued { s.core c with cpu := { (s.core c).cpu with shadow := false } } := by simp
  have hd : ∀ d, d ≠ c → ((s.open c).modCore c Core.issued).core d = s.core d := by intro d hd; simp [hd]
  refine ⟨?_, ?_, ?_, ?_, ?_, ?_, ?_, hd, rfl, [], by simp, fun _ => rfl⟩
  all_goals rw [hc]
  all_goals first | rfl | exact fun h => h

theorem Opened.endHold {s s' : State} {c : CoreId} (h : Opened s s' c) : Opened s (s'.endHold c) c := by
  obtain ⟨h1, h2, h3, h4, h5, h6, h7, h8, h9, w, h10, h11⟩ := h
  have hc := State.core_endHold s' c c
  rw [if_pos rfl] at hc
  have hd : ∀ d, d ≠ c → (s'.endHold c).core d = s'.core d := by
    intro d hd; rw [State.core_endHold, if_neg hd]
  have hr := State.endHold_apart s' c
  refine ⟨?_, ?_, ?_, ?_, ?_, ?_, ?_, ?_, ?_, ?_⟩
  · rw [hc]; exact h1
  · rw [hc]; exact h2
  · rw [hc]; exact h3
  · rw [hc]; exact h4
  · rw [hc]; exact h5
  · rw [hc]; exact h6
  · rw [hc]; exact fun _ => rfl
  · intro d hne; rw [hd d hne]; exact h8 d hne
  · have h := congrArg (fun x : State => { x with cores := s.cores, net := s.net }) hr.1
    exact h.trans h9
  · rw [State.endHold_eq]
    by_cases hs : (s'.core c).run.stall = true
    · rw [if_pos hs]
      refine ⟨w ++ [holdEnd s' c], ?_, fun h0 => ?_⟩
      · have : ({ s'.setCore c { s'.core c with run := { (s'.core c).run with stall := false } } with net := s'.net ++ [holdEnd s' c] } : State).net = s'.net ++ [holdEnd s' c] := rfl
        rw [this, h10, List.append_assoc]
      · rw [h7 h0] at hs; cases hs
    · rw [if_neg hs]
      exact ⟨w, h10, h11⟩

theorem CanEnter.of_opened {s s' : State} {c : CoreId} (ho : Opened s s' c) (h : CanEnter s c) : CanEnter s' c := by
  obtain ⟨h1, h2, h3, h4, h5⟩ := h
  have hc := ho.cpu
  refine ⟨?_, ?_, ?_, ?_, ?_⟩
  · rw [ho.lsu]; exact h1
  · rw [← hc] at h2; exact h2
  · rw [← hc] at h3; exact h3
  · rw [← hc] at h4; exact h4
  · rw [← hc] at h5; exact h5

/-- A chosen event is entered at once where no register result is awaited and no device-wide stall is in force (R101). -/
theorem State.take_enters {s : State} {c : CoreId} (e : Cause) (hb : (s.core c).lsu.busy = []) (hf : s.beat.frz = false) :
    s.take c e = (s.endHold c).enter c e := by
  have h1 : ((s.endHold c).core c).lsu = (s.core c).lsu := by rw [State.core_endHold, if_pos rfl]
  have h2 : (s.endHold c).beat = s.beat := by have h := congrArg State.beat (State.endHold_apart s c).1; exact h
  unfold State.take
  dsimp only
  rw [h1, h2, hb, hf]
  rfl

/-- It is kept where one is awaited, and nothing but its core's run control changes, with the stall request withdrawn. -/
theorem State.take_waits {s : State} {c : CoreId} (e : Cause) (hb : (s.core c).lsu.busy ≠ [] ∨ s.beat.frz = true) :
    s.take c e = (s.endHold c).modCore c (fun k => { k with run := { k.run with hold := .trap e, wait := .load [], held := 0 } }) := by
  have h1 : ((s.endHold c).core c).lsu = (s.core c).lsu := by rw [State.core_endHold, if_pos rfl]
  have h2 : (s.endHold c).beat = s.beat := by have h := congrArg State.beat (State.endHold_apart s c).1; exact h
  unfold State.take
  dsimp only
  rw [h1, h2, if_neg]
  rintro ⟨h3, h4⟩
  rcases hb with hb | hb
  · exact hb (List.isEmpty_iff.1 h3)
  · rw [h4] at hb; cases hb

/-- An event of an instruction that has had no effect but its issue (R89, R101). -/
theorem State.issued_take {s : State} {c : CoreId} {uses : List Reg} {n : Nat} (h : Ready s c uses n) (hc : CanEnter s c) (e : Cause) :
    Entered s (((s.open c).modCore c Core.issued).take c e) c (s.core c) e := by
  have hf : ((s.open c).modCore c Core.issued).beat.frz = false := by
    have h1 := h.can
    unfold State.canIssue at h1
    simp only [Bool.and_eq_true, Bool.not_eq_true'] at h1
    exact h1.1.1.1.2
  have hb : (((s.open c).modCore c Core.issued).core c).lsu.busy = [] := by
    rw [(Opened.issued s c).lsu]; exact hc.loads
  rw [State.take_enters e hb hf]
  have ho := (Opened.issued s c).endHold
  exact (State.enter_ok _ (hc.of_opened ho)).of_opened ho

/-- A precise fault of an instruction that has had no effect (R89). -/
theorem entered_of_trip {s : State} {c : CoreId} {ws : List Nat} {uses : List Reg} {eff : State → Exec} {f : Trip}
    (h : Ready s c uses ws.length) (hc : CanEnter s c) (he : eff (s.open c) = .trip (s.open c) f) :
    Entered s (s.issue c ws uses eff) c (s.core c)
      { kind := 0, vec := f.vec, sub := f.sub, pc := (s.core c).cpu.pc, info := f.info, faddr := f.faddr, fpc := (s.core c).cpu.pc, row := f.row, tile := f.tile } := by
  rw [State.issue_ready h, he]
  exact State.issued_take h hc _

/-- A trap (R101). -/
theorem entered_of_event {s : State} {c : CoreId} {ws : List Nat} {uses : List Reg} {eff : State → Exec} {e : Cause}
    (h : Ready s c uses ws.length) (hc : CanEnter s c) (he : eff (s.open c) = .event (s.open c) e) :
    Entered s (s.issue c ws uses eff) c (s.core c) e := by
  rw [State.issue_ready h, he]
  exact State.issued_take h hc e

end Sys2Proof.Machine
end

