-- ==== Sys2Proof/Laws/Exec.lean ====
section
/-! SUPPORT. What each command's arm of `exec` is, so that no proof unfolds the dispatch. -/

namespace Sys2Proof.Machine

@[simp] theorem exec_nop (c : CoreId) (s : State) : exec (.nop c) s = execNop c s := rfl
@[simp] theorem exec_ret (c : CoreId) (s : State) : exec (.ret c) s = execRet c s := rfl
@[simp] theorem exec_reti (c : CoreId) (s : State) : exec (.reti c) s = execReti c s := rfl
@[simp] theorem exec_fence (c : CoreId) (m : BitVec 4) (s : State) : exec (.fence c m) s = execFence c m s := rfl
@[simp] theorem exec_trap (c : CoreId) (n : BitVec 4) (s : State) : exec (.trap c n) s = execTrap c n s := rfl
@[simp] theorem exec_bwait (c : CoreId) (gs : Reg) (s : State) : exec (.bwait c gs) s = execBwait c gs s := rfl
@[simp] theorem exec_halt (c : CoreId) (s : State) : exec (.halt c) s = execHalt c s := rfl
@[simp] theorem exec_mov (c : CoreId) (gd gs : Reg) (s : State) : exec (.mov c gd gs) s = execMov c gd gs s := rfl
@[simp] theorem exec_add (c : CoreId) (gd gs : Reg) (s : State) : exec (.add c gd gs) s = execAdd c gd gs s := rfl
@[simp] theorem exec_sub (c : CoreId) (gd gs : Reg) (s : State) : exec (.sub c gd gs) s = execSub c gd gs s := rfl
@[simp] theorem exec_and (c : CoreId) (gd gs : Reg) (s : State) : exec (.and c gd gs) s = execAnd c gd gs s := rfl
@[simp] theorem exec_or (c : CoreId) (gd gs : Reg) (s : State) : exec (.or c gd gs) s = execOr c gd gs s := rfl
@[simp] theorem exec_xor (c : CoreId) (gd gs : Reg) (s : State) : exec (.xor c gd gs) s = execXor c gd gs s := rfl
@[simp] theorem exec_shl (c : CoreId) (gd gs : Reg) (s : State) : exec (.shl c gd gs) s = execShl c gd gs s := rfl
@[simp] theorem exec_shr (c : CoreId) (gd gs : Reg) (s : State) : exec (.shr c gd gs) s = execShr c gd gs s := rfl
@[simp] theorem exec_sar (c : CoreId) (gd gs : Reg) (s : State) : exec (.sar c gd gs) s = execSar c gd gs s := rfl
@[simp] theorem exec_ror (c : CoreId) (gd gs : Reg) (s : State) : exec (.ror c gd gs) s = execRor c gd gs s := rfl
@[simp] theorem exec_mul (c : CoreId) (gd gs : Reg) (s : State) : exec (.mul c gd gs) s = execMul c gd gs s := rfl
@[simp] theorem exec_mulhu (c : CoreId) (gd gs : Reg) (s : State) : exec (.mulhu c gd gs) s = execMulhu c gd gs s := rfl
@[simp] theorem exec_mulhs (c : CoreId) (gd gs : Reg) (s : State) : exec (.mulhs c gd gs) s = execMulhs c gd gs s := rfl
@[simp] theorem exec_not (c : CoreId) (gd gs : Reg) (s : State) : exec (.not c gd gs) s = execNot c gd gs s := rfl
@[simp] theorem exec_neg (c : CoreId) (gd gs : Reg) (s : State) : exec (.neg c gd gs) s = execNeg c gd gs s := rfl
@[simp] theorem exec_clz (c : CoreId) (gd gs : Reg) (s : State) : exec (.clz c gd gs) s = execClz c gd gs s := rfl
@[simp] theorem exec_popc (c : CoreId) (gd gs : Reg) (s : State) : exec (.popc c gd gs) s = execPopc c gd gs s := rfl
@[simp] theorem exec_seq (c : CoreId) (gd gs : Reg) (s : State) : exec (.seq c gd gs) s = execSeq c gd gs s := rfl
@[simp] theorem exec_sne (c : CoreId) (gd gs : Reg) (s : State) : exec (.sne c gd gs) s = execSne c gd gs s := rfl
@[simp] theorem exec_slt (c : CoreId) (gd gs : Reg) (s : State) : exec (.slt c gd gs) s = execSlt c gd gs s := rfl
@[simp] theorem exec_sltu (c : CoreId) (gd gs : Reg) (s : State) : exec (.sltu c gd gs) s = execSltu c gd gs s := rfl
@[simp] theorem exec_sge (c : CoreId) (gd gs : Reg) (s : State) : exec (.sge c gd gs) s = execSge c gd gs s := rfl
@[simp] theorem exec_sgeu (c : CoreId) (gd gs : Reg) (s : State) : exec (.sgeu c gd gs) s = execSgeu c gd gs s := rfl
@[simp] theorem exec_min (c : CoreId) (gd gs : Reg) (s : State) : exec (.min c gd gs) s = execMin c gd gs s := rfl
@[simp] theorem exec_max (c : CoreId) (gd gs : Reg) (s : State) : exec (.max c gd gs) s = execMax c gd gs s := rfl
@[simp] theorem exec_minu (c : CoreId) (gd gs : Reg) (s : State) : exec (.minu c gd gs) s = execMinu c gd gs s := rfl
@[simp] theorem exec_maxu (c : CoreId) (gd gs : Reg) (s : State) : exec (.maxu c gd gs) s = execMaxu c gd gs s := rfl
@[simp] theorem exec_sxb (c : CoreId) (gd gs : Reg) (s : State) : exec (.sxb c gd gs) s = execSxb c gd gs s := rfl
@[simp] theorem exec_sxh (c : CoreId) (gd gs : Reg) (s : State) : exec (.sxh c gd gs) s = execSxh c gd gs s := rfl
@[simp] theorem exec_zxb (c : CoreId) (gd gs : Reg) (s : State) : exec (.zxb c gd gs) s = execZxb c gd gs s := rfl
@[simp] theorem exec_zxh (c : CoreId) (gd gs : Reg) (s : State) : exec (.zxh c gd gs) s = execZxh c gd gs s := rfl
@[simp] theorem exec_jr (c : CoreId) (gs : Reg) (s : State) : exec (.jr c gs) s = execJr c gs s := rfl
@[simp] theorem exec_callr (c : CoreId) (gs : Reg) (s : State) : exec (.callr c gs) s = execCallr c gs s := rfl
@[simp] theorem exec_rdcr (c : CoreId) (gd : Reg) (k : BitVec 4) (s : State) : exec (.rdcr c gd k) s = execRdcr c gd k s := rfl
@[simp] theorem exec_wrcr (c : CoreId) (k : BitVec 4) (gs : Reg) (s : State) : exec (.wrcr c k gs) s = execWrcr c k gs s := rfl
@[simp] theorem exec_movi (c : CoreId) (gd : Reg) (imm : BitVec 14) (s : State) : exec (.movi c gd imm) s = execMovi c gd imm s := rfl
@[simp] theorem exec_addi (c : CoreId) (gd : Reg) (imm : BitVec 14) (s : State) : exec (.addi c gd imm) s = execAddi c gd imm s := rfl
@[simp] theorem exec_andi (c : CoreId) (gd : Reg) (imm : BitVec 14) (s : State) : exec (.andi c gd imm) s = execAndi c gd imm s := rfl
@[simp] theorem exec_ori (c : CoreId) (gd : Reg) (imm : BitVec 14) (s : State) : exec (.ori c gd imm) s = execOri c gd imm s := rfl
@[simp] theorem exec_xori (c : CoreId) (gd : Reg) (imm : BitVec 14) (s : State) : exec (.xori c gd imm) s = execXori c gd imm s := rfl
@[simp] theorem exec_seqi (c : CoreId) (gd : Reg) (imm : BitVec 14) (s : State) : exec (.seqi c gd imm) s = execSeqi c gd imm s := rfl
@[simp] theorem exec_slti (c : CoreId) (gd : Reg) (imm : BitVec 14) (s : State) : exec (.slti c gd imm) s = execSlti c gd imm s := rfl
@[simp] theorem exec_sltui (c : CoreId) (gd : Reg) (imm : BitVec 14) (s : State) : exec (.sltui c gd imm) s = execSltui c gd imm s := rfl
@[simp] theorem exec_shli (c : CoreId) (gd : Reg) (sh : BitVec 5) (s : State) : exec (.shli c gd sh) s = execShli c gd sh s := rfl
@[simp] theorem exec_shri (c : CoreId) (gd : Reg) (sh : BitVec 5) (s : State) : exec (.shri c gd sh) s = execShri c gd sh s := rfl
@[simp] theorem exec_sari (c : CoreId) (gd : Reg) (sh : BitVec 5) (s : State) : exec (.sari c gd sh) s = execSari c gd sh s := rfl
@[simp] theorem exec_rori (c : CoreId) (gd : Reg) (sh : BitVec 5) (s : State) : exec (.rori c gd sh) s = execRori c gd sh s := rfl
@[simp] theorem exec_muli (c : CoreId) (gd : Reg) (imm : BitVec 14) (s : State) : exec (.muli c gd imm) s = execMuli c gd imm s := rfl
@[simp] theorem exec_movhi (c : CoreId) (gd : Reg) (imm : BitVec 18) (s : State) : exec (.movhi c gd imm) s = execMovhi c gd imm s := rfl
@[simp] theorem exec_bfxu (c : CoreId) (gd gs : Reg) (lm1 p : BitVec 5) (s : State) : exec (.bfxu c gd gs lm1 p) s = execBfxu c gd gs lm1 p s := rfl
@[simp] theorem exec_bfxs (c : CoreId) (gd gs : Reg) (lm1 p : BitVec 5) (s : State) : exec (.bfxs c gd gs lm1 p) s = execBfxs c gd gs lm1 p s := rfl
@[simp] theorem exec_bfi (c : CoreId) (gd gs : Reg) (lm1 p : BitVec 5) (s : State) : exec (.bfi c gd gs lm1 p) s = execBfi c gd gs lm1 p s := rfl
@[simp] theorem exec_bperm (c : CoreId) (gd gs gc : Reg) (s : State) : exec (.bperm c gd gs gc) s = execBperm c gd gs gc s := rfl
@[simp] theorem exec_bz (c : CoreId) (gs : Reg) (target : PAddr) (s : State) : exec (.bz c gs target) s = execBz c gs target s := rfl
@[simp] theorem exec_bnz (c : CoreId) (gs : Reg) (target : PAddr) (s : State) : exec (.bnz c gs target) s = execBnz c gs target s := rfl
@[simp] theorem exec_br (c : CoreId) (target : PAddr) (s : State) : exec (.br c target) s = execBr c target s := rfl
@[simp] theorem exec_call (c : CoreId) (target : PAddr) (s : State) : exec (.call c target) s = execCall c target s := rfl
@[simp] theorem exec_loop (c : CoreId) (n : Bool) (m : Bool) (cnt : BitVec 6) (last : PAddr) (s : State) : exec (.loop c n m cnt last) s = execLoop c n m cnt last s := rfl
@[simp] theorem exec_ldB (c : CoreId) (g gi : Reg) (sd : SdId) (d : BitVec 7) (par : Bool) (s : State) : exec (.ldB c g gi sd d par) s = execLdB c g gi sd d par s := rfl
@[simp] theorem exec_ldBS (c : CoreId) (g gi : Reg) (sd : SdId) (d : BitVec 7) (par : Bool) (s : State) : exec (.ldBS c g gi sd d par) s = execLdBS c g gi sd d par s := rfl
@[simp] theorem exec_ldH (c : CoreId) (g gi : Reg) (sd : SdId) (d : BitVec 7) (par : Bool) (s : State) : exec (.ldH c g gi sd d par) s = execLdH c g gi sd d par s := rfl
@[simp] theorem exec_ldHS (c : CoreId) (g gi : Reg) (sd : SdId) (d : BitVec 7) (par : Bool) (s : State) : exec (.ldHS c g gi sd d par) s = execLdHS c g gi sd d par s := rfl
@[simp] theorem exec_ldW (c : CoreId) (g gi : Reg) (sd : SdId) (d : BitVec 7) (par : Bool) (s : State) : exec (.ldW c g gi sd d par) s = execLdW c g gi sd d par s := rfl
@[simp] theorem exec_stB (c : CoreId) (g gi : Reg) (sd : SdId) (d : BitVec 7) (s : State) : exec (.stB c g gi sd d) s = execStB c g gi sd d s := rfl
@[simp] theorem exec_stH (c : CoreId) (g gi : Reg) (sd : SdId) (d : BitVec 7) (s : State) : exec (.stH c g gi sd d) s = execStH c g gi sd d s := rfl
@[simp] theorem exec_stW (c : CoreId) (g gi : Reg) (sd : SdId) (d : BitVec 7) (s : State) : exec (.stW c g gi sd d) s = execStW c g gi sd d s := rfl
@[simp] theorem exec_storeBufferSend (c : CoreId) (s : State) : exec (.storeBufferSend c) s = execStoreBufferSend c s := rfl
@[simp] theorem exec_sdset (c : CoreId) (sd : SdId) (g : Reg) (s : State) : exec (.sdset c sd g) s = execSdset c sd g s := rfl
@[simp] theorem exec_sdget (c : CoreId) (g : Reg) (sd : SdId) (s : State) : exec (.sdget c g sd) s = execSdget c g sd s := rfl
@[simp] theorem exec_responseFaultEntry (c : CoreId) (s : State) : exec (.responseFaultEntry c) s = execResponseFaultEntry c s := rfl
@[simp] theorem exec_interruptEntry (c : CoreId) (s : State) : exec (.interruptEntry c) s = execInterruptEntry c s := rfl
@[simp] theorem exec_saveWriteAck (k : Nat) (s : State) : exec (.saveWriteAck k) s = execSaveWriteAck k s := rfl
@[simp] theorem exec_quietOpen (c : CoreId) (gs : Reg) (s : State) : exec (.quietOpen c gs) s = execQuietOpen c gs s := rfl
@[simp] theorem exec_quietClose (c : CoreId) (gs : Reg) (s : State) : exec (.quietClose c gs) s = execQuietClose c gs s := rfl
@[simp] theorem exec_quietExpiry (c : CoreId) (s : State) : exec (.quietExpiry c) s = execQuietExpiry c s := rfl
@[simp] theorem exec_mm (c : CoreId) (tile : TileId) (gl gs : Reg) (clr : Bool) (s : State) : exec (.mm c tile gl gs clr) s = execMm c tile gl gs clr s := rfl
@[simp] theorem exec_mmPassRequest (c : CoreId) (eng : Engine) (s : State) : exec (.mmPassRequest c eng) s = execMmPassRequest c eng s := rfl
@[simp] theorem exec_passBegin (c : CoreId) (eng : Engine) (ecc : Ecc) (s : State) : exec (.passBegin c eng ecc) s = execPassBegin c eng ecc s := rfl
@[simp] theorem exec_passSumsWritten (c : CoreId) (eng : Engine) (s : State) : exec (.passSumsWritten c eng) s = execPassSumsWritten c eng s := rfl
@[simp] theorem exec_mdrain (c : CoreId) (tile : TileId) (gs : Reg) (cd : CdId) (rel : Bool) (s : State) : exec (.mdrain c tile gs cd rel) s = execMdrain c tile gs cd rel s := rfl
@[simp] theorem exec_mld (c : CoreId) (tile : TileId) (sd : SdId) (gi : Reg) (d : BitVec 5) (s : State) : exec (.mld c tile sd gi d) s = execMld c tile sd gi d s := rfl
@[simp] theorem exec_mst (c : CoreId) (tile : TileId) (sd : SdId) (gi : Reg) (d : BitVec 5) (rel : Bool) (s : State) : exec (.mst c tile sd gi d rel) s = execMst c tile sd gi d rel s := rfl
@[simp] theorem exec_mrel (c : CoreId) (tile : TileId) (s : State) : exec (.mrel c tile) s = execMrel c tile s := rfl
@[simp] theorem exec_vadd (c : CoreId) (ty : BitVec 2) (vd va vb : VReg) (s : State) : exec (.vadd c ty vd va vb) s = execVadd c ty vd va vb s := rfl
@[simp] theorem exec_vsub (c : CoreId) (ty : BitVec 2) (vd va vb : VReg) (s : State) : exec (.vsub c ty vd va vb) s = execVsub c ty vd va vb s := rfl
@[simp] theorem exec_vmul (c : CoreId) (ty : BitVec 2) (vd va vb : VReg) (s : State) : exec (.vmul c ty vd va vb) s = execVmul c ty vd va vb s := rfl
@[simp] theorem exec_vfma (c : CoreId) (ty : BitVec 2) (vd va vb : VReg) (s : State) : exec (.vfma c ty vd va vb) s = execVfma c ty vd va vb s := rfl
@[simp] theorem exec_vmax (c : CoreId) (ty : BitVec 2) (vd va vb : VReg) (s : State) : exec (.vmax c ty vd va vb) s = execVmax c ty vd va vb s := rfl
@[simp] theorem exec_vmin (c : CoreId) (ty : BitVec 2) (vd va vb : VReg) (s : State) : exec (.vmin c ty vd va vb) s = execVmin c ty vd va vb s := rfl
@[simp] theorem exec_vand (c : CoreId) (ty : BitVec 2) (vd va vb : VReg) (s : State) : exec (.vand c ty vd va vb) s = execVand c ty vd va vb s := rfl
@[simp] theorem exec_vor (c : CoreId) (ty : BitVec 2) (vd va vb : VReg) (s : State) : exec (.vor c ty vd va vb) s = execVor c ty vd va vb s := rfl
@[simp] theorem exec_vxor (c : CoreId) (ty : BitVec 2) (vd va vb : VReg) (s : State) : exec (.vxor c ty vd va vb) s = execVxor c ty vd va vb s := rfl
@[simp] theorem exec_vdiv (c : CoreId) (ty : BitVec 2) (vd va vb : VReg) (s : State) : exec (.vdiv c ty vd va vb) s = execVdiv c ty vd va vb s := rfl
@[simp] theorem exec_vfn (c : CoreId) (ty : BitVec 2) (vd va : VReg) (t : BitVec 3) (s : State) : exec (.vfn c ty vd va t) s = execVfn c ty vd va t s := rfl
@[simp] theorem exec_vredsum (c : CoreId) (ty : BitVec 2) (vd va : VReg) (s : State) : exec (.vredsum c ty vd va) s = execVredsum c ty vd va s := rfl
@[simp] theorem exec_vredmax (c : CoreId) (ty : BitVec 2) (vd va : VReg) (s : State) : exec (.vredmax c ty vd va) s = execVredmax c ty vd va s := rfl
@[simp] theorem exec_vclt (c : CoreId) (ty : BitVec 2) (vd va vb : VReg) (s : State) : exec (.vclt c ty vd va vb) s = execVclt c ty vd va vb s := rfl
@[simp] theorem exec_vceq (c : CoreId) (ty : BitVec 2) (vd va vb : VReg) (s : State) : exec (.vceq c ty vd va vb) s = execVceq c ty vd va vb s := rfl
@[simp] theorem exec_vsel (c : CoreId) (ty : BitVec 2) (vd va vb : VReg) (s : State) : exec (.vsel c ty vd va vb) s = execVsel c ty vd va vb s := rfl
@[simp] theorem exec_vld (c : CoreId) (v : VReg) (sd : SdId) (gi : Reg) (cd : CdId) (gw : Reg) (ecc : Ecc) (s : State) : exec (.vld c v sd gi cd gw ecc) s = execVld c v sd gi cd gw ecc s := rfl
@[simp] theorem exec_vst (c : CoreId) (v : VReg) (sd : SdId) (gi : Reg) (cd : CdId) (gw : Reg) (s : State) : exec (.vst c v sd gi cd gw) s = execVst c v sd gi cd gw s := rfl
@[simp] theorem exec_vmvt (c : CoreId) (v : VReg) (tile : TileId) (seg : BitVec 6) (nm1 : BitVec 5) (s : State) : exec (.vmvt c v tile seg nm1) s = execVmvt c v tile seg nm1 s := rfl
@[simp] theorem exec_vmvf (c : CoreId) (tile : TileId) (seg : BitVec 6) (v : VReg) (nm1 : BitVec 5) (s : State) : exec (.vmvf c tile seg v nm1) s = execVmvf c tile seg v nm1 s := rfl
@[simp] theorem exec_vbcast (c : CoreId) (v : VReg) (gs : Reg) (ty : BitVec 2) (s : State) : exec (.vbcast c v gs ty) s = execVbcast c v gs ty s := rfl
@[simp] theorem exec_vext (c : CoreId) (gd : Reg) (v : VReg) (l : BitVec 6) (ty : BitVec 2) (s : State) : exec (.vext c gd v l ty) s = execVext c gd v l ty s := rfl
@[simp] theorem exec_vfirst (c : CoreId) (gd : Reg) (v : VReg) (ty : BitVec 2) (s : State) : exec (.vfirst c gd v ty) s = execVfirst c gd v ty s := rfl
@[simp] theorem exec_dcInvLines (c : CoreId) (v : DWord) (s : State) : exec (.dcInvLines c v) s = execDcInvLines c v s := rfl
@[simp] theorem exec_dcInvAll (c : CoreId) (s : State) : exec (.dcInvAll c) s = execDcInvAll c s := rfl
@[simp] theorem exec_dcCtlWrite (c : CoreId) (v : Word) (s : State) : exec (.dcCtlWrite c v) s = execDcCtlWrite c v s := rfl
@[simp] theorem exec_qsend (c : CoreId) (e : BitVec 5) (gs gl : Reg) (lm1 : BitVec 3) (ord : Bool) (s : State) : exec (.qsend c e gs gl lm1 ord) s = execQsend c e gs gl lm1 ord s := rfl
@[simp] theorem exec_qcmb (c : CoreId) (e : BitVec 5) (gs gi : Reg) (rf : BitVec 2) (red ord : Bool) (s : State) : exec (.qcmb c e gs gi rf red ord) s = execQcmb c e gs gi rf red ord s := rfl
@[simp] theorem exec_qstat (c : CoreId) (gd : Reg) (r : BitVec 4) (s : State) : exec (.qstat c gd r) s = execQstat c gd r s := rfl
@[simp] theorem exec_qpop (c : CoreId) (gd : Reg) (r : BitVec 4) (s : State) : exec (.qpop c gd r) s = execQpop c gd r s := rfl
@[simp] theorem exec_qcred (c : CoreId) (gd : Reg) (e : BitVec 5) (s : State) : exec (.qcred c gd e) s = execQcred c gd e s := rfl
@[simp] theorem exec_qarm (c : CoreId) (q : BitVec 3) (gs : Reg) (s : State) : exec (.qarm c q gs) s = execQarm c q gs s := rfl
@[simp] theorem exec_sendStallEvent (c : CoreId) (s : State) : exec (.sendStallEvent c) s = execSendStallEvent c s := rfl
@[simp] theorem exec_sadd (c : CoreId) (gn gv : Reg) (imm : BitVec 9) (h ord : Bool) (s : State) : exec (.sadd c gn gv imm h ord) s = execSadd c gn gv imm h ord s := rfl
@[simp] theorem exec_ssub (c : CoreId) (gn gv : Reg) (imm : BitVec 9) (h ord : Bool) (s : State) : exec (.ssub c gn gv imm h ord) s = execSsub c gn gv imm h ord s := rfl
@[simp] theorem exec_swait (c : CoreId) (gn gv : Reg) (d : Bool) (s : State) : exec (.swait c gn gv d) s = execSwait c gn gv d s := rfl
@[simp] theorem exec_swatch (c : CoreId) (gn gv : Reg) (h ord : Bool) (s : State) : exec (.swatch c gn gv h ord) s = execSwatch c gn gv h ord s := rfl
@[simp] theorem exec_swaitCancel (c : CoreId) (s : State) : exec (.swaitCancel c) s = execSwaitCancel c s := rfl
@[simp] theorem exec_dstart (c : CoreId) (gd : Reg) (ch : ChanId) (gp : Reg) (s : State) : exec (.dstart c gd ch gp) s = execDstart c gd ch gp s := rfl
@[simp] theorem exec_dstat (c : CoreId) (gd : Reg) (ch : ChanId) (s : State) : exec (.dstat c gd ch) s = execDstat c gd ch s := rfl
@[simp] theorem exec_dabort (c : CoreId) (gd : Reg) (ch : ChanId) (s : State) : exec (.dabort c gd ch) s = execDabort c gd ch s := rfl
@[simp] theorem exec_readRequest (k : Nat) (flt : Bool) (ecc : Ecc) (s : State) : exec (.readRequest k flt ecc) s = execReadRequest k flt ecc s := rfl
@[simp] theorem exec_writeRequest (k : Nat) (flt : Bool) (ecc : Ecc) (s : State) : exec (.writeRequest k flt ecc) s = execWriteRequest k flt ecc s := rfl
@[simp] theorem exec_readResponse (k : Nat) (flt : Bool) (s : State) : exec (.readResponse k flt) s = execReadResponse k flt s := rfl
@[simp] theorem exec_writeAcknowledgement (k : Nat) (flt : Bool) (s : State) : exec (.writeAcknowledgement k flt) s = execWriteAcknowledgement k flt s := rfl
@[simp] theorem exec_errorReply (k : Nat) (flt : Bool) (s : State) : exec (.errorReply k flt) s = execErrorReply k flt s := rfl
@[simp] theorem exec_messageRow (k : Nat) (flt : Bool) (s : State) : exec (.messageRow k flt) s = execMessageRow k flt s := rfl
@[simp] theorem exec_row0Allocate (c : CoreId) (s : State) : exec (.row0Allocate c) s = execRow0Allocate c s := rfl
@[simp] theorem exec_combiningContribution (k : Nat) (flt : Bool) (ecc : Ecc) (s : State) : exec (.combiningContribution k flt ecc) s = execCombiningContribution k flt ecc s := rfl
@[simp] theorem exec_reduceMerge (a b : Nat) (s : State) : exec (.reduceMerge a b) s = execReduceMerge a b s := rfl
@[simp] theorem exec_antiStarvationGrant (k : Nat) (s : State) : exec (.antiStarvationGrant k) s = execAntiStarvationGrant k s := rfl
@[simp] theorem exec_creditReturn (k : Nat) (flt : Bool) (s : State) : exec (.creditReturn k flt) s = execCreditReturn k flt s := rfl
@[simp] theorem exec_semaphoreAdd (k : Nat) (flt : Bool) (s : State) : exec (.semaphoreAdd k flt) s = execSemaphoreAdd k flt s := rfl
@[simp] theorem exec_semaphoreSubtract (k : Nat) (flt : Bool) (s : State) : exec (.semaphoreSubtract k flt) s = execSemaphoreSubtract k flt s := rfl
@[simp] theorem exec_semaphoreWait (k : Nat) (flt : Bool) (s : State) : exec (.semaphoreWait k flt) s = execSemaphoreWait k flt s := rfl
@[simp] theorem exec_semaphoreWaitSubtract (k : Nat) (flt : Bool) (s : State) : exec (.semaphoreWaitSubtract k flt) s = execSemaphoreWaitSubtract k flt s := rfl
@[simp] theorem exec_armWatch (k : Nat) (flt : Bool) (s : State) : exec (.armWatch k flt) s = execArmWatch k flt s := rfl
@[simp] theorem exec_cancelWait (k : Nat) (flt : Bool) (s : State) : exec (.cancelWait k flt) s = execCancelWait k flt s := rfl
@[simp] theorem exec_semaphoreResponse (k : Nat) (flt : Bool) (s : State) : exec (.semaphoreResponse k flt) s = execSemaphoreResponse k flt s := rfl
@[simp] theorem exec_managementRequest (c : CoreId) (s : State) : exec (.managementRequest c) s = execManagementRequest c s := rfl
@[simp] theorem exec_watchEntryWrite (cl : ClusterId) (w : BitVec 6) (j : BitVec 2) (v : DWord) (s : State) : exec (.watchEntryWrite cl w j v) s = execWatchEntryWrite cl w j v s := rfl
@[simp] theorem exec_tbinv (cl : ClusterId) (v : Word) (s : State) : exec (.tbinv cl v) s = execTbinv cl v s := rfl
@[simp] theorem exec_translationMissFill (cl : ClusterId) (s : State) : exec (.translationMissFill cl) s = execTranslationMissFill cl s := rfl
@[simp] theorem exec_channelBegin (cl : ClusterId) (s : State) : exec (.channelBegin cl) s = execChannelBegin cl s := rfl
@[simp] theorem exec_mgmtChannelStart (cl : ClusterId) (ch : ChanId) (prog : FAddr) (s : State) : exec (.mgmtChannelStart cl ch prog) s = execMgmtChannelStart cl ch prog s := rfl
@[simp] theorem exec_geckoFetch (k : Nat) (flt : Bool) (s : State) : exec (.geckoFetch k flt) s = execGeckoFetch k flt s := rfl
@[simp] theorem exec_move (cl : ClusterId) (s : State) : exec (.move cl) s = execMove cl s := rfl
@[simp] theorem exec_geckoLoop (cl : ClusterId) (s : State) : exec (.geckoLoop cl) s = execGeckoLoop cl s := rfl
@[simp] theorem exec_endloop (cl : ClusterId) (s : State) : exec (.endloop cl) s = execEndloop cl s := rfl
@[simp] theorem exec_geckoWait (cl : ClusterId) (s : State) : exec (.geckoWait cl) s = execGeckoWait cl s := rfl
@[simp] theorem exec_signal (cl : ClusterId) (s : State) : exec (.signal cl) s = execSignal cl s := rfl
@[simp] theorem exec_csum (cl : ClusterId) (s : State) : exec (.csum cl) s = execCsum cl s := rfl
@[simp] theorem exec_gend (cl : ClusterId) (s : State) : exec (.gend cl) s = execGend cl s := rfl
@[simp] theorem exec_head (cl : ClusterId) (s : State) : exec (.head cl) s = execHead cl s := rfl
@[simp] theorem exec_dchAbort (cl : ClusterId) (ch : ChanId) (s : State) : exec (.dchAbort cl ch) s = execDchAbort cl ch s := rfl
@[simp] theorem exec_dchDisable (cl : ClusterId) (ch : ChanId) (s : State) : exec (.dchDisable cl ch) s = execDchDisable cl ch s := rfl
@[simp] theorem exec_abortComplete (cl : ClusterId) (s : State) : exec (.abortComplete cl) s = execAbortComplete cl s := rfl
@[simp] theorem exec_newtCommandRow (k : Nat) (flt : Bool) (s : State) : exec (.newtCommandRow k flt) s = execNewtCommandRow k flt s := rfl
@[simp] theorem exec_mark (st : StackId) (s : State) : exec (.mark st) s = execMark st s := rfl
@[simp] theorem exec_adelta (st : StackId) (s : State) : exec (.adelta st) s = execAdelta st s := rfl
@[simp] theorem exec_attn (st : StackId) (s : State) : exec (.attn st) s = execAttn st s := rfl
@[simp] theorem exec_opt (st : StackId) (s : State) : exec (.opt st) s = execOpt st s := rfl
@[simp] theorem exec_avsw (st : StackId) (s : State) : exec (.avsw st) s = execAvsw st s := rfl
@[simp] theorem exec_scrub (st : StackId) (bad : Bool) (s : State) : exec (.scrub st bad) s = execScrub st bad s := rfl
@[simp] theorem exec_newtCommandComplete (st : StackId) (id : Nat) (s : State) : exec (.newtCommandComplete st id) s = execNewtCommandComplete st id s := rfl
@[simp] theorem exec_nerr1Read (st : StackId) (s : State) : exec (.nerr1Read st) s = execNerr1Read st s := rfl
@[simp] theorem exec_nctlEnWrite (st : StackId) (en : Bool) (s : State) : exec (.nctlEnWrite st en) s = execNctlEnWrite st en s := rfl
@[simp] theorem exec_nctlHaltqWrite (st : StackId) (hq : Bool) (s : State) : exec (.nctlHaltqWrite st hq) s = execNctlHaltqWrite st hq s := rfl
@[simp] theorem exec_newtTableWrite (st : StackId) (off : BitVec 21) (v : Word) (s : State) : exec (.newtTableWrite st off v) s = execNewtTableWrite st off v s := rfl
@[simp] theorem exec_refresh (st : StackId) (s : State) : exec (.refresh st) s = execRefresh st s := rfl
@[simp] theorem exec_patrolRead (st : StackId) (ecc : Ecc) (s : State) : exec (.patrolRead st ecc) s = execPatrolRead st ecc s := rfl
@[simp] theorem exec_imbalanceWindowEnd (s : State) : exec (.imbalanceWindowEnd) s = execImbalanceWindowEnd s := rfl
@[simp] theorem exec_boundaryGenerate (s : State) : exec (.boundaryGenerate) s = execBoundaryGenerate s := rfl
@[simp] theorem exec_beatBoundaryApply (s : State) : exec (.beatBoundaryApply) s = execBeatBoundaryApply s := rfl
@[simp] theorem exec_beatlUpdate (s : State) : exec (.beatlUpdate) s = execBeatlUpdate s := rfl
@[simp] theorem exec_beatInEdge (s : State) : exec (.beatInEdge) s = execBeatInEdge s := rfl
@[simp] theorem exec_beatMarker (p : PortId) (f : CtlFlit) (s : State) : exec (.beatMarker p f) s = execBeatMarker p f s := rfl
@[simp] theorem exec_holdFlit (p : PortId) (f : CtlFlit) (s : State) : exec (.holdFlit p f) s = execHoldFlit p f s := rfl
@[simp] theorem exec_identFlit (p : PortId) (f : CtlFlit) (s : State) : exec (.identFlit p f) s = execIdentFlit p f s := rfl
@[simp] theorem exec_flywheelEntry (s : State) : exec (.flywheelEntry) s = execFlywheelEntry s := rfl
@[simp] theorem exec_flywheelBoundary (s : State) : exec (.flywheelBoundary) s = execFlywheelBoundary s := rfl
@[simp] theorem exec_responseHoldRequest (c : CoreId) (s : State) : exec (.responseHoldRequest c) s = execResponseHoldRequest c s := rfl
@[simp] theorem exec_stallRequest (k : Nat) (flt : Bool) (s : State) : exec (.stallRequest k flt) s = execStallRequest k flt s := rfl
@[simp] theorem exec_stallWithdraw (k : Nat) (flt : Bool) (s : State) : exec (.stallWithdraw k flt) s = execStallWithdraw k flt s := rfl
@[simp] theorem exec_freezeBegin (s : State) : exec (.freezeBegin) s = execFreezeBegin s := rfl
@[simp] theorem exec_freezeResume (s : State) : exec (.freezeResume) s = execFreezeResume s := rfl
@[simp] theorem exec_freezeTimeout (s : State) : exec (.freezeTimeout) s = execFreezeTimeout s := rfl
@[simp] theorem exec_holdRepeat (s : State) : exec (.holdRepeat) s = execHoldRepeat s := rfl
@[simp] theorem exec_btResync (s : State) : exec (.btResync) s = execBtResync s := rfl
@[simp] theorem exec_btRoleWrite (ctl cfg : Word) (s : State) : exec (.btRoleWrite ctl cfg) s = execBtRoleWrite ctl cfg s := rfl
@[simp] theorem exec_btStenWrite (sten : Bool) (s : State) : exec (.btStenWrite sten) s = execBtStenWrite sten s := rfl
@[simp] theorem exec_btEnWrite (en : Bool) (s : State) : exec (.btEnWrite en) s = execBtEnWrite en s := rfl
@[simp] theorem exec_rcRun (c : CoreId) (supst : Bool) (s : State) : exec (.rcRun c supst) s = execRcRun c supst s := rfl
@[simp] theorem exec_rcStop (c : CoreId) (s : State) : exec (.rcStop c) s = execRcStop c s := rfl
@[simp] theorem exec_variantChoice (s : State) : exec (.variantChoice) s = execVariantChoice s := rfl
@[simp] theorem exec_linkFrameReceive (p : PortId) (f : Frame) (s : State) : exec (.linkFrameReceive p f) s = execLinkFrameReceive p f s := rfl
@[simp] theorem exec_retryTimerExpiry (p : PortId) (s : State) : exec (.retryTimerExpiry p) s = execRetryTimerExpiry p s := rfl
@[simp] theorem exec_trainSuccess (p : PortId) (s : State) : exec (.trainSuccess p) s = execTrainSuccess p s := rfl
@[simp] theorem exec_trainTimeout (p : PortId) (s : State) : exec (.trainTimeout p) s = execTrainTimeout p s := rfl
@[simp] theorem exec_alignLock (p : PortId) (s : State) : exec (.alignLock p) s = execAlignLock p s := rfl
@[simp] theorem exec_alignTimeout (p : PortId) (s : State) : exec (.alignTimeout p) s = execAlignTimeout p s := rfl
@[simp] theorem exec_alignmentLost (p : PortId) (s : State) : exec (.alignmentLost p) s = execAlignmentLost p s := rfl
@[simp] theorem exec_retrainComplete (p : PortId) (seq : BitVec 12) (s : State) : exec (.retrainComplete p seq) s = execRetrainComplete p seq s := rfl
@[simp] theorem exec_retrainTimeout (p : PortId) (s : State) : exec (.retrainTimeout p) s = execRetrainTimeout p s := rfl
@[simp] theorem exec_failedRetry (p : PortId) (s : State) : exec (.failedRetry p) s = execFailedRetry p s := rfl
@[simp] theorem exec_drainComplete (p : PortId) (s : State) : exec (.drainComplete p) s = execDrainComplete p s := rfl
@[simp] theorem exec_drainTimeout (p : PortId) (s : State) : exec (.drainTimeout p) s = execDrainTimeout p s := rfl
@[simp] theorem exec_lpEnWrite (p : PortId) (en : Bool) (s : State) : exec (.lpEnWrite p en) s = execLpEnWrite p en s := rfl
@[simp] theorem exec_lpRetr (p : PortId) (s : State) : exec (.lpRetr p) s = execLpRetr p s := rfl
@[simp] theorem exec_routeEntryWrite (dev : BitVec 10) (v : Word) (s : State) : exec (.routeEntryWrite dev v) s = execRouteEntryWrite dev v s := rfl
@[simp] theorem exec_pcieLinkTrained (speed : BitVec 4) (width : BitVec 5) (s : State) : exec (.pcieLinkTrained speed width) s = execPcieLinkTrained speed width s := rfl
@[simp] theorem exec_pcieReset (s : State) : exec (.pcieReset) s = execPcieReset s := rfl
@[simp] theorem exec_mailboxEnable (v : Word) (s : State) : exec (.mailboxEnable v) s = execMailboxEnable v s := rfl
@[simp] theorem exec_doorbell (tail : BitVec 16) (s : State) : exec (.doorbell tail) s = execDoorbell tail s := rfl
@[simp] theorem exec_retireEnable (v : Word) (s : State) : exec (.retireEnable v) s = execRetireEnable v s := rfl
@[simp] theorem exec_dictionaryWindowAccess (cmd : Word) (s : State) : exec (.dictionaryWindowAccess cmd) s = execDictionaryWindowAccess cmd s := rfl
@[simp] theorem exec_bar2Read (off : HostRead) (len : Nat) (s : State) : exec (.bar2Read off len) s = execBar2Read off len s := rfl
@[simp] theorem exec_bar2Write (off : Nat) (bytes : List Byte) (s : State) : exec (.bar2Write off bytes) s = execBar2Write off bytes s := rfl
@[simp] theorem exec_nopCommand (r : ReqHdr) (s : State) : exec (.nopCommand r) s = execNopCommand r s := rfl
@[simp] theorem exec_dictRead (r : ReqHdr) (index : BitVec 16) (sub : Byte) (off : Word) (s : State) : exec (.dictRead r index sub off) s = execDictRead r index sub off s := rfl
@[simp] theorem exec_dictWrite (r : ReqHdr) (index : BitVec 16) (sub : Byte) (off : Word) (value : List Byte) (s : State) : exec (.dictWrite r index sub off value) s = execDictWrite r index sub off value s := rfl
@[simp] theorem exec_logRead (r : ReqHdr) (sfrom : DWord) (s : State) : exec (.logRead r sfrom) s = execLogRead r sfrom s := rfl
@[simp] theorem exec_attnAck (r : ReqHdr) (q : DWord) (s : State) : exec (.attnAck r q) s = execAttnAck r q s := rfl
@[simp] theorem exec_state (r : ReqHdr) (target : Byte) (s : State) : exec (.state r target) s = execState r target s := rfl
@[simp] theorem exec_load (r : ReqHdr) (mbase ptab : DWord) (npeer : BitVec 16) (s : State) : exec (.load r mbase ptab npeer) s = execLoad r mbase ptab npeer s := rfl
@[simp] theorem exec_release (r : ReqHdr) (start : DWord) (s : State) : exec (.release r start) s = execRelease r start s := rfl
@[simp] theorem exec_resync (r : ReqHdr) (beat : DWord) (s : State) : exec (.resync r beat) s = execResync r beat s := rfl
@[simp] theorem exec_bind (r : ReqHdr) (slot : BitVec 16) (eff half : Word) (s : State) : exec (.bind r slot eff half) s = execBind r slot eff half s := rfl
@[simp] theorem exec_unbind (r : ReqHdr) (slot : BitVec 16) (eff : Word) (s : State) : exec (.unbind r slot eff) s = execUnbind r slot eff s := rfl
@[simp] theorem exec_semadd (r : ReqHdr) (snw val : Word) (s : State) : exec (.semadd r snw val) s = execSemadd r snw val s := rfl
@[simp] theorem exec_hdma (r : ReqHdr) (dir : Byte) (len : Word) (haddr daddr : DWord) (s : State) : exec (.hdma r dir len haddr daddr) s = execHdma r dir len haddr daddr s := rfl
@[simp] theorem exec_mctpDictRead (secured : Option Nat) (vendor : BitVec 16) (tag : MctpTag) (index : BitVec 16) (sub : Byte) (off : Word) (s : State) : exec (.mctpDictRead secured vendor tag index sub off) s = execMctpDictRead secured vendor tag index sub off s := rfl
@[simp] theorem exec_mctpDictWrite (secured : Option Nat) (vendor : BitVec 16) (tag : Byte) (index : BitVec 16) (sub : Byte) (off : Word) (value : List Byte) (s : State) : exec (.mctpDictWrite secured vendor tag index sub off value) s = execMctpDictWrite secured vendor tag index sub off value s := rfl
@[simp] theorem exec_warmStartRequest (s : State) : exec (.warmStartRequest) s = execWarmStartRequest s := rfl
@[simp] theorem exec_coldStartRequest (s : State) : exec (.coldStartRequest) s = execColdStartRequest s := rfl
@[simp] theorem exec_storeClearRequest (v : Byte) (s : State) : exec (.storeClearRequest v) s = execStoreClearRequest v s := rfl
@[simp] theorem exec_supplyRise (s : State) : exec (.supplyRise) s = execSupplyRise s := rfl
@[simp] theorem exec_coldStart (r : StartResult) (s : State) : exec (.coldStart r) s = execColdStart r s := rfl
@[simp] theorem exec_warmStart (r : StartResult) (s : State) : exec (.warmStart r) s = execWarmStart r s := rfl
@[simp] theorem exec_supplyTick (mv : Nat) (mw : Nat) (low : Bool) (s : State) : exec (.supplyTick mv mw low) s = execSupplyTick mv mw low s := rfl
@[simp] theorem exec_pwrWarnFall (s : State) : exec (.pwrWarnFall) s = execPwrWarnFall s := rfl
@[simp] theorem exec_warnThrottle (s : State) : exec (.warnThrottle) s = execWarnThrottle s := rfl
@[simp] theorem exec_thermalTick (s : State) : exec (.thermalTick) s = execThermalTick s := rfl
@[simp] theorem exec_thermalTrip (s : State) : exec (.thermalTrip) s = execThermalTrip s := rfl
@[simp] theorem exec_refclkLoss (s : State) : exec (.refclkLoss) s = execRefclkLoss s := rfl
@[simp] theorem exec_regionPowerRequest (v : BitVec 16) (s : State) : exec (.regionPowerRequest v) s = execRegionPowerRequest v s := rfl
@[simp] theorem exec_watchdogExpiry (s : State) : exec (.watchdogExpiry) s = execWatchdogExpiry s := rfl
@[simp] theorem exec_sensorSample (id : Nat) (conv : Option (BitVec 32)) (s : State) : exec (.sensorSample id conv) s = execSensorSample id conv s := rfl
@[simp] theorem exec_railEvent (rail : Fin 14) (s : State) : exec (.railEvent rail) s = execRailEvent rail s := rfl
@[simp] theorem exec_logFlush (n : Nat) (s : State) : exec (.logFlush n) s = execLogFlush n s := rfl
@[simp] theorem exec_tenantRelease (w : Secured (BitVec 16)) (s : State) : exec (.tenantRelease w) s = execTenantRelease w s := rfl
@[simp] theorem exec_recoveryStart (w : Secured Byte) (s : State) : exec (.recoveryStart w) s = execRecoveryStart w s := rfl
@[simp] theorem exec_recoveryLoad (w : Secured DWord) (s : State) : exec (.recoveryLoad w) s = execRecoveryLoad w s := rfl
@[simp] theorem exec_minsvnRaise (w : Secured Byte) (s : State) : exec (.minsvnRaise w) s = execMinsvnRaise w s := rfl
@[simp] theorem exec_setRootHash (session : Nat) (hash : List Byte) (s : State) : exec (.setRootHash session hash) s = execSetRootHash session hash s := rfl
@[simp] theorem exec_keyInstall (session : Nat) (k : Fin 32) (modulus : List Byte) (s : State) : exec (.keyInstall session k modulus) s = execKeyInstall session k modulus s := rfl
@[simp] theorem exec_unlockModulusInstall (session : Nat) (modulus : List Byte) (s : State) : exec (.unlockModulusInstall session modulus) s = execUnlockModulusInstall session modulus s := rfl
@[simp] theorem exec_queryDeviceIdentifiers (s : State) : exec (.queryDeviceIdentifiers) s = execQueryDeviceIdentifiers s := rfl
@[simp] theorem exec_getFirmwareParameters (s : State) : exec (.getFirmwareParameters) s = execGetFirmwareParameters s := rfl
@[simp] theorem exec_requestUpdate (s : State) : exec (.requestUpdate) s = execRequestUpdate s := rfl
@[simp] theorem exec_passComponentTable (s : State) : exec (.passComponentTable) s = execPassComponentTable s := rfl
@[simp] theorem exec_updateComponent (len : Nat) (s : State) : exec (.updateComponent len) s = execUpdateComponent len s := rfl
@[simp] theorem exec_requestFirmwareData (off : Nat) (bytes : List Byte) (s : State) : exec (.requestFirmwareData off bytes) s = execRequestFirmwareData off bytes s := rfl
@[simp] theorem exec_transferComplete (s : State) : exec (.transferComplete) s = execTransferComplete s := rfl
@[simp] theorem exec_verifyComplete (s : State) : exec (.verifyComplete) s = execVerifyComplete s := rfl
@[simp] theorem exec_applyComplete (s : State) : exec (.applyComplete) s = execApplyComplete s := rfl
@[simp] theorem exec_activateFirmware (s : State) : exec (.activateFirmware) s = execActivateFirmware s := rfl
@[simp] theorem exec_getStatus (s : State) : exec (.getStatus) s = execGetStatus s := rfl
@[simp] theorem exec_cancelUpdateComponent (s : State) : exec (.cancelUpdateComponent) s = execCancelUpdateComponent s := rfl
@[simp] theorem exec_cancelUpdate (s : State) : exec (.cancelUpdate) s = execCancelUpdate s := rfl
@[simp] theorem exec_getVersion (s : State) : exec (.getVersion) s = execGetVersion s := rfl
@[simp] theorem exec_getCapabilities (s : State) : exec (.getCapabilities) s = execGetCapabilities s := rfl
@[simp] theorem exec_negotiateAlgorithms (s : State) : exec (.negotiateAlgorithms) s = execNegotiateAlgorithms s := rfl
@[simp] theorem exec_getDigests (s : State) : exec (.getDigests) s = execGetDigests s := rfl
@[simp] theorem exec_getCertificate (slot : Byte) (off len : BitVec 16) (s : State) : exec (.getCertificate slot off len) s = execGetCertificate slot off len s := rfl
@[simp] theorem exec_challenge (slot : Byte) (nonce : List Byte) (s : State) : exec (.challenge slot nonce) s = execChallenge slot nonce s := rfl
@[simp] theorem exec_getMeasurements (index : Byte) (s : State) : exec (.getMeasurements index) s = execGetMeasurements index s := rfl
@[simp] theorem exec_keyExchange (x : KeyExchange) (s : State) : exec (.keyExchange x) s = execKeyExchange x s := rfl
@[simp] theorem exec_finish (session : Nat) (s : State) : exec (.finish session) s = execFinish session s := rfl
@[simp] theorem exec_heartbeat (session : Nat) (s : State) : exec (.heartbeat session) s = execHeartbeat session s := rfl
@[simp] theorem exec_keyUpdate (session : Nat) (s : State) : exec (.keyUpdate session) s = execKeyUpdate session s := rfl
@[simp] theorem exec_endSession (session : Nat) (s : State) : exec (.endSession session) s = execEndSession session s := rfl
@[simp] theorem exec_varanSt (s : State) : exec (.varanSt) s = execVaranSt s := rfl
@[simp] theorem exec_varanOr (index : BitVec 16) (sub : Byte) (off len : Nat) (s : State) : exec (.varanOr index sub off len) s = execVaranOr index sub off len s := rfl
@[simp] theorem exec_varanOw (index : BitVec 16) (sub : Byte) (bytes : List Byte) (s : State) : exec (.varanOw index sub bytes) s = execVaranOw index sub bytes s := rfl
@[simp] theorem exec_varanLr (seq : Nat) (n : Nat) (s : State) : exec (.varanLr seq n) s = execVaranLr seq n s := rfl
@[simp] theorem exec_varanChal (s : State) : exec (.varanChal) s = execVaranChal s := rfl
@[simp] theorem exec_varanUnlock (bytes : List Byte) (s : State) : exec (.varanUnlock bytes) s = execVaranUnlock bytes s := rfl
@[simp] theorem exec_varanLock (s : State) : exec (.varanLock) s = execVaranLock s := rfl
@[simp] theorem exec_varanMr (w : Width) (addr : DWord) (n : Nat) (s : State) : exec (.varanMr w addr n) s = execVaranMr w addr n s := rfl
@[simp] theorem exec_varanMw (w : Width) (addr : DWord) (bytes : List Byte) (s : State) : exec (.varanMw w addr bytes) s = execVaranMw w addr bytes s := rfl
@[simp] theorem exec_varanCs (core : Nat) (s : State) : exec (.varanCs core) s = execVaranCs core s := rfl
@[simp] theorem exec_monitorInactivityTimeout (s : State) : exec (.monitorInactivityTimeout) s = execMonitorInactivityTimeout s := rfl
@[simp] theorem exec_registerWrite (sp : RegSpace) (off : BitVec 46) (w : Width) (v : DWord) (s : State) : exec (.registerWrite sp off w v) s = execRegisterWrite sp off w v s := rfl
@[simp] theorem exec_illegalOpcodeFault (c : CoreId) (w1 w2 : BitVec 14) (s : State) : exec (.illegalOpcodeFault c w1 w2) s = execIllegalOpcodeFault c w1 w2 s := rfl
@[simp] theorem exec_hostReadCompletion (tag : Nat) (ok : Bool) (bytes : List Byte) (s : State) : exec (.hostReadCompletion tag ok bytes) s = execHostReadCompletion tag ok bytes s := rfl
@[simp] theorem exec_unknownOpRequest (r : ReqHdr) (op : Byte) (s : State) : exec (.unknownOpRequest r op) s = execUnknownOpRequest r op s := rfl

end Sys2Proof.Machine
end

