-- ==== Sys2Proof/WellFormed.lean ====
section
/-! DEFINITION. Which commands are well formed: the operands that their types leave wider than the spec does. -/

namespace Sys2Proof

/-- A modulus value, as R490 and R514 take it: 512 bytes, or none to remove the modulus. -/
def modulusOk (m : List Byte) : Bool := m.length == 0 || m.length == 512

/-- The widths that mr and mw name (R515): b, h, w, d and r. -/
def monWidth : Width → Bool
  | .w8 => true | .w16 => true | .w32 => true | .w64 => true | .w4096 => true
  | .w256 => false | .w512 => false

/-- The durations of a start name at most its 14 steps (Table 20.10), a failing step is one of them, and the supply leaves GOOD in one of S7 to S11 for another state of Table 20.1. -/
def startOk (r : StartResult) : Bool :=
  decide (r.durs.length ≤ 14) && (match r.failStep with | some n => decide (1 ≤ n ∧ n ≤ 14) | none => true)
    && (match r.leaves with | some (n, c) => decide (7 ≤ n ∧ n ≤ 11 ∧ 1 ≤ c ∧ c ≤ 3) | none => true)

/-- A command is well formed: sensors by number (Table 21.3), hashes of 64 bytes (R491), moduli, SPDM nonces of 32 bytes and DHE shares of secp384r1 of 96 (Table 21.8), monitor widths and start results. A command with no operand of this kind always is. -/
def Instr.wellFormed (i : Instr) : Bool :=
  match i with
  | .sensorSample id _ => decide (id < 144)
  | .setRootHash _ h => h.length == 64
  | .keyInstall _ _ m => modulusOk m
  | .unlockModulusInstall _ m => modulusOk m
  | .keyExchange x => x.share.length == 96
  | .challenge _ n => n.length == 32
  | .varanMr w _ _ => monWidth w
  | .varanMw w _ _ => monWidth w
  | .coldStart r => startOk r
  | .warmStart r => startOk r
  | _ => true

end Sys2Proof
end

