-- ==== Sys2Proof/Tests/Slice0.lean ====
section
/-! SUPPORT. Tests: ill-formed operands that WellFormed refuses, figures of the spec that the model computes, and for every statement with hypotheses a state and operands that meet them. -/

namespace Sys2Proof.Tests

-- One test after another: side by side, each would hold a thread and its stack while it waits for the one before.
set_option Elab.async false
open Sys2Proof Sys2Proof.Machine

/-! ## Small states -/

/-- Core 0 running at task-state block address 1024, valid. -/
def kern : Core := { Core.reset with run := { st := .running }, cpu := { tsV := true, tsAddr := 1 } }
/-- The machine after reset with core 0 replaced. -/
def with0 (k : Core) : State := { State.reset with cores := [(0, k)] }
/-- The machine after reset with core 0 running and this scalar state. -/
def cpu0 (u : Cpu) : State := with0 { kern with cpu := u }
/-- The machine after reset with core 0 running. -/
def base : State := with0 kern

/-- The checks of Ready. -/
def readyB (s : State) (c : CoreId) (uses : List Reg) (n : Nat) : Bool :=
  s.canIssue c && !(s.core c).regBusy uses && (decide (n ≠ 2) || decide ((s.core c).cpu.pc ≠ 0x3FFF))

theorem ready_of {s : State} {c : CoreId} {uses : List Reg} {n : Nat} (h : readyB s c uses n = true) : Ready s c uses n := by
  simp only [readyB, Bool.and_eq_true, Bool.or_eq_true, Bool.not_eq_true', decide_eq_true_eq] at h
  exact ⟨h.1.1, h.1.2, fun hn => h.2.resolve_left (fun h' => h' hn)⟩

/-- The checks of CanEnter. -/
def enterB (s : State) (c : CoreId) : Bool :=
  (s.core c).lsu.busy.isEmpty && (s.core c).cpu.tsV && !(s.core c).cpu.tsSaved && !(s.core c).cpu.espAct && decide ((s.core c).cpu.tsAddr.toNat * 1024 < memTop)

theorem enter_of {s : State} {c : CoreId} (h : enterB s c = true) : CanEnter s c := by
  simp only [enterB, Bool.and_eq_true, Bool.not_eq_true', decide_eq_true_eq, List.isEmpty_iff] at h
  exact ⟨h.1.1.1.1, h.1.1.1.2, h.1.1.2, h.1.2, h.2⟩

theorem localBad_of_none {s : State} (h : s.badMem = []) (a n : Nat) : s.localBad a n = false := by
  induction n generalizing a with
  | zero => rfl
  | succ n ih => simp only [State.localBad, h, ih, Bool.or_false]; split <;> rfl

/-! ## The queue and the scalar core -/

theorem witness_StepRunsFront : { State.reset with pending := [Instr.nop 0] }.pending = Instr.nop 0 :: [] ∧ State.reset.pending = [] := by decide

theorem witness_OneWordOperations : Ready base 0 [1, 2] 1 ∧ Ready base 0 [0, 15] 1 := ⟨ready_of (by decide), ready_of (by decide)⟩

theorem witness_ImmediatesAndBitFields : Ready base 0 [1] 2 ∧ Ready base 0 [15, 0] 2 := ⟨ready_of (by decide), ready_of (by decide)⟩

/-- A full return stack at the last one-word address of program memory. -/
def full0 : State := cpu0 { kern.cpu with depth := 8, pc := 0x3FFE }

theorem witness_ControlTransfers :
    (Ready base 0 [] 1 ∧ Ready base 0 [3] 1 ∧ Ready base 0 [] 2 ∧ Ready base 0 [3] 2 ∧ ¬ ((base.core 0).cpu.rso = true ∧ (base.core 0).cpu.depth = 8))
    ∧ (Ready full0 0 [] 2 ∧ Ready full0 0 [3] 1 ∧ CanEnter full0 0 ∧ (full0.core 0).cpu.rso = true ∧ (full0.core 0).cpu.depth = 8)
    ∧ (Ready full0 0 [] 1 ∧ ¬ ((full0.core 0).cpu.rso = true ∧ (full0.core 0).cpu.depth = 0))
    ∧ (Ready base 0 [] 1 ∧ CanEnter base 0 ∧ (base.core 0).cpu.rso = true ∧ (base.core 0).cpu.depth = 0) :=
  ⟨⟨ready_of (by decide), ready_of (by decide), ready_of (by decide), ready_of (by decide), by decide⟩,
   ⟨ready_of (by decide), ready_of (by decide), enter_of (by decide), by decide, by decide⟩,
   ⟨ready_of (by decide), by decide⟩, ⟨ready_of (by decide), enter_of (by decide), by decide, by decide⟩⟩

theorem witness_HardwareLoops :
    (Ready base 0 [15] 2 ∧ (false = false → (15 : BitVec 6).toNat < 16) ∧ (base.core 0).cpu.pc.toNat + 2 ≤ (2 : PAddr).toNat)
    ∧ (Ready base 0 [] 2 ∧ (1 : PAddr).toNat < (base.core 0).cpu.pc.toNat + 2 ∧ CanEnter base 0)
    ∧ (Ready base 0 [0] 2 ∧ 16 ≤ (16 : BitVec 6).toNat)
    ∧ (let u : Cpu := { le1 := 5, lc1 := 2, le0 := 5, lc0 := 2 }
       (5 : PAddr) = u.le1 ∧ 1 < u.lc1.toNat)
    ∧ (let u : Cpu := { le1 := 5, lc1 := 1, le0 := 5, lc0 := 2 }
       ¬ ((5 : PAddr) = u.le1 ∧ 1 < u.lc1.toNat) ∧ (5 : PAddr) = u.le0 ∧ 1 < u.lc0.toNat)
    ∧ (let u : Cpu := { le1 := 5, lc1 := 1, le0 := 5, lc0 := 1 }
       ¬ ((5 : PAddr) = u.le1 ∧ 1 < u.lc1.toNat) ∧ ¬ ((5 : PAddr) = u.le0 ∧ 1 < u.lc0.toNat)) :=
  ⟨⟨ready_of (by decide), by decide, by decide⟩, ⟨ready_of (by decide), by decide, enter_of (by decide)⟩, ⟨ready_of (by decide), by decide⟩,
   by decide, by decide, by decide⟩

theorem witness_BytePermute :
    (Ready base 0 [12, 13, 14, 15, 0, 1, 2, 3, 14, 15] 2 ∧ (12 : Reg).toNat % 4 = 0 ∧ (0 : Reg).toNat % 4 = 0 ∧ (14 : Reg).toNat % 2 = 0)
    ∧ (Ready base 0 [1, 2, 3, 4, 0, 1, 2, 3, 14, 15] 2 ∧ (1 : Reg).toNat % 4 ≠ 0 ∧ CanEnter base 0) :=
  ⟨⟨ready_of (by decide), by decide, by decide, by decide⟩, ⟨ready_of (by decide), by decide, enter_of (by decide)⟩⟩

/-- Core 0 at task level. -/
def task0 : State := cpu0 { kern.cpu with sup := false }

theorem witness_ControlRegisters :
    (Ready base 0 [1] 1 ∧ (14 : BitVec 4) ≠ 15 ∧ (base.core 0).cpu.sup = true)
    ∧ (Ready task0 0 [1] 1 ∧ ¬ (8 ≤ (7 : BitVec 4).toNat ∧ (7 : BitVec 4).toNat ≤ 11))
    ∧ ((task0.core 0).cpu.sup = false ∧ 8 ≤ (8 : BitVec 4).toNat ∧ (11 : BitVec 4).toNat ≤ 11 ∧ CanEnter task0 0 ∧ CanEnter base 0)
    ∧ ((3 : BitVec 4) ≠ 11 ∧ ¬ ((1 : BitVec 4) = 0 ∨ (1 : BitVec 4) = 3)) :=
  ⟨⟨ready_of (by decide), by decide, by decide⟩, ⟨ready_of (by decide), by decide⟩, ⟨by decide, by decide, by decide, enter_of (by decide), enter_of (by decide)⟩, by decide⟩

theorem witness_DescriptorAccess :
    (Ready base 0 [12, 13, 14, 15] 2 ∧ (12 : Reg).toNat % 4 = 0 ∧ (base.core 0).cpu.sup = true)
    ∧ (Ready base 0 [15, 0, 1, 2] 2 ∧ (15 : Reg).toNat % 4 ≠ 0 ∧ CanEnter base 0)
    ∧ (Ready task0 0 [0, 1, 2, 3] 2 ∧ (task0.core 0).cpu.sup = false ∧ CanEnter task0 0) :=
  ⟨⟨ready_of (by decide), by decide, by decide⟩, ⟨ready_of (by decide), by decide, enter_of (by decide)⟩, ⟨ready_of (by decide), by decide, enter_of (by decide)⟩⟩

/-- Core 0 with a store that has not left the store buffer, and BEATL one beat behind what g1 asks for. -/
def late0 : State :=
  with0 { kern with cpu := { kern.cpu with regs := [(1, 1)] },
                    lsu := { sbuf := [{ line := 0, mask := 1, bytes := 0, ctrl := false, pc := 0, sd := 0, addr := 0, width := 1 }] } }

theorem witness_WaitsAndPrivilege :
    (Ready base 0 [] 1 ∧ (7 : BitVec 4) ≠ 0 ∧ (7 : BitVec 4).getLsbD 3 = false ∧ (base.core 0).lsu.sbuf = [] ∧ (base.core 0).lsu.fills = [] ∧ (base.core 0).lsu.outs = []
      ∧ (base.core 0).mat.f.queue ++ (base.core 0).mat.b.queue = [] ∧ (base.core 0).lsu.sems = [] ∧ base.net = [])
    ∧ (Ready base 0 [] 1 ∧ CanEnter base 0 ∧ (8 : BitVec 4).getLsbD 3 = true)
    ∧ (Ready late0 0 [] 1 ∧ ((1 : BitVec 4).getLsbD 0 = true ∧ (late0.core 0).lsu.sbuf ≠ []))
    ∧ (Ready base 0 [1] 1 ∧ 0 ≤ ((base.core 0).cpu.beatl - base.reg 0 1).toInt)
    ∧ (Ready late0 0 [1] 1 ∧ ¬ 0 ≤ ((late0.core 0).cpu.beatl - late0.reg 0 1).toInt)
    ∧ (base.core 0).cpu.sup = true
    ∧ (Ready task0 0 [] 1 ∧ Ready task0 0 [1] 1 ∧ CanEnter task0 0 ∧ (task0.core 0).cpu.sup = false ∧ (task0.reg 0 1).getLsbD 31 = false)
    ∧ (let s := cpu0 { kern.cpu with sup := false, regs := [(1, 0x80000000)] }
       Ready s 0 [1] 1 ∧ CanEnter s 0 ∧ (s.core 0).cpu.sup = false ∧ (s.reg 0 1).getLsbD 31 = true) :=
  ⟨⟨ready_of (by decide), by decide, by decide, rfl, rfl, rfl, rfl, rfl, rfl⟩, ⟨ready_of (by decide), enter_of (by decide), by decide⟩, ⟨ready_of (by decide), by decide, by decide⟩, ⟨ready_of (by decide), by decide⟩,
   ⟨ready_of (by decide), by decide⟩, by decide, ⟨ready_of (by decide), ready_of (by decide), enter_of (by decide), by decide, by decide⟩,
   ⟨ready_of (by decide), enter_of (by decide), by decide, by decide⟩⟩

/-- A load of tile FA0 that has requested two rows, `n` of them unanswered. -/
def rows1 (n : Nat) : TileMove := { store := false, tile := 0, sd := 0, desc := 0, off := 0, rel := false, start := 0, next := 2, left := n, pc := 0 }
/-- Core 0 at a boundary of the held instruction, interrupt 3 pending. -/
def interrupted0 (h : Hold) : State :=
  with0 { kern with cpu := { kern.cpu with ie := true, intp := 8, inte := 9 }, run := { kern.run with hold := h } }

theorem witness_ExceptionEntries_kept :
    (let s := with0 { kern with lsu := { outs := [(0, .load { reg := 1, width := 4, sext := false, addr := 0, pc := 0, sd := 0 })] } }
     Ready s 0 [] 1 ∧ (s.core 0).lsu.busy ≠ [])
    ∧ (let s := with0 { kern with run := { kern.run with hold := .trap { kind := 2, vec := 16, sub := 0, pc := 1 } } }
       (s.core 0).run.hold = .trap { kind := 2, vec := 16, sub := 0, pc := 1 } ∧ (s.core 0).lsu.busy = [] ∧ s.beat.frz = false ∧ (s.core 0).run.stall = false) :=
  ⟨⟨ready_of (by decide), by decide⟩, by decide⟩

theorem witness_ExceptionEntries :
    (CanEnter base 0 ∧ Ready base 0 [] 1)
    ∧ (base.canIssue 0 = true ∧ illegalWords 0x3FFF 0x3FFF ≠ none)
    ∧ (let s := with0 { kern with run := { kern.run with pend := some { vec := 3, sub := 16, info := 0, faddr := 0, fpc := 0 } } }
       CanEnter s 0 ∧ s.atBoundary 0 = true ∧ (s.core 0).run.pend ≠ none ∧ (s.core 0).cpu.shadow = false)
    ∧ (let s := cpu0 { kern.cpu with ie := true, intp := 8, inte := 9 }
       CanEnter s 0 ∧ s.atBoundary 0 = true ∧ (s.core 0).run.pend = none ∧ (s.core 0).cpu.shadow = false ∧ (s.core 0).cpu.ie = true ∧ (s.core 0).cpu.qAct = false
         ∧ (s.core 0).cpu.intp.getLsbD 3 = true ∧ (s.core 0).cpu.inte.getLsbD 3 = true
         ∧ ∀ w, w < 3 → ¬ ((s.core 0).cpu.intp.getLsbD w = true ∧ (s.core 0).cpu.inte.getLsbD w = true))
    ∧ (∀ h ∈ [Hold.mm 0 0 0 0 true 1 2 0, .rows (rows1 0), .rows (rows1 3)],
       let s := interrupted0 h
       CanEnter s 0 ∧ s.coreOn (0 : CoreId).toNat = true ∧ (s.core 0).run.st = .running ∧ s.beat.frz = false ∧ (s.core 0).run.due = none ∧ (s.core 0).cpu.shadow = false
         ∧ (s.core 0).cpu.ie = true ∧ (s.core 0).cpu.qAct = false ∧ (s.core 0).cpu.intp.getLsbD 3 = true ∧ (s.core 0).cpu.inte.getLsbD 3 = true
         ∧ (∀ w, w < 3 → ¬ ((s.core 0).cpu.intp.getLsbD w = true ∧ (s.core 0).cpu.inte.getLsbD w = true)) ∧ (s.core 0).run.hold = h)
    ∧ (∀ n, let m := rows1 n
       m.next < tileRows m.tile ∧ m.fail = none ∧ m.cut = .none) :=
  ⟨⟨enter_of (by decide), ready_of (by decide)⟩, ⟨by decide, by decide⟩, ⟨enter_of (by decide), by decide, by decide, by decide⟩,
   ⟨enter_of (by decide), by decide, by decide, by decide, by decide, by decide, by decide, by decide, by decide⟩,
   by intro h hh; simp only [List.mem_cons, List.not_mem_nil, or_false] at hh
      obtain rfl | rfl | rfl := hh <;> exact ⟨enter_of (by decide), by decide, by decide, by decide, by decide, by decide, by decide, by decide, by decide, by decide, by decide, rfl⟩,
   fun _ => ⟨show 2 < tileRows 0 by decide, rfl, rfl⟩⟩

/-- Core 0 with its task-state block occupied and a valid escalation frame. -/
def occupied0 : State := cpu0 { kern.cpu with tsSaved := true, espV := true, espAddr := 2 }

theorem witness_EscalationAndStop :
    (Ready occupied0 0 [] 1 ∧ (occupied0.core 0).lsu.busy = [] ∧ (occupied0.core 0).cpu.espAct = false ∧ (occupied0.core 0).cpu.espV = true
      ∧ (occupied0.core 0).run.stall = false ∧ (occupied0.core 0).cpu.tsSaved = true)
    ∧ (let s := cpu0 { kern.cpu with tsAddr := 0x24000000, espV := true }
       Ready s 0 [] 1 ∧ (s.core 0).lsu.busy = [] ∧ (s.core 0).cpu.espAct = false ∧ (s.core 0).cpu.espV = true ∧ (s.core 0).run.stall = false ∧ (s.core 0).cpu.tsSaved = false ∧ 0x9000000000 ≤ (s.core 0).cpu.tsAddr.toNat * 1024)
    ∧ (let s := cpu0 { kern.cpu with tsSaved := true }
       Ready s 0 [] 1 ∧ (s.core 0).lsu.busy = [] ∧ s.dev.st ≠ .off ∧ (s.core 0).cpu.espV = false ∧ (s.core 0).cpu.tsSaved = true)
    ∧ (let s := cpu0 { kern.cpu with espAct := true, espV := true }
       Ready s 0 [] 1 ∧ (s.core 0).lsu.busy = [] ∧ s.dev.st ≠ .off ∧ (s.core 0).cpu.espAct = true) :=
  ⟨⟨ready_of (by decide), by decide, by decide, by decide, by decide, by decide⟩, ⟨ready_of (by decide), by decide, by decide, by decide, by decide, by decide, by decide⟩,
   ⟨ready_of (by decide), by decide, by decide, by decide, by decide⟩, ⟨ready_of (by decide), by decide, by decide, by decide⟩⟩

theorem witness_ReturnFromException :
    (Ready base 0 [] 1 ∧ (base.core 0).cpu.sup = true ∧ (base.core 0).lsu.mClear = true ∧ (base.core 0).run.saving = [] ∧ (base.core 0).cpu.tsAddr.toNat * 1024 < 0x9000000000
      ∧ base.localBad 1024 256 = false ∧ (base.core 0).cpu.espAct = false)
    ∧ (let s := cpu0 { kern.cpu with espAct := true, espAddr := 0x23FFFFFF }
       Ready s 0 [] 1 ∧ (s.core 0).cpu.espAct = true ∧ (s.core 0).cpu.espAddr.toNat * 1024 < 0x9000000000)
    ∧ (∀ a ∈ [(0x24000000 : BitVec 30), 1],
       let s := { cpu0 { kern.cpu with tsAddr := a, tsSaved := true, espV := true } with badMem := [16] }
       Ready s 0 [] 1 ∧ (s.core 0).cpu.sup = true ∧ (s.core 0).lsu.mClear = true ∧ (s.core 0).run.saving = [] ∧ (s.core 0).lsu.busy = [] ∧ (s.core 0).cpu.espAct = false
         ∧ (s.core 0).cpu.espV = true ∧ (s.core 0).cpu.tsSaved = true ∧ (s.core 0).run.stall = false ∧ s.localBad 1024 256 = true)
    ∧ 0x9000000000 ≤ (0x24000000 : BitVec 30).toNat * 1024 ∧ (1 : BitVec 30).toNat * 1024 = 1024 :=
  ⟨⟨ready_of (by decide), by decide, by decide, by decide, by decide, localBad_of_none rfl _ _, by decide⟩, ⟨ready_of (by decide), by decide, by decide⟩,
   by intro a ha; simp only [List.mem_cons, List.not_mem_nil, or_false] at ha
      obtain rfl | rfl := ha <;> exact ⟨ready_of (by decide), by decide, by decide, by decide, by decide, by decide, by decide, by decide, by decide, by decide⟩,
   by decide, by decide⟩

theorem witness_BlockRoundTrip : (full0.core 0).cpu.depth.toNat ≤ 8 := by decide

theorem witness_QuietWindow :
    (let s := cpu0 { kern.cpu with regs := [(1, 0x80000000)] }
     Ready s 0 [1] 1 ∧ (s.core 0).cpu.sup = true ∧ (s.reg 0 1).getLsbD 31 = true ∧ (s.core 0).cpu.qAct = false
       ∧ ¬ (((s.core 0).cpu.intp &&& (s.core 0).cpu.inte ≠ 0) ∧ (s.core 0).cpu.ie = true ∧ (s.core 0).cpu.tsSaved = false ∧ (s.core 0).cpu.espAct = false))
    ∧ (let s := cpu0 { kern.cpu with regs := [(1, 0x80000000)], qAct := true }
       Ready s 0 [1] 1 ∧ (s.core 0).cpu.qAct = true)
    ∧ (Ready base 0 [1] 1 ∧ (base.reg 0 1).getLsbD 31 = false)
    ∧ (let u : Cpu := { kern.cpu with qAct := true, qLeft := 0 }
       u.qAct = true ∧ u.qLeft = 0) :=
  ⟨⟨ready_of (by decide), by decide, by decide, by decide, by decide⟩, ⟨ready_of (by decide), by decide⟩, ⟨ready_of (by decide), by decide⟩, by decide⟩

/-! ## Memory accesses of a core -/

/-- A segment descriptor: BASE on this device, LIMIT, KIND, and V TASK WR RD as the bits 8, 4, 2, 1. -/
def seg (base limit kind flags : Nat) : BitVec 128 := BitVec.ofNat 128 (limit * 2 ^ 64 + flags * 2 ^ 60 + kind * 2 ^ 56 + 0x3FF * 2 ^ 46 + base)
/-- The machine after reset with core 0 running and sd0 as given. -/
def sd0 (d : BitVec 128) : State := cpu0 { kern.cpu with sds := [(0, d)] }

/-- The descriptor of core 0's sd0, and the offset and size of one access. -/
def segAt (s : State) (write : Bool) (off size : Nat) : Except Trip Target := segCheck s 0 0 (Table.get 0 (s.core 0).cpu.sds 0) write off size

/-- Vector and sub-cause of a failed check. -/
def trips (r : Except Trip Target) : Option (Nat × Nat) := match r with | .error f => some (f.vec, f.sub) | .ok _ => none

theorem witness_ScalarLoads_faults :
    (∀ s ∈ [base, cpu0 { kern.cpu with sup := false, sds := [(0, seg 0 16 0 11)] }, sd0 (seg 0 16 0 8), sd0 (seg 0 3 0 9), sd0 (seg 0 16 2 9), sd0 (seg 1 16 0 9),
        sd0 (seg 0x3FFFFFFFFFFC 16 0 9)], Ready s 0 [1, 1] 2 ∧ CanEnter s 0)
    ∧ (Table.get 0 (base.core 0).cpu.sds 0).getLsbD 63 = false
    ∧ trips (segAt (cpu0 { kern.cpu with sup := false, sds := [(0, seg 0 16 0 11)] }) false 0 4) = some (4, 2)
    ∧ trips (segAt (sd0 (seg 0 3 0 9)) false 0 4) = some (4, 4)
    ∧ trips (segAt (sd0 (seg 0 16 2 9)) false 0 4) = some (2, 0)
    ∧ trips (segAt (sd0 (seg 1 16 0 9)) false 0 2) = some (2, 0)
    ∧ trips (segAt (sd0 (seg 0x3FFFFFFFFFFC 16 0 9)) false 4 4) = some (3, 0) := by
  refine ⟨?_, ?_, ?_, ?_, ?_, ?_, ?_⟩
  · intro s hs; simp only [List.mem_cons, List.not_mem_nil, or_false] at hs
    obtain rfl | rfl | rfl | rfl | rfl | rfl | rfl := hs <;> exact ⟨ready_of (by decide), enter_of (by decide)⟩
  all_goals decide

/-- Sub-cause 1 at the core's own control region alone, and each address class through each kind it does not fit. -/
theorem witness_ScalarLoads_classes :
    trips (segAt (sd0 (seg 0x200000000001 16 3 9)) false 0 2) = some (2, 1)
    ∧ trips (segAt (sd0 (seg 0x200000010001 16 3 9)) false 0 2) = some (2, 0)
    ∧ (∀ e ∈ [(0x9000000000, 0, 3), (0x100000000000, 0, 1), (0x1000000C0000, 1, 1), (0x200008010000, 0, 1), (0x1000000A0000, 3, 1), (0x1000001A0000, 0, 1),
        (0, 3, 1), (0x200008000000, 0, 1), (0x200009000000, 1, 1), (0x200010000000, 0, 1), (0x200000000000, 0, 1), (0x200004000000, 0, 1), (0x1000000A6000, 0, 3)],
        trips (segAt (sd0 (seg e.1 16 e.2.1 9)) false 0 4) = some (3, e.2.2))
    ∧ (∀ e ∈ [(0x200000000000, 3), (0x200004000000, 3), (0x1000000A6000, 0)],
        trips (segAt { sd0 (seg e.1 16 e.2 9) with dev := { map := 0 } } false 0 4) = some (3, 2))
    ∧ segAt (sd0 (seg 0x1000000A0000 16 0 9)) false 0 4 = .ok (.way 0 0) ∧ (kern.lsu.waymem.toNat * 0x2000 ≤ 0) := by
  refine ⟨by decide, by decide, by decide, by decide, by rfl, by decide⟩

/-- Core 0 with sd0 a MEM segment at 0 and line 0 of that memory in way 3 of the cache. -/
def cached0 : State :=
  with0 { kern with cpu := { kern.cpu with sds := [(0, seg 0 64 0 11)] },
                    lsu := { lines := [(3, (lineOf (mkFAddr 0x3FF 0), 0x80))] } }

theorem witness_ScalarLoads :
    (Ready (sd0 (seg 0 64 1 9)) 0 [15, 1] 2 ∧ sdKind (Table.get 0 ((sd0 (seg 0 64 1 9)).core 0).cpu.sds 0) = 1
      ∧ segAt (sd0 (seg 0 64 1 9)) false 60 4 = .ok (.mem 0 60) ∧ (sd0 (seg 0 64 1 9)).resolveDev (BitVec.ofNat 10 ((0x3FF * 2 ^ 46 + 60) / 2 ^ 46)) = (sd0 (seg 0 64 1 9)).own)
    ∧ (Ready cached0 0 [15, 1] 2 ∧ segAt cached0 false 63 1 = .ok (.mem 0 63) ∧ (cached0.core 0).lsu.dis = false
      ∧ (cached0.core 0).lsu.hit (lineOf (mkFAddr 0x3FF 63)) = some 3 ∧ (Table.look (cached0.core 0).lsu.lines 3).isSome) :=
  ⟨⟨ready_of (by decide), by decide, by rfl, by decide⟩, ⟨ready_of (by decide), by rfl, by decide, by decide, by decide⟩⟩

/-- A store-buffer entry for the bytes 0 to 3 of a line. -/
def entry (line : BitVec 50) : SbEntry := { line, mask := 15, bytes := 0, ctrl := false, pc := 0, sd := 0, addr := mkFAddr 0x3FF (line.toNat * 64), width := 4 }

theorem witness_ScalarStores :
    (∀ es ∈ [[], [entry (lineOf (mkFAddr 0x3FF 0))], List.replicate 8 (entry 1)],
      let s := with0 { kern with cpu := { kern.cpu with sds := [(0, seg 0 64 0 10)] }, lsu := { sbuf := es } }
      Ready s 0 [15, 1] 2 ∧ segAt s true 60 4 = .ok (.mem 0 60) ∧ s.coreOn 0 = true)
    ∧ lineOf (mkFAddr 0x3FF 60) = (entry (lineOf (mkFAddr 0x3FF 0))).line ∧ lineOf (mkFAddr 0x3FF 60) ≠ (entry 1).line
    ∧ base.resolveDev (devOf (BitVec.ofNat 56 ((entry (lineOf (mkFAddr 0x3FF 0))).line.toNat * 64))) = base.own := by
  refine ⟨?_, by decide, by decide, by decide⟩
  intro es hes; simp only [List.mem_cons, List.not_mem_nil, or_false] at hes
  obtain rfl | rfl | rfl := hes <;> exact ⟨ready_of (by decide), by rfl, by decide⟩

/-- Core 0 with sd0 a MEM segment at 0 and this load and store side. -/
def lsu0 (l : Lsu) : State := with0 { kern with cpu := { kern.cpu with sds := [(0, seg 0 4096 0 11)] }, lsu := l }

/-- A fill of a line in flight. -/
def filling (line : BitVec 50) (pref : Bool) : Fill := { tid := 0, line, pref, soft := none, waiters := [], mask := 0, merged := 0, dropped := false }

/-- A MEM access to line 0 that misses the cache: a side-buffer hit, a fill to join, a miss to start, a fifth miss, a prefetch and a ninth prefetch. -/
theorem witness_ScalarLoads_miss :
    let line := lineOf (mkFAddr 0x3FF 60)
    (∀ l ∈ [({ side := [(line, 0x80)] } : Lsu), { fills := [filling line false] }, {}, { fills := List.replicate 4 (filling 1 false) }, { fills := List.replicate 8 (filling 1 true) }],
      Ready (lsu0 l) 0 [15, 1] 2 ∧ Ready (lsu0 l) 0 [0, 1] 2 ∧ segAt (lsu0 l) false 60 4 = .ok (.mem 0 60) ∧ segAt (lsu0 l) true 60 4 = .ok (.mem 0 60) ∧ l.dis = false ∧ l.hit line = none)
    ∧ ({ side := [(line, 0x80)] } : Lsu).sideHit line = some 0x80
    ∧ ({ fills := [filling line false] } : Lsu).filling line = true
    ∧ ({} : Lsu).filling line = false ∧ ({} : Lsu).misses < 4 ∧ ({} : Lsu).prefs + ({} : Lsu).pfd.toNat ≤ 8 ∧ (line + BitVec.ofNat 50 1).toNat * 64 < (mkFAddr 0x3FF 0).toNat + 4096
    ∧ 4 ≤ ({ fills := List.replicate 4 (filling 1 false) } : Lsu).misses ∧ ({ fills := List.replicate 4 (filling 1 false) } : Lsu).filling line = false
    ∧ 8 ≤ ({ fills := List.replicate 8 (filling 1 true) } : Lsu).prefs ∧ ({ fills := List.replicate 8 (filling 1 true) } : Lsu).filling line = false := by
  refine ⟨?_, ?_, ?_, ?_, ?_, ?_, ?_, ?_, ?_, ?_, ?_⟩
  · intro l hl; simp only [List.mem_cons, List.not_mem_nil, or_false] at hl
    obtain rfl | rfl | rfl | rfl | rfl := hl <;> exact ⟨ready_of (by decide), ready_of (by decide), by rfl, by rfl, by decide, by decide⟩
  all_goals decide +kernel

/-- A store through a CTRL segment to another core's control region, with room in the store buffer and without. -/
theorem witness_ScalarStores_control :
    (∀ es ∈ [[], List.replicate 8 (entry 1)],
      let s := with0 { kern with cpu := { kern.cpu with sds := [(0, seg 0x200000010000 64 3 10)] }, lsu := { sbuf := es } }
      Ready s 0 [15, 1] 2 ∧ segAt s true 60 4 = .ok (.coreCtl 1 60) ∧ (Target.coreCtl 1 60 ≠ .coreCtl (0 : CoreId).toNat 60))
    ∧ base.resolveDev (devOf { entry 1 with ctrl := true, addr := mkFAddr 0x3FF 0x20000001003C }.addr) = base.own := by
  refine ⟨?_, by decide⟩
  intro es hes; simp only [List.mem_cons, List.not_mem_nil, or_false] at hes
  obtain rfl | rfl := hes <;> exact ⟨ready_of (by decide), by rfl, by decide⟩

theorem witness_CacheControl : cached0.coreOn (0 : CoreId).toNat = true ∧ (0xFC00000000000040 : DWord).getLsbD 0 = false
    ∧ (0xFFFFC00000000000 : DWord).getLsbD 0 = false ∧ (0xFFFFC00000000000 : DWord).extractLsb' 46 10 = 0x3FF := by decide

/-! ## Matrix engines -/

theorem witness_SpecialAddends :
    (FVal.nan ∈ fp32.decode (0x7FC00001 : Word).toNat :: [])
    ∧ (let xs := fp32.decode (0x7F800000 : Word).toNat :: [FVal.inf true]
       FVal.nan ∉ xs ∧ FVal.inf false ∈ xs ∧ FVal.inf true ∈ xs)
    ∧ (let xs := fp32.decode (0x7F800000 : Word).toNat :: [FVal.fin false 1 0]
       FVal.nan ∉ xs ∧ FVal.inf false ∈ xs ∧ FVal.inf true ∉ xs)
    ∧ (let xs := fp32.decode (0xFF800000 : Word).toNat :: []
       FVal.nan ∉ xs ∧ FVal.inf false ∉ xs ∧ FVal.inf true ∈ xs)
    ∧ (FVal.fin true 0 5).isZero = true
    ∧ ({ side := BitVec.ofNat 256 (2 ^ 256 - 1) } : Row).side.extractLsb' (8 * (1023 / 32)) 8 = 0xFF := by
  refine ⟨by decide, by decide, by decide, by decide, by decide, by decide +kernel⟩

theorem witness_StepErrorNotPositive :
    (∀ x ∈ fp32.decode (0x3F800000 : Word).toNat :: [FVal.fin true 1 (-30)], ∃ n k i, x = .fin n k i ∧ (-100 : Int) ≤ i)
      ∧ ∃ neg m e, fp32.decode (accStep 0x3F800000 [FVal.fin true 1 (-30)]).toNat = .fin neg m e ∧ m ≠ 0 ∧ (-100 : Int) ≤ e := by
  refine ⟨?_, ?_⟩
  · intro x hx
    simp only [List.mem_cons, List.not_mem_nil, or_false] at hx
    obtain rfl | rfl := hx
    · exact ⟨false, 0x800000, -23, by decide, by decide⟩
    · exact ⟨true, 1, -30, rfl, by decide⟩
  · exact ⟨false, 0xFFFFF0, -24, by decide, by decide, by decide⟩

/-- Core 0 with these words in g2, g3 and g4, and tile FA0 as given. -/
def mm0 (l r msh : Word) (t : Tile) : State :=
  with0 { kern with cpu := { kern.cpu with regs := [(2, l), (3, r), (4, msh)] }, mat := { fa0 := t } }
/-- FA0 in use with a shape. -/
def shaped (m n : BitVec 5) (row : BitVec 16) : Tile := { inuse := true, ms := m, ns := n, srow := row }

theorem witness_MatrixMultiplies :
    (Ready (mm0 0x10000000 0x14000000 0x000003EF { ms := 15 }) 0 [2, 3, 4] 2 ∧ (2 : Reg).toNat % 2 = 0 ∧ (((mm0 0x10000000 0x14000000 0x000003EF { ms := 15 }).core 0).mat.eng (engOf 0)).used < 2
      ∧ CanEnter (mm0 0x10000000 0x14000000 0x000003EF { ms := 15 }) 0 ∧ mmShape { ms := 15 } 0 0x10000000 0x14000000 0x000003EF true = none
      ∧ passCount 0x10000000 0x14000000 0x000003EF = 0 + 1 ∧ passCount 0x10000000 0x14000000 0x00004000 = 2)
    ∧ (mmShape (shaped 15 31 0) 0 0x10000000 0x14000000 0x000003EF false = none)
    ∧ (let k : Core := { kern with run := { kern.run with hold := .mm 0 0x10000000 0x14000000 0x00004000 true 1 2 0 } }
       let s := with0 k
       (s.core 0).run.hold = .mm 0 0x10000000 0x14000000 0x00004000 true 1 2 0 ∧ s.coreOn (0 : CoreId).toNat = true ∧ (s.core 0).run.st = .running ∧ s.beat.frz = false
         ∧ ((s.core 0).mat.eng (engOf 0)).used < 2 ∧ (s.core 0).run.stopRq = false ∧ (s.core 0).run.due = none ∧ 1 < 0x10000)
    ∧ mmShape { ms := 15 } 0 0x10000000 0x14000000 0x00000010 true = some (0, 0x00000010)
    ∧ mmShape { ms := 15 } 0 0 0x14000000 0 true = some (1, 0) ∧ mmShape { ms := 15 } 0 0x10000000 0x24000000 0 true = some (1, 0x24000000)
    ∧ mmShape { ms := 15 } 0 0x90000000 0x94000000 0 true = some (2, 0x90000000) ∧ mmShape { ms := 15 } 0 0x10000000 0x90000000 0 true = some (2, 0x90000000)
    ∧ mmShape { ms := 15 } 0 0x53000000 0x14000000 0 true = some (3, 0x53000000) ∧ mmShape { ms := 15 } 0 0x10000000 0x53000000 0 true = some (4, 0x53000000)
    ∧ mmShape { ms := 15 } 0 0x10000000 0x14000000 0x0000000F false = some (5, 0x0000000F) ∧ mmShape (shaped 15 31 0) 0 0x10000000 0x14000000 0x0000000F false = some (6, 0x0000000F)
    ∧ mmShape (shaped 15 31 1) 0 0x10000000 0x14000000 0x000003EF false = some (7, 0x000003EF) :=
  ⟨⟨ready_of (by decide), by decide, by decide, enter_of (by decide), by decide, by decide, by decide⟩, by decide, by decide, by decide, by decide, by decide, by decide, by decide,
   by decide, by decide, by decide, by decide, by decide⟩

/-- A pass of FA0 over BF16 rows with one group. -/
def pass1 (clr : Bool) : Pass := { tile := 0, left := 0x04000000, right := 0x04010000, msh := 0, clr, idx := 0 }

theorem witness_PassesAndDrain :
    (∀ clr, let s := with0 { kern with mat := { f := { queue := [pass1 clr] } } }
      s.coreOn (0 : CoreId).toNat = true ∧ s.beat.frz = false ∧ ((s.core 0).mat.eng .f).queue = [pass1 clr] ∧ ((s.core 0).mat.eng .f).tail = none ∧ ((s.core 0).mat.eng .f).array = none ∧ engOf (pass1 clr).tile = .f
        ∧ (∀ r ∈ passRows (pass1 clr).left false 1 0, ((s.core 0).row (modPad (pass1 clr).left) r).err = .clean)
        ∧ (∀ r ∈ passRows (pass1 clr).right false 1 0, ((s.core 0).row (modPad (pass1 clr).right) r).err = .clean)
        ∧ (passRows (pass1 clr).left false 1 0)[(pass1 clr).lrows.length]? = some 0 ∧ ((s.core 0).row (modPad (pass1 clr).left) 0).err = .clean
        ∧ (passRows (pass1 clr).right false 1 0)[(pass1 clr).rrows.length]? = some 1)
    ∧ ({ pass1 true with lrows := [Row.zero] }).want false = none
    ∧ (let e : EngineSt := { array := some { pass := pass1 true, lrows := [Row.zero], rrows := [Row.zero] } }
       e.tail = none ∧ e.array = some { pass := pass1 true, lrows := [Row.zero], rrows := [Row.zero] })
    ∧ (let e : EngineSt := { tail := some { pass := pass1 false, lrows := [Row.zero], rrows := [Row.zero] } }
       e.tail = some { pass := pass1 false, lrows := [Row.zero], rrows := [Row.zero] })
    ∧ (Ready base 0 [] 2 ∧ ((base.core 0).mat.tile 0).busy = false ∧ ((with0 { kern with mat := { fa0 := { ms := 15, busy := true } } }).core 0).mat.fa0.busy = true)
    ∧ (Ready base 0 [1] 2 ∧ fmtReserved 0xF = false ∧ CanEnter base 0 ∧ (base.core 0).passReads .a = false ∧ ((base.core 0).mat.tile 0).inuse = false)
    ∧ (let s := with0 { kern with cpu := { kern.cpu with regs := [(1, 0x17C)] }, mat := { fa0 := shaped 15 31 0 } }
       Ready s 0 [1] 2 ∧ ((s.core 0).mat.tile 0).inuse = true ∧ ((s.reg 0 1).extractLsb' 0 9).toNat + (16 * 32 + epr 0 - 1) / epr 0 = 384)
    ∧ (let s := with0 { kern with cpu := { kern.cpu with regs := [(1, 0x17D)] }, mat := { fa0 := shaped 15 31 0 } }
       CanEnter s 0 ∧ ¬ ((s.reg 0 1).extractLsb' 0 9).toNat + (16 * 32 + epr 0 - 1) / epr 0 ≤ 384) :=
  ⟨by intro clr; cases clr <;> decide, by decide, ⟨rfl, rfl⟩, rfl, ⟨ready_of (by decide), by decide, by decide⟩, ⟨ready_of (by decide), by decide, enter_of (by decide), by decide, by decide⟩,
   ⟨ready_of (by decide), by decide, by decide⟩, ⟨enter_of (by decide), by decide⟩⟩

/-- Core 0 with sd0 a ROW segment over scratchpad W of core `n` from row 0. -/
def rows0 (n lim : Nat) : State := sd0 (seg (0x100000000000 + n * 0x100000) lim 2 11)

/-- The move of tile FA0 through core 0's sd0 at row `r`. -/
def move0 (s : State) (store : Bool) (r : Nat) : TileMove := { rows1 0 with store, desc := Table.get 0 (s.core 0).cpu.sds 0, next := r }
/-- Row `r` of sd0 at offset 0 lies on this device. -/
def ownB (s : State) (r : Nat) : Bool :=
  decide (s.resolveDev (BitVec.ofNat 10 ((sdBase (Table.get 0 (s.core 0).cpu.sds 0) + 0 + 512 * r) / 2 ^ 46)) = s.own)

set_option maxRecDepth 8000 in
theorem witness_TileTransfers :
    (∀ n ∈ [0, 1], ∀ w ∈ [false, true], ∀ r ∈ [0, 3],
      let s := rows0 n 2048
      Ready s 0 [1] 2 ∧ ((s.core 0).mat.tile 0).busy = false ∧ ((s.core 0).mat.tile 0).srow.toNat < 4 ∧ (s.core 0).passReads .w = false ∧ (s.core 0).passReads .a = false
        ∧ (Table.get 0 (s.core 0).cpu.sds 0).extractLsb' 56 2 = 2 ∧ ownB s r = true ∧ segAt s w (0 + 512 * r) 512 = .ok (.data n .w r 0)
        ∧ segCheck s 0 (move0 s w r).sd (move0 s w r).desc (move0 s w r).store ((move0 s w r).off + 512 * (move0 s w r).next) 512 = .ok (.data n .w r 0)
        ∧ ((s.core 0).row .w r).err = .clean)
    ∧ (1 : Nat) ≠ (0 : CoreId).toNat
    ∧ (∀ w ∈ [false, true], let s := rows0 0 511
      Ready s 0 [1] 2 ∧ CanEnter s 0 ∧ trips (segAt s w (0 + 512 * 0) 512) = some (4, 4)
        ∧ trips (segCheck s 0 (move0 s w 3).sd (move0 s w 3).desc (move0 s w 3).store ((move0 s w 3).off + 512 * (move0 s w 3).next) 512) = some (4, 4))
    ∧ (Ready (sd0 (seg 0 512 0 11)) 0 [1] 2 ∧ CanEnter (sd0 (seg 0 512 0 11)) 0 ∧ (seg 0 512 0 11).extractLsb' 56 2 ≠ 2) := by
  refine ⟨?_, by decide, ?_, ⟨ready_of (by decide), enter_of (by decide), by decide⟩⟩
  · intro n hn w hw r hr; simp only [List.mem_cons, List.not_mem_nil, or_false] at hn hw hr
    obtain rfl | rfl := hn <;> obtain rfl | rfl := hw <;> obtain rfl | rfl := hr <;>
      exact ⟨ready_of (by decide), by decide, by decide, by decide, by decide, by decide, by decide, by rfl, by rfl, by decide⟩
  · intro w hw; simp only [List.mem_cons, List.not_mem_nil, or_false] at hw
    obtain rfl | rfl := hw <;> exact ⟨ready_of (by decide), enter_of (by decide), by decide, by decide⟩

/-! ## Vector unit -/

theorem witness_LanesAndTables :
    (Ready base 0 [] 2 ∧ (0 : BitVec 2).toNat ≠ 3 ∧ (2 : BitVec 2).toNat ≠ 3 ∧ (1 : BitVec 2).toNat < 2 ∧ (3 : BitVec 2).toNat = 3 ∧ CanEnter base 0)
    ∧ ofFp32 0x7FC00000 = .nan ∧ ofFp32 0x7F800000 ≠ .nan ∧ ((0x0 : Word).extractLsb' 0 2).toNat = 0 ∧ ((0x3 : Word).extractLsb' 0 2).toNat = 3
    ∧ (let q (x : Word) := ofFp32 (mul32 (add32 x (0 ^^^ 0x80000000)) 0x3F800000)
       (q 0xBF800000).lt (.fin false 0 0) = true ∧ (q 0x43000000 ≠ .nan ∧ (q 0x43000000).lt (.fin false 128 0) = false)
         ∧ ((q 0x42FF0000).lt (.fin false 127 0) = false ∧ (q 0x42FF0000).lt (.fin false 128 0) = true))
    ∧ (ofFp32 (mul32 0xFF800000 0x3F800000) = .inf true ∧ ofFp32 (mul32 0x7F800000 0x3F800000) = .inf false)
    ∧ ((ofFp32 0x80800000).lt (.fin false 0 0) = true ∧ (ofFp32 0x80000000).isZero = true ∧ ofFp32 0x7F800000 = .inf false) :=
  ⟨⟨ready_of (by decide), by decide, by decide, by decide, by decide, enter_of (by decide)⟩, by decide, by decide, by decide, by decide, by decide, by decide, by decide⟩

theorem witness_VectorMoves :
    (Ready (rows0 0 512) 0 [1, 2] 2 ∧ fmtReserved 0 = false ∧ fmtReserved 15 = false
      ∧ (rows0 0 512).resolveDev (BitVec.ofNat 10 ((sdBase (Table.get 0 ((rows0 0 512).core 0).cpu.sds 0) + ((rows0 0 512).reg 0 1).toNat) / 2 ^ 46)) = (rows0 0 512).own
      ∧ segAt (rows0 0 512) false 0 512 = .ok (.data 0 .w 0 0) ∧ segAt (rows0 0 512) true 0 512 = .ok (.data 0 .w 0 0) ∧ (((rows0 0 512).core 0).row .w 0).err = .clean
      ∧ ((rows0 0 512).core 0).passReads .w = false)
    ∧ (Ready base 0 [] 2 ∧ ((base.core 0).mat.tile 3).busy = false) ∧ (Ready base 0 [15] 2 ∧ (2 : BitVec 2) ≠ 3) :=
  ⟨⟨ready_of (by decide), by decide, by decide, by decide, by rfl, by rfl, by decide, by decide⟩, ⟨ready_of (by decide), by decide⟩, ⟨ready_of (by decide), by decide⟩⟩

/-! ## Queue units -/

/-- A routing entry: KIND, CM, NODE, LROW, LMEM, ENA and CRED of core 0's own device. -/
def sct (kind cm node lrow lmem ena cred : Nat) : DWord :=
  BitVec.ofNat 64 (kind * 2 ^ 62 + cm * 2 ^ 61 + 0x3FF * 2 ^ 51 + node * 2 ^ 41 + lmem * 2 ^ 36 + lrow * 2 ^ 26 + ena * 2 ^ 19 + cred)
/-- Core 0 with routing entry 0 as given and the source row and landing row words in g1 and g2. -/
def send0 (e : DWord) (src land : Word) : State := with0 { kern with cpu := { kern.cpu with regs := [(1, src), (2, land)] }, que := { sct := [(0, e)] } }

theorem witness_QueueSends :
    (Ready (send0 (sct 0 1 0 0 0 1 15) 0 0) 0 [1, 0] 2 ∧ Ready (send0 (sct 0 1 0 0 0 1 14) 0 0) 0 [1, 0] 2
      ∧ (((send0 (sct 0 1 0 0 0 1 15) 0 0).core 0).row .w 7).err = .clean ∧ (sct 0 1 0 0 0 1 15).extractLsb' 0 12 = 15 ∧ 2 * 8 - 1 = 15 ∧ (sct 0 1 0 0 0 1 15).extractLsb' 62 2 = 0
      ∧ (sct 0 1 0 0 0 1 15).getLsbD 61 = true ∧ (sct 0 1 0 0 0 1 15).getLsbD 19 = true
      ∧ (send0 (sct 0 1 0 0 0 1 15) 0 0).resolveDev ((sct 0 1 0 0 0 1 15).extractLsb' 51 10) = (send0 (sct 0 1 0 0 0 1 15) 0 0).own)
    ∧ (Ready (send0 (sct 0 0 0 0 0 0 0) 0 0) 0 [1, 0] 2 ∧ CanEnter (send0 (sct 0 0 0 0 0 0 0) 0 0) 0 ∧ (sct 0 0 0 0 0 0 0).getLsbD 19 = false)
    ∧ (Ready (send0 (sct 3 0 0 383 0 1 0) 767 0) 0 [1, 2] 2 ∧ (sct 3 0 0 383 0 1 0).extractLsb' 62 2 = 3 ∧ 383 + 0 + 1 ≤ Pad.a.rows ∧ 767 + 1 ≤ Pad.w.rows ∧ (2 : BitVec 2) ≠ 3
      ∧ (((send0 (sct 3 0 0 383 0 1 0) 767 0).core 0).row .w 767).err = .clean)
    ∧ (CanEnter (send0 (sct 3 0 0 384 0 1 0) 767 0) 0 ∧ Pad.a.rows < 384 + 0 + 1)
    ∧ (send0 (sct 0 1 0 0 0 1 15) 0 0).net.length + 8 ≤ 8 ∧ (send0 (sct 0 1 0 0 0 1 15) 0 0).coreOn 0 = true :=
  ⟨⟨ready_of (by decide), ready_of (by decide), by decide, by decide, by decide, by decide, by decide, by decide, by decide⟩, ⟨ready_of (by decide), enter_of (by decide), by decide⟩,
   ⟨ready_of (by decide), by decide, by decide, by decide, by decide, by decide⟩, ⟨enter_of (by decide), by decide⟩, by decide, by decide⟩

/-- A record of one row at row 0 of its ring. -/
def rec1 (landed : BitVec 8) : MsgRec := { key := { dev := 0x3FF, node := 1, port := 1, entry := 0, msgid := 0 }, start := 0, len := 1, waste := 0, landed, cm := true, lsem := 0x3F }

theorem witness_QueueCommands :
    (Ready base 0 [0] 2 ∧ (Table.get 0 (base.core 0).que.rcfg 15 : Word).getLsbD 31 = false)
    ∧ (let s := with0 { kern with que := { rcfg := [(0, 0x80000010)], rings := [(0, { w := 1, occ := 1, recs := [rec1 1] })] } }
       Ready s 0 [15] 2 ∧ (Table.get 0 (s.core 0).que.rcfg 0 : Word).getLsbD 31 = true ∧ (Table.get {} (s.core 0).que.rings 0).recs = rec1 1 :: [] ∧ (rec1 1).landed.toNat = 2 ^ (rec1 1).len - 1)
    ∧ (let k : Core := { kern with run := { kern.run with wait := .send 31 }, que := { qswc := 0x100000 } }
       let s := with0 k
       (s.core 0).run.wait = .send 31 ∧ s.coreOn (0 : CoreId).toNat = true ∧ (s.core 0).que.ssdEn = true ∧ (s.core 0).que.stalled = false ∧ 2 ^ (s.core 0).que.ssdLog.toNat ≤ (s.core 0).que.qswc.toNat) :=
  ⟨⟨ready_of (by decide), by decide⟩, ⟨ready_of (by decide), by decide, by decide, by decide⟩, by decide⟩

/-! ## Packets -/

/-- A packet to a node and port for a local address, from core 1. -/
def pk (kind : PKind) (dst : NodeId) (dport : BitVec 3) (a : Nat) : Packet := { kind, dst, dport, ddev := 0x3FF, src := 1, sport := 1, sdev := 0x3FF, addr := mkFAddr 0x3FF a }
/-- The machine after reset with core 0 as given and one packet in flight. -/
def fly (k : Core) (p : Packet) : State := { with0 k with net := [p] }

theorem arrives_of {k : Core} {p : Packet} (h : ((fly k p).mayArrive 0 p && (fly k p).dstOn p) = true) : Arrives (fly k p) 0 p := by
  simp only [Bool.and_eq_true] at h
  exact ⟨rfl, h.1, h.2⟩

/-- Row 0 of a one-row message for ring 0 (kind 0) or to row 0 of scratchpad A (kind 1) of core 0. -/
def msg (kind l i : Nat) (a : Nat) : Packet := { pk .msg 0 1 a with op6 := BitVec.ofNat 32 (i * 2 ^ 22 + (l - 1) * 2 ^ 19 + 1 * 2 ^ 18 + kind * 2 ^ 6) }
/-- Ring 0 of 8 rows from row 0 of A, enabled and credited, with this run-time state. -/
def ringed (r : Ring) : Core := { kern with que := { rcfg := [(0, 0xC0000008)], rings := [(0, r)] } }

theorem witness_RingAllocation :
    (∀ k ∈ [kern, ringed {}, ringed { w := 7, occ := 1 }, ringed { w := 0, occ := 8 }], ∀ p ∈ [msg 0 1 0 0x100000000000, msg 1 1 0 0x100000060000, msg 2 1 0 0x100000060000],
      Arrives (fly k p) 0 p ∧ p.kind = .msg ∧ p.dst.toNat < 1024 ∧ p.psn = false ∧ (p.op6.extractLsb' 22 3).toNat = 0 ∧ k.que.ingress = [])
    ∧ targetOf ((msg 0 1 0 0x100000000000).addr.toNat % 2 ^ 46) = .data (0 : CoreId).toNat .w 0 0 ∧ targetOf ((msg 1 1 0 0x100000060000).addr.toNat % 2 ^ 46) = .data (0 : CoreId).toNat .a 0 0
    ∧ (Table.get 0 kern.que.rcfg 0 : Word).getLsbD 31 = false ∧ (Table.get 0 (ringed {}).que.rcfg 0 : Word).getLsbD 31 = true ∧ ((Table.get 0 (ringed {}).que.rcfg 0 : Word).extractLsb' 0 9).toNat = 0 + 8
    ∧ (∀ m ∈ (Table.get {} (ringed { w := 7, occ := 1 }).que.rings 0).recs, m.landed.toNat = 2 ^ m.len - 1) := by
  refine ⟨?_, by decide, by decide, by decide, by decide, by decide, by decide⟩
  intro k hk p hp
  simp only [List.mem_cons, List.not_mem_nil, or_false] at hk hp
  obtain rfl | rfl | rfl | rfl := hk <;> obtain rfl | rfl | rfl := hp <;> exact ⟨arrives_of (by decide), by decide, by decide, by decide, by decide, by decide⟩

theorem witness_RingAllocation_tight :
    256 ≤ ((List.replicate 256 (rec1 1)) ++ ([] : List MsgRec)).length ∧ 16 ≤ ((List.replicate 16 (rec1 0)).filter (fun m => !decide (m.landed.toNat = 2 ^ m.len - 1))).length := by
  refine ⟨?_, by decide⟩
  rw [List.append_nil, List.length_replicate] <;> exact Nat.le_refl _

/-- A record of an eight-row message of core 1 whose row 7 is still to come. -/
def rec8 : MsgRec := { key := { dev := 0x3FF, node := 1, port := 1, entry := 0, msgid := 0 }, start := 0, len := 8, waste := 0, landed := 0x7F, cm := true, lsem := 47 }
/-- An enabled combining queue 0 over 2 rows from row 0 of A, with SEM 0 and this status. -/
def combining (exp : BitVec 24) (st : CqStat) : Core := { kern with que := { cqcfg := [(0, 0x80000200)], cqstat := [(0, st)], cqexp := [(0, exp)] } }
/-- A contribution of one to row `r` of A of core 0 for combining queue 0. -/
def contrib (r : Nat) : Packet := { pk .cmb 0 1 (0x100000060000 + 512 * r) with red := true, cnt := 1 }

theorem witness_LandingRows :
    (∀ k ∈ [kern, ringed { w := 0, occ := 8, recs := [rec8] }, { kern with que := { direct := [rec8] } }], ∀ p ∈ [msg 0 8 7 0x100000000E00, msg 1 8 7 0x100000060E00],
      Arrives (fly k p) 0 p ∧ p.kind = .msg ∧ p.dst.toNat < 1024 ∧ p.psn = false ∧ (p.op6.extractLsb' 22 3).toNat ≠ 0 ∧ k.que.ingress = [])
    ∧ (rec8.landed.getLsbD 7 = false ∧ rec8.landed.toNat ≠ 2 ^ rec8.len - 1 ∧ 7 < rec8.len)
    ∧ targetOf ((msg 1 8 7 0x100000060E00).addr.toNat % 2 ^ 46) = .data (0 : CoreId).toNat .a 7 0 ∧ targetOf ((msg 0 8 7 0x100000000E00).addr.toNat % 2 ^ 46) = .data (0 : CoreId).toNat .w 7 0
    ∧ (∀ k ∈ [combining 1 {}, combining 2 {}, combining 1 { done := true, cnt := 1 }], ∀ p ∈ [contrib 1, contrib 2],
      Arrives (fly k p) 0 p ∧ p.kind = .cmb ∧ p.dst.toNat < 1024 ∧ (p.psn = false ∨ p.red = true) ∧ k.que.ingress = [] ∧ (k.row .a 1).err = .clean)
    ∧ targetOf ((contrib 1).addr.toNat % 2 ^ 46) = .data (0 : CoreId).toNat .a 1 0 ∧ targetOf ((contrib 2).addr.toNat % 2 ^ 46) = .data (0 : CoreId).toNat .a 2 0
    ∧ (let cfg : Word := Table.get 0x3F (combining 1 {}).que.cqcfg 0
       cfg.getLsbD 31 = true ∧ cfg.getLsbD 27 = false ∧ (cfg.extractLsb' 17 10).toNat = 0 ∧ (cfg.extractLsb' 8 9).toNat = 2)
    ∧ Arrives (fly kern (pk .crd 0 1 0)) 0 (pk .crd 0 1 0) := by
  refine ⟨?_, by decide, by decide, by decide, ?_, by decide, by decide, by decide, arrives_of (by decide)⟩
  all_goals
    intro k hk p hp
    simp only [List.mem_cons, List.not_mem_nil, or_false] at hk hp
    obtain rfl | rfl | rfl := hk <;> obtain rfl | rfl := hp <;> exact ⟨arrives_of (by decide), by decide, by decide, by decide, by decide, by decide⟩

/-- Table 11.9: core 665 at row 20, column 25 and core 131 at row 4, column 3 reach stack 3 (u = 3 of the west rim). -/
theorem test_paths :
    (pathOf 0x1234 (.core 20 25) (.unit false 3)).length = 13 ∧ (pathOf 0x12_3456_B8C0 (.core 20 25) (.unit false 3)).head? = some { col := false, ring := 20, pos := 21, up := true }
    ∧ oneWay false 0x12_3456_B8C0 (.core 20 25) (.unit false 3) = 36 ∧ oneWay true 0x12_3456_B8C0 (.core 20 25) (.unit false 3) = 45
    ∧ oneWay false 0x12_3456_B8C0 (.core 4 3) (.unit false 3) = 11 ∧ oneWay false 0x12_3456_BAC0 (.core 4 3) (.unit false 3) = 13
    ∧ (pathOf 0x12_3456_BAC0 (.core 4 3) (.unit false 3)).map (fun l => (l.col, l.ring, l.pos)) = [(true, 3, 3), (true, 3, 2), (true, 3, 1)] := by decide +kernel

theorem witness_Routes :
    (false = decide (16 ≤ 3) ∧ (4 + 3 + 3 + (if (0x12_3456_BAC0 : FAddr).getLsbD 9 then 1 else 0)) % 2 = 1)
    ∧ (false = decide (16 ≤ 3) ∧ ¬ (4 + 3 + 3 + (if (0x12_3456_B8C0 : FAddr).getLsbD 9 then 1 else 0)) % 2 = 1) ∧ ¬ (false = decide (16 ≤ 25)) := by decide

/-- A contribution of one that stands after `h` links of its way from core 1 to core 0, with this wait. -/
def onWay (h w : Nat) : Packet := { contrib 0 with hop := h, ready := 1, wait := w }

theorem witness_FabricDelivery :
    (let q := pk .wr 0x400 0 0
     let p := { pk .rd 0x400 0 0 with ord := false }
     let s : State := { base with net := [q, p] }
     s.net[1]? = some p ∧ s.net[0]? = some q ∧ (q.src = p.src ∧ q.sport = p.sport ∧ q.sdev = p.sdev ∧ q.dst = p.dst ∧ q.dport = p.dport ∧ q.ddev = p.ddev) ∧ q.vc = p.vc ∧ q.route = p.route)
    ∧ (let p := { pk .wr 0x400 0 0 with ord := true }
       let q := { (pk .sack 0 0 0) with src := 0x400, dst := 1, sport := 0, dport := 1 }
       let s : State := { base with net := [q, p] }
       s.net[1]? = some p ∧ s.net[0]? = some q ∧ p.ord = true ∧ (q.dst = p.src ∧ q.dport = p.sport ∧ q.ddev = p.sdev ∧ q.src = p.dst ∧ q.sport = p.dport ∧ q.sdev = p.ddev) ∧ q.kind = .sack ∧ p.vc ≠ 0)
    ∧ (let s : State := { base with net := [onWay 1 0, onWay 1 0, onWay 1 0, onWay 0 0] }
       s.net[3]? = some (onWay 0 0) ∧ ∃ n l, (onWay 0 0).hop ≤ n ∧ (onWay 0 0).route[n]? = some l ∧ (if (onWay 0 0).vc = 0 then 4 else 3) ≤ s.net.countP (fun x => decide (x.vc = (onWay 0 0).vc) && decide (x.hop ≠ 0) && decide (x.route[x.hop - 1]? = some l)))
    ∧ (let s := fly { kern with que := { ingress := List.replicate 4 (msg 0 1 0 0) } } (msg 0 1 0 0)
       4 ≤ (s.core (BitVec.ofNat 10 (msg 0 1 0 0).dst.toNat)).que.ingress.length ∧ (msg 0 1 0 0).dport = 1)
    ∧ (∀ p ∈ [pk .sem 0 3 0, pk .crd 0 1 0, pk .sack 0 0 0, pk .rd 0x400 0 0, pk .wr 0x400 0 0], (fly kern p).net[0]? = some p ∧ (fly kern p).mayArrive 0 p = true ∧ (fly kern p).dstOn p = true)
    ∧ targetOf ((pk .rd 0x400 0 0).addr.toNat % 2 ^ 46) = .mem 0 0
    ∧ (∀ p ∈ [pk .rd 0 1 0, pk .wr 0 1 0, pk .sem 0 3 0, contrib 0, pk .crd 0 1 0], let s : State := { fly kern p with dev := { map := 0 } }
       s.net[0]? = some p ∧ s.mayArrive 0 p = true ∧ s.dstOn p = false) ∧ (pk .sem 0 3 0).op6.extractLsb' 28 4 = 0 ∧ (contrib 0).red = true := by
  refine ⟨⟨rfl, rfl, by decide, by decide, by decide⟩, ⟨rfl, rfl, rfl, by decide, rfl, by decide⟩, ⟨rfl, 0, { col := false, ring := 0, pos := 33, up := true }, by decide, by decide, by decide⟩, by decide, ?_, by decide, ?_, by decide, by decide⟩ <;>
  · intro p hp
    simp only [List.mem_cons, List.not_mem_nil, or_false] at hp
    obtain rfl | rfl | rfl | rfl | rfl := hp <;> exact ⟨rfl, by decide, by decide⟩

/-- Hypotheses of the clauses of Merging in FabricDelivery: a pair that meets, an unlike pair, a queued first, another output; a starved packet and one that is not. -/
theorem witness_Merging :
    (let s : State := { base with net := [{ onWay 1 0 with cnt := 0xFFFE }, onWay 0 0] }
     s.meets 1 { onWay 1 0 with cnt := 0xFFFE } (onWay 0 0) = true ∧ ({ onWay 1 0 with cnt := 0xFFFE } : Packet).cnt.toNat + (onWay 0 0).cnt.toNat ≤ 65535 ∧ (onWay 1 0).kind = .cmb ∧ (onWay 1 0).red = true)
    ∧ ((onWay 0 0).hop = 0 ∧ (onWay 0 0).via = none ∧ (onWay 0 0).src.toNat < 1024)
    ∧ ((onWay 1 0).route[(onWay 1 0).hop]? = some { col := false, ring := 0, pos := 0, up := true } ∧ ({ col := false, ring := 0, pos := 0, up := true } : RingLink) ∉ ({ onWay 0 0 with src := 32 } : Packet).route)
    ∧ (let s : State := { base with net := [onWay 0 64, onWay 1 0], beat := { devt := 1 } }
       (onWay 0 64).route[(onWay 0 64).hop]? = some { col := false, ring := 0, pos := 33, up := true } ∧ (onWay 0 64).entering = true ∧ 64 ≤ (onWay 0 64).wait ∧ s.mayHop 0 (onWay 0 64) = true)
    ∧ ((onWay 0 63).wait < 64 ∧ (onWay 1 64).entering = false) := by decide +kernel

/-- R261: two contributions that meet in the router after the first link become one; R257: a packet that has waited 64 cc gets its link. -/
theorem test_merge_and_grant :
    ((match exec (.reduceMerge 0 1) { base with net := [onWay 1 0, onWay 0 0] } with | .next t => t.net.map (fun p => (p.cnt.toNat, p.hop, p.ready)) | _ => []) = [(2, 1, 10)])
    ∧ ((match exec (.antiStarvationGrant 0) { base with net := [onWay 0 64], beat := { devt := 1 } } with | .next t => t.net.map (fun p => (p.hop, p.wait, p.ready)) | _ => []) = [(1, 0, 3)]) := by decide +kernel

theorem witness_TargetRequests :
    (∀ p ∈ [pk .rd 0x400 0 0, pk .wr 0x400 0 0, { pk .rd 0x400 0 0 with size := 0 }], Arrives (fly kern p) 0 p ∧ p.psn = false ∧ p.size.toNat < 7 ∧ targetOf (p.addr.toNat % 2 ^ 46) = .mem 0 0)
    ∧ ¬ (∃ b ∈ (fly kern (pk .rd 0x400 0 0)).badMem, (0 : Nat) / 64 ≤ b ∧ b ≤ (0 + 512 - 1) / 64)
    ∧ (∃ b ∈ ({ fly kern (pk .rd 0x400 0 0) with badMem := [7], softMem := [7] } : State).badMem, (0 : Nat) / 64 ≤ b ∧ b ≤ (0 + 512 - 1) / 64)
    ∧ (∀ kd ∈ [PKind.rd, PKind.wr], ∀ a ∈ [0x100000000000, 0x1000000C0000, 0x200000000000], ∀ sz ∈ [(3 : BitVec 4), 4, 6], ∀ bad ∈ [Ecc.clean, .uncorrectable],
        let k := kern.putRow .w 0 { Row.zero with err := bad }
        let p := { pk kd 0 1 a with size := sz }
        Arrives (fly k p) 0 p ∧ p.psn = false ∧ p.dst.toNat = (0 : CoreId).toNat ∧ k.que.ingress = [] ∧ (k.row .w 0).err = bad)
    ∧ targetOf ((pk .rd 0 1 0x100000000000).addr.toNat % 2 ^ 46) = .data (0 : CoreId).toNat .w 0 0 ∧ targetOf ((pk .rd 0 1 0x1000000C0000).addr.toNat % 2 ^ 46) = .side (0 : CoreId).toNat .w 0 0
    ∧ targetOf ((pk .rd 0 1 0x200000000000).addr.toNat % 2 ^ 46) = .coreCtl (0 : CoreId).toNat 0 ∧ { pk .rd 0 1 0x200000000000 with sdev := 0 }.sdev ≠ base.own := by
  refine ⟨?_, by decide, by decide, ?_, by decide, by decide, by decide, by decide⟩
  · intro p hp
    simp only [List.mem_cons, List.not_mem_nil, or_false] at hp
    obtain rfl | rfl | rfl := hp <;> exact ⟨arrives_of (by decide), by decide, by decide, by decide⟩
  · intro kd hkd a ha sz hsz bad hbad
    simp only [List.mem_cons, List.not_mem_nil, or_false] at hkd ha hsz hbad
    obtain rfl | rfl := hkd <;> obtain rfl | rfl | rfl := ha <;> obtain rfl | rfl | rfl := hsz <;> obtain rfl | rfl := hbad <;>
      exact ⟨arrives_of (by decide), rfl, rfl, rfl, by decide +kernel⟩

/-- A load of a word into g1 that waits. -/
def waiting : LoadWait := { reg := 1, width := 4, sext := false, addr := mkFAddr 0x3FF 60, pc := 0, sd := 0 }
/-- A fill that a load awaits. -/
def fill0 (dropped : Bool) : Fill := { tid := 5, line := lineOf (mkFAddr 0x3FF 0), pref := false, soft := none, waiters := [waiting], mask := 0, merged := 0, dropped }

/-- An entry, or with `frame` an escalation, that awaits two more acknowledgements. -/
def saves (frame : Bool) : Saving := { tid := 5, left := 2, frame, cause := 0, pc := 0, faddr := 0, fpc := 0, info := 0 }

theorem witness_AnswersToCores :
    (∀ op ∈ [OutOp.load waiting, .store 0 0 0, .msg 0, .save 5], ∀ kd ∈ [PKind.rdr, .wack, .err], ∀ esc ∈ [false, true],
      let p : Packet := { pk kd 0 0 0 with tid := 5, size := 2 }
      let k : Core := { kern with cpu := { kern.cpu with espAct := esc, espV := true }, lsu := { outs := [(5, op)] }, run := { kern.run with saving := [saves esc] } }
      Arrives (fly k p) 0 p ∧ p.dst.toNat = (0 : CoreId).toNat ∧ p.psn = false ∧ p.dport = 0 ∧ (∃ o ∈ k.lsu.outs, o.1 = p.tid) ∧ (∀ o ∈ k.lsu.outs, o.1 = p.tid → o.2 = op)
        ∧ (∀ f ∈ k.lsu.fills, p.dport = 0 → f.tid ≠ p.tid) ∧ p.size.toNat < 5 ∧ p.red = false ∧ k.run.due = none ∧ k.run.stopRq = false ∧ k.run.stall = false ∧ k.run.hold = .none
        ∧ k.run.st = .running ∧ (op = .load waiting ∨ k.lsu.busy = []) ∧ (fly k p).beat.frz = false ∧ (fly k p).dev.st ≠ .off
        ∧ k.run.saving = [] ++ saves esc :: [] ∧ (saves esc).tid = 5 ∧ (∀ x ∈ [] ++ ([] : List Saving), x.tid ≠ (saves esc).tid ∧ x.left ≠ 0))
    ∧ (∀ d, let p : Packet := { pk .rdr 0 0 0 with tid := 5 }
       let k : Core := { kern with lsu := { fills := [fill0 d] } }
       Arrives (fly k p) 0 p ∧ k.lsu.fills.find? (fun g => decide (g.tid = p.tid)) = some (fill0 d) ∧ p.dport = 0 ∧ waiting.addr.toNat % 64 + waiting.width ≤ 64) := by
  refine ⟨?_, ?_⟩
  · intro op hop kd hkd esc hesc
    simp only [List.mem_cons, List.not_mem_nil, or_false] at hop hkd hesc
    obtain rfl | rfl | rfl | rfl := hop <;> obtain rfl | rfl | rfl := hkd <;> obtain rfl | rfl := hesc <;>
      exact ⟨arrives_of (by decide +kernel), by decide, by decide, by decide, by simp, by simp, by simp, by decide, by decide, by decide, by decide, by decide, by decide,
        by decide, by first | exact Or.inl rfl | exact Or.inr (by decide), by decide, by decide, rfl, rfl, by simp⟩
  · intro d; cases d <;> exact ⟨arrives_of (by decide), rfl, by decide, by decide⟩

/-! ## Synchronisation units -/

/-- A semaphore name word: CORE, SEM and DEV 0x3FF. -/
def snw (core sem : Nat) : Word := BitVec.ofNat 32 (core * 2 ^ 22 + sem * 2 ^ 16 + 0x3FF * 2 ^ 6)
/-- Core 0 with a name word in g1, `n` semaphore operations outstanding, and cluster 0 as given. -/
def sem0 (w : Word) (n : Nat) (y : Sync) : State :=
  { with0 { kern with cpu := { kern.cpu with regs := [(1, w)] }, lsu := { sems := List.replicate n (0, false, 0, 0, 0) } } with clus := [(0, { sync := y })] }
/-- Virtual mode with this translation buffer. -/
def virt (tlb : List (Nat × Word)) (misses : List Nat) : Sync := { vm := true, tlb, misses }

theorem witness_SemaphoreIssue :
    (Ready (sem0 (snw 0 47) 0 {}) 0 [1, 0] 2 ∧ ((sem0 (snw 0 47) 0 {}).clu (clusterOf (0 : CoreId).toNat)).sync.vm = false ∧ ((sem0 (snw 0 47) 0 {}).core 0).lsu.sems.length < 8
      ∧ ((snw 0 47).extractLsb' 16 6).toNat < 48 ∧ (sem0 (snw 0 47) 0 {}).resolveDev ((snw 0 47).extractLsb' 6 10) = (sem0 (snw 0 47) 0 {}).own ∧ ((snw 0 47).extractLsb' 22 10).toNat = (0 : CoreId).toNat)
    ∧ (Ready (sem0 (snw 0 48) 8 {}) 0 [1, 0] 2 ∧ 8 ≤ ((sem0 (snw 0 48) 8 {}).core 0).lsu.sems.length)
    ∧ (Ready (sem0 (snw 0 48) 7 {}) 0 [1, 0] 2 ∧ CanEnter (sem0 (snw 0 48) 7 {}) 0 ∧ ((sem0 (snw 0 48) 7 {}).core 0).lsu.sems.length < 8 ∧ 48 ≤ ((snw 0 48).extractLsb' 16 6).toNat)
    ∧ (let s := with0 { kern with cpu := { kern.cpu with ie := true, intp := 1 }, run := { kern.run with hold := .sem 0 (snw 0 0) true false 0 } }
       s.coreOn (0 : CoreId).toNat = true ∧ (s.core 0).run.st = .running ∧ s.beat.frz = false ∧ (s.core 0).run.hold = .sem 0 (snw 0 0) true false 0 ∧ (s.core 0).cpu.intp &&& (s.core 0).cpu.inte ≠ 0 ∧ (s.core 0).cpu.ie = true
         ∧ (s.core 0).cpu.tsSaved = false ∧ (s.core 0).cpu.espAct = false ∧ (s.core 0).cpu.shadow = false ∧ (s.core 0).cpu.qAct = false)
    ∧ (∀ y ∈ [virt [] [], virt [(4095, 0x8000002F)] [], virt [(4095, 0)] []], Ready (sem0 0x0FFFFFC0 7 y) 0 [1, 0] 2 ∧ CanEnter (sem0 0x0FFFFFC0 7 y) 0 ∧ y.vm = true ∧ ((sem0 0x0FFFFFC0 7 y).core 0).lsu.sems.length < 8)
    ∧ ((0x0FFFFFC0 : Word).extractLsb' 28 4 = 0 ∧ ((0x0FFFFFC0 : Word).extractLsb' 16 12).toNat = 4095 ∧ (0x8000002F : Word).getLsbD 31 = true ∧ ((0x8000002F : Word).extractLsb' 0 6).toNat < 48)
    ∧ (Ready (sem0 0x10000000 0 (virt [] [])) 0 [1, 0] 2 ∧ (0x10000000 : Word).extractLsb' 28 4 ≠ 0)
    ∧ ((sem0 0 0 (virt [] [4095])).cluOn 0 = true ∧ ((sem0 0 0 (virt [] [4095])).clu 0).sync.misses = 4095 :: [] ∧ (1 : DWord).getLsbD 0 = true) := by
  refine ⟨⟨ready_of (by decide), by decide, by decide, by decide, by decide, by decide⟩, ⟨ready_of (by decide), by decide⟩, ⟨ready_of (by decide), enter_of (by decide), by decide, by decide⟩,
    by decide, ?_, by decide, ⟨ready_of (by decide), by decide⟩, by decide⟩
  intro y hy
  simp only [List.mem_cons, List.not_mem_nil, or_false] at hy
  obtain rfl | rfl | rfl := hy <;> exact ⟨ready_of (by decide), enter_of (by decide), by decide, by decide⟩

/-- A SEM packet of operation `op` with value `v` for semaphore 47 of core 0. -/
def semOp (op v : Nat) : Packet := { pk .sem 0 3 (semAddr 0 47) with op6 := BitVec.ofNat 32 (op * 2 ^ 28 + 47 * 2 ^ 18), op7 := BitVec.ofNat 32 v }
/-- The packet in flight, and semaphore 47 of core 0 at `v` with this wait in core 0's slot. -/
def semAt (v : Word) (w : Option WaitSlot) (p : Packet) : State :=
  { fly kern p with clus := [(0, { sync := { sems := [(47, v)], waits := match w with | some x => [(0, x)] | none => [] } })] }
/-- A wait of core 0 for 2 on semaphore 47. -/
def wait2 (sub : Bool) : WaitSlot := { sem := 47, thr := 2, sub, req := semOp 2 2, due := false }

theorem arrives_semAt {v : Word} {w : Option WaitSlot} {p : Packet} (ho : p.ord = false) (h : Arrives (fly kern p) 0 p) : Arrives (semAt v w p) 0 p := by
  refine ⟨rfl, ?_, h.on⟩
  have hm := h.may
  simp only [State.mayArrive, ho, Bool.false_and, Bool.not_false] at hm ⊢
  exact hm

theorem witness_SemaphoreOperations :
    (∀ p ∈ [semOp 0 1, semOp 1 1, semOp 2 1, semOp 3 1, semOp 5 0, semOp 6 0, semOp 0 0x7FFFFFFF], ∀ v w, Arrives (semAt v w p) 0 p ∧ p.kind = .sem ∧ p.dst.toNat < 1024 ∧ p.dport = 3)
    ∧ ((semOp 0 1).op6.extractLsb' 18 6).toNat < 48 ∧ (semOp 0 1).addr.toNat % 2 ^ 46 = 0x200004000000 + clusterOf 0 * 0x10000 + 0 * 0xC0 + 4 * 47
    ∧ (∀ v, Table.get 0 ((semAt v none (semOp 0 1)).clu 0).sync.sems 47 = v)
    ∧ (2 ^ 31 - 1 < (1 : Word).toNat + (semOp 0 0x7FFFFFFF).op7.toNat ∧ (1 : Word).toNat + (semOp 0 1).op7.toNat < 2 ^ 31 ∧ (0 : Word).toNat < (semOp 1 1).op7.toNat ∧ (semOp 1 1).op7.toNat ≤ (1 : Word).toNat)
    ∧ (∀ sub, Table.look ((semAt 1 (some (wait2 sub)) (semOp 0 1)).clu 0).sync.waits 0 = some (wait2 sub) ∧ (wait2 sub).sem = 0 * 48 + 47 ∧ (wait2 sub).thr ≤ (1 : Word).toNat + (semOp 0 1).op7.toNat)
    ∧ ((semAt 1 none (semOp 0 1)).clu 0).sync.watches = [] ∧ ((semAt 1 none (semOp 0 1)).clu 0).sync.chwaits = []
    ∧ ((semOp 2 1).sport ≠ 2 ∧ { semOp 3 1 with sport := 2 }.sport = 2)
    ∧ ((wait2 false).req.src = (semOp 5 0).src ∧ (wait2 false).req.sport = (semOp 5 0).sport ∧ (wait2 false).req.sdev = (semOp 5 0).sdev)
    ∧ (∀ p ∈ [{ semOp 6 0 with addr := mkFAddr 0x3FF 0 }, { semOp 0 1 with addr := mkFAddr 0x3FF 0 }], Arrives (fly kern p) 0 p ∧ p.kind = .sem ∧ p.dst.toNat < 1024
        ∧ p.addr.toNat % 2 ^ 46 ≠ 0x200004000000 + clusterOf 0 * 0x10000 + 0 * 0xC0 + 4 * 47 ∧ targetOf (p.addr.toNat % 2 ^ 46) = .mem 0 0) := by
  refine ⟨?_, by decide, by decide, fun _ => rfl, by decide, ?_, rfl, rfl, by decide, by decide, ?_⟩
  · intro p hp v w
    simp only [List.mem_cons, List.not_mem_nil, or_false] at hp
    obtain rfl | rfl | rfl | rfl | rfl | rfl | rfl := hp <;> exact ⟨arrives_semAt rfl (arrives_of (by decide)), by decide, by decide, by decide⟩
  · intro sub; cases sub <;> exact ⟨rfl, by decide, by decide⟩
  · intro p hp
    simp only [List.mem_cons, List.not_mem_nil, or_false] at hp
    obtain rfl | rfl := hp <;> exact ⟨arrives_of (by decide), by decide, by decide, by decide, by decide⟩

theorem witness_WatchesAndAnswers :
    (∀ en ∈ [(0 : BitVec 256), BitVec.ofNat 256 (2 ^ 31 + 47 * 2 ^ 20 + 0x3FF * 2 ^ 48)],
      let p : Packet := { semOp 4 1 with op6 := BitVec.ofNat 32 (4 * 2 ^ 28 + 47 * 2 ^ 18 + 63 * 2 ^ 12) }
      let s : State := { fly kern p with clus := [(0, { sync := { watches := [(63, en)], sems := [(47, 1)] } })] }
      Arrives s 0 p ∧ p.kind = .sem ∧ p.dst.toNat < 1024 ∧ p.dport = 3 ∧ clusterOf p.dst.toNat = (0 : ClusterId).toNat ∧ p.op6.extractLsb' 28 4 = 4 ∧ p.op6.extractLsb' 12 6 = (63 : BitVec 6)
        ∧ (p.op6.extractLsb' 18 6).toNat < 48 ∧ p.addr.toNat % 2 ^ 46 = 0x200004000000 + (0 : ClusterId).toNat * 0x10000 + (p.op6.extractLsb' 24 4).toNat * 0xC0 + 4 * (p.op6.extractLsb' 18 6).toNat)
    ∧ ((0 : BitVec 256).getLsbD 31 = false ∧ (BitVec.ofNat 256 (2 ^ 31 + 47 * 2 ^ 20 + 0x3FF * 2 ^ 48)).getLsbD 31 = true ∧ (1 : Word).toNat ≥ (semOp 4 1).op7.toNat % 2 ^ 31 ∧ (1 : Word).toNat < (semOp 4 2).op7.toNat % 2 ^ 31)
    ∧ (base.cluOn (63 : ClusterId).toNat = true ∧ (3 : BitVec 2) ≠ 0)
    ∧ (∀ held, ∀ st ∈ [(0 : BitVec 4), 1, 2, 3, 5],
      let p : Packet := { pk .sack 0 0 (semAddr 0 47) with tid := 9, status := st }
      let k : Core := { kern with lsu := { sems := [(9, held, 0, 0, 0)] }, run := { kern.run with hold := if held then .sem 9 0 true false 0 else .none } }
      let s := fly k p
      Arrives s 0 p ∧ p.kind = .sack ∧ p.dst.toNat = (0 : CoreId).toNat ∧ p.dport = 0 ∧ k.run.stopRq = false ∧ k.run.stall = false ∧ s.beat.frz = false
        ∧ k.lsu.sems.find? (fun e => decide (e.1 = p.tid)) = some (p.tid, held, 0, 0, 0) ∧ (held = true → k.run.hold = .sem 9 0 true false 0) ∧ (held = false → k.run.hold = .none)
        ∧ k.run.pend = none ∧ k.run.saving = [] ∧ k.run.due = none ∧ CanEnter s 0)
    ∧ (Arrives (fly kern (pk .sack 0 0 0)) 0 (pk .sack 0 0 0) ∧ kern.lsu.sems.find? (fun e => decide (e.1 = (0 : BitVec 12))) = none ∧ Arrives (fly kern (pk .sack 0 1 0)) 0 (pk .sack 0 1 0)) := by
  refine ⟨?_, by decide, by decide, ?_, ⟨arrives_of (by decide), rfl, arrives_of (by decide)⟩⟩
  · intro en hen
    simp only [List.mem_cons, List.not_mem_nil, or_false] at hen
    obtain rfl | rfl := hen <;> exact ⟨⟨rfl, by decide, by decide⟩, by decide, by decide, by decide, by decide, by decide, by decide, by decide, by decide⟩
  · intro held st hst
    simp only [List.mem_cons, List.not_mem_nil, or_false] at hst
    obtain rfl | rfl | rfl | rfl | rfl := hst <;> cases held <;>
      exact ⟨arrives_of (by decide), by decide, by decide, by decide, by decide, by decide, by decide, rfl, by decide, by decide, by decide, rfl, by decide, enter_of (by decide)⟩

/-! ## DMA engines -/

/-- Channel 7 of cluster 0 in this state at the head of the run queue. -/
def chan7 (h : Chan) : State := { base with clus := [(0, { chans := [(7, h)], queue := [7] })] }
/-- The answer to a program fetch of channel 7 of cluster 0. -/
def fetched7 : Packet := { pk .rdr 0 2 0 with tid := 7 * 512 + 1 }

theorem witness_ChannelControl :
    (∀ h ∈ [({} : Chan), { dis := true }, { st := .queued }, { st := .run }, { st := .wait, waitP := some (semOp 2 2) }, { st := .aborted, task := true }],
      Ready (chan7 h) 0 [1, 14, 15] 2 ∧ Ready (chan7 h) 0 [1, 15, 0] 2 ∧ Ready (chan7 h) 0 [1] 2 ∧ CanEnter (chan7 h) 0 ∧ (chan7 h).cluOn (clusterOf (0 : CoreId).toNat) = true ∧ h.moves = [] ∧ h.failing = none
        ∧ Table.get {} ((chan7 h).clu (clusterOf (0 : CoreId).toNat)).chans 7 = h ∧ (base.core 0).cpu.sup = true)
    ∧ (semOp 2 2).ddev = base.own
    ∧ (let s : State := { task0 with clus := (chan7 { st := .run }).clus }
       Ready s 0 [1, 2, 3] 2 ∧ Ready s 0 [1] 2 ∧ (s.core 0).cpu.sup = false ∧ (s.chan 0 7).task = false ∧ (s.chan 0 0).st = .idle)
    ∧ (((chan7 { st := .queued, prog := mkFAddr 0x3FF 0 }).clu 0).queue = 7 :: [] ∧ (mkFAddr 0x3FF 0).toNat % 32 = 0 ∧ targetOf ((mkFAddr 0x3FF 0).toNat % 2 ^ 46) = .mem 0 0)
    ∧ (let s : State := { chan7 { st := .run, outs := [(fetched7.tid, .fetch 3)] } with net := [fetched7] }
       Arrives s 0 fetched7 ∧ fetched7.kind = .rdr ∧ fetched7.psn = false ∧ fetched7.dst.toNat < 1024 ∧ clusterOf fetched7.dst.toNat = (0 : ClusterId).toNat ∧ fetched7.dport = 2 ∧ fetched7.tid.toNat / 512 = (7 : ChanId).toNat
         ∧ (∀ o ∈ (s.chan 0 7).outs, o.1 = fetched7.tid → o.2 = .fetch 3) ∧ (∃ o ∈ (s.chan 0 7).outs, o.1 = fetched7.tid))
    ∧ (let h := (chan7 { st := .run, abort := true }).chan 0 7
       h.failing = none ∧ h.writes = [] ∧ h.outs = [] ∧ h.aba = 0 ∧ h.st = .run ∧ h.abort = true ∧ h.last = false ∧ h.moves = []) := by
  refine ⟨?_, by decide, ⟨ready_of (by decide), ready_of (by decide), by decide, by decide, by decide⟩, by decide, ?_, by decide⟩
  · intro h hh
    simp only [List.mem_cons, List.not_mem_nil, or_false] at hh
    obtain rfl | rfl | rfl | rfl | rfl | rfl := hh <;>
      exact ⟨ready_of (by decide), ready_of (by decide), ready_of (by decide), enter_of (by decide), by decide, by decide, by decide, rfl, by decide⟩
  · exact ⟨⟨rfl, by decide, by decide⟩, by decide, by decide, by decide, by decide, by decide, by decide, by simp [chan7, State.chan, State.clu, Table.get, Cluster.reset], by simp [chan7, State.chan, State.clu, Table.get, fetched7]⟩

/-- A running channel whose program block 0 holds `w` at index 0, with these open loops. -/
def gecko0 (w : BitVec 256) (loops : List GLoop) : Chan := { st := .run, it0 := 1, loops, blocks := [(0, w.setWidth 4096)] }
/-- A Gecko instruction from its opcode, length word, source word pair and destination word pair. -/
def gi (op len src dst : Nat) : BitVec 256 := BitVec.ofNat 256 (op * 2 ^ 28 + len * 2 ^ 32 + src * 2 ^ 64 + dst * 2 ^ 128)

theorem gecko_of {w : BitVec 256} {ls : List GLoop} (hw : gResOk w = true) (hx : w = (w.setWidth 4096).extractLsb' 0 256) : Gecko (chan7 (gecko0 w ls)) 0 7 (gecko0 w ls) w :=
  ⟨show base.cluOn 0 = true by decide, ⟨[], rfl⟩, rfl, rfl, rfl, rfl, by simp [gecko0], ⟨w.setWidth 4096, by simp [gecko0, Table.look], hx⟩, hw⟩

/-- An open loop of COUNT 2 in its iteration `it`. -/
def loop2 (it : Nat) : GLoop := { at_ := 0, count := 2, it, sa := 0, da := 0, sb := 0, db := 0 }
/-- An address of this device. -/
def own (a : Nat) : Nat := 0x3FF * 2 ^ 46 + a

theorem witness_GeckoPrograms :
    (∀ w ∈ [gi 2 1 0 0, gi 3 0 0 0, gi 4 (snw 0 47).toNat 0x7FFFFFFF 0, gi 4 (snw 0 47).toNat (2 ^ 32 + 0x7FFFFFFF) 0 ||| BitVec.ofNat 256 (2 ^ 27), gi 4 (snw 0 48).toNat 0 0, gi 5 (snw 0 47).toNat 1 0, gi 6 0 (own 0) 0, gi 7 0 0 0, gi 8 0 0 0,
        gi 1 0 0 0, gi 1 16384 (own 0) (own 0x8FFFFFFFF0), gi 1 1 (2 ^ 56 - 1) 0, gi 1 2 (2 ^ 56 - 1) 0, gi 1 1 (own 0x100000000000) (own 0)],
      ∀ ls ∈ [[], [loop2 0], [loop2 1]], Gecko (chan7 (gecko0 w ls)) 0 7 (gecko0 w ls) w ∧ (gecko0 w ls).loops.length < 2 ∧ (gecko0 w ls).writes = [] ∧ (gecko0 w ls).moves = [] ∧ (gecko0 w ls).outs = [])
    ∧ ((loop2 0).it + 1 < (loop2 0).count ∧ (loop2 1).count ≤ (loop2 1).it + 1)
    ∧ (base.resolveDev ((snw 0 47).extractLsb' 6 10) = base.own ∧ clusterOf 0 = (0 : ClusterId).toNat ∧ base.coreOn 0 = true)
    ∧ (own 0 % 2 ^ 55 % 32 = 0 ∧ targetOf ((base.resolve (own 0)).toNat % 2 ^ 46) = .mem 0 0)
    ∧ ((base.resolve (own 0)).toNat / 2 ^ 46 = base.own.toNat ∧ targetOf ((base.resolve (own 0x100000000000)).toNat % 2 ^ 46) = .data 0 .w 0 0 ∧ (1 : Nat) % 512 ≠ 0) := by
  refine ⟨?_, by decide, by decide, by decide, by decide⟩
  intro w hw ls hls
  refine ⟨gecko_of ?_ ?_, ?_, rfl, rfl, rfl⟩
  · simp only [List.mem_cons, List.not_mem_nil, or_false] at hw
    obtain rfl | rfl | rfl | rfl | rfl | rfl | rfl | rfl | rfl | rfl | rfl | rfl | rfl | rfl := hw <;> decide
  · ext i hi; simp [hi]; omega
  · simp only [List.mem_cons, List.not_mem_nil, or_false] at hls
    obtain rfl | rfl | rfl := hls <;> simp [gecko0]

/-- A MOVE whose source breaks each rule of Table 14.6, and a third LOOP, an END in a loop and a HEAD at instruction 1. -/
theorem witness_GeckoPrograms_illegal :
    (∀ e ∈ [(0x100000000001, 512), (0x1000000C0000, 16), (0x1000000A0000, 512), (0x200008010000, 512), (0x200000002000, 32), (0x200000000002, 4), (0x200004000000, 2), (0x200008000000, 2), (0x200009000000, 2), (0x200010000000, 2)],
      Gecko (chan7 (gecko0 (gi 1 e.2 (own e.1) (own 0)) [])) 0 7 (gecko0 (gi 1 e.2 (own e.1) (own 0)) []) (gi 1 e.2 (own e.1) (own 0)))
    ∧ targetOf 0x100000000001 = .data 0 .w 0 1 ∧ targetOf 0x1000000C0000 = .side 0 .w 0 0 ∧ targetOf 0x1000000A0000 = .way 0 0 ∧ targetOf 0x200008010000 = .command 0
    ∧ targetOf 0x200000002000 = .coreCtl 0 0x2000 ∧ targetOf 0x200000000002 = .coreCtl 0 2 ∧ targetOf 0x200004000000 = .clusCtl 0 0 ∧ targetOf 0x200008000000 = .newt 0 0
    ∧ targetOf 0x200009000000 = .mctl 0 0 ∧ targetOf 0x200010000000 = .devCtl 0
    ∧ Gecko (chan7 (gecko0 (gi 2 1 0 0) [loop2 0, loop2 0])) 0 7 (gecko0 (gi 2 1 0 0) [loop2 0, loop2 0]) (gi 2 1 0 0)
    ∧ (let h : Chan := { st := .run, ipc := 1, blocks := [(0, (gi 8 0 0 0).setWidth 4096 <<< 256)] }
       Gecko (chan7 h) 0 7 h (gi 8 0 0 0) ∧ h.ipc.toNat ≠ 0) := by
  refine ⟨?_, by decide, by decide, by decide, by decide, by decide, by decide, by decide, by decide, by decide, by decide, ?_, ?_, by decide⟩
  · intro e he
    simp only [List.mem_cons, List.not_mem_nil, or_false] at he
    obtain rfl | rfl | rfl | rfl | rfl | rfl | rfl | rfl | rfl | rfl := he <;> exact gecko_of (by decide) (by ext i hi; simp [hi]; omega)
  · exact gecko_of (by decide) (by ext i hi; simp [hi]; omega)
  · exact ⟨show base.cluOn 0 = true by decide, ⟨[], rfl⟩, rfl, rfl, rfl, rfl, by simp, ⟨(gi 8 0 0 0).setWidth 4096 <<< 256, rfl, by decide +kernel⟩, by decide⟩


/-! ## Newt engines and memory controllers -/

/-- A descriptor from its words 0, 1, 12 and 13. -/
def nd (w0 w1 w12 w13 : Nat) : BitVec 512 := BitVec.ofNat 512 (w0 + w1 * 2 ^ 32 + w12 * 2 ^ 384 + w13 * 2 ^ 416)
/-- A command row with one descriptor, in slot 0. -/
def ndRow (d : BitVec 512) : BitVec 4096 := BitVec.ofNat 4096 (d.toNat + 0xFF000000 * (2 ^ 512 + 2 ^ 1024 + 2 ^ 1536 + 2 ^ 2048 + 2 ^ 2560 + 2 ^ 3072 + 2 ^ 3584))
/-- The ring's row that holds it. -/
def nrow (d : BitVec 512) (node : NodeId) : NRow := { row := ndRow d, dev := 0x3FF, node, port := 1, cm := true, entry := 0, slot := 0, seq := 0 }
/-- Tenant 1's directory entry 0: DIN 256, DOUT 256, BF16, rank 1, valid, with SR as given. -/
def dir1 (sr : Nat) : BitVec 1024 := BitVec.ofNat 1024 (1 * 2 ^ 20 + 1 * 2 ^ 16 + 2 ^ 15 + sr * 2 ^ 13 + 256 * 2 ^ 32 + 256 * 2 ^ 48 + 0xFFFFFFFF * 2 ^ 64)
/-- Slot 0's KV entry: BF16, LMAX 16, one head. -/
def kv1 : BitVec 256 := BitVec.ofNat 256 ((2 ^ 31 + 1 * 2 ^ 24 + 1) * 2 ^ 128)
/-- Stack 7 with `d` at its head. -/
def newt7 (d : BitVec 512) (node : NodeId) (sr : Nat) : State :=
  { State.reset with stks := [(7, { ring := [nrow d node], dir := [(0, dir1 sr)], kv := [(0, kv1)], ten := [(0, 0x8001)] })] }

theorem newtHead_of {d : BitVec 512} {node : NodeId} {sr : Nat} (h : d = (ndRow d).extractLsb' (512 * 0) 512) (h1 : d.extractLsb' 24 8 ≠ 0xFF)
    (h2 : ∀ j, j < 8 → j ≠ 0 → (ndRow d).extractLsb' (512 * j + 24) 8 = 0xFF) : NewtHead (newt7 d node sr) 7 (nrow d node) d :=
  ⟨rfl, rfl, rfl, rfl, 0, by decide, Nat.le_refl 0, h, h1, fun j hj _ hn => h2 j hj hn⟩

/-- With its one command still in the ring no row of stack 7 clashes. -/
theorem no_clash (d : BitVec 512) (node : NodeId) (sr : Nat) (a : FAddr) : (newt7 d node sr).clashes (7 : StackId).toNat ((newt7 d node sr).stack 7).nextId a = false := rfl

/-- The status with which `d` would start. -/
def startsWith (d : BitVec 512) (node : NodeId) (sr : Nat) : BitVec 12 := newtCheck ((newt7 d node sr).stack 7) 0 node d

theorem witness_NewtStarts :
    (∀ d ∈ [nd 0 0 0 0, nd 0x01000000 0x100010 0 0, nd 0x02000000 0x100010 0 0, nd 0x04000000 0x100000 0 1, nd 0x0F000000 0 0 1, nd 0x05000000 0 0 0, nd 0x01000000 0x10 0 0, nd 0x01000000 0x100010 1 0, nd 0x01000000 0x200010 0 0],
      ∀ node sr, NewtHead (newt7 d node sr) 7 (nrow d node) d)
    ∧ (startsWith (nd 0 0 0 0) 1 0 = 0 ∧ startsWith (nd 0x01000000 0x100010 0 0) 1 0 = 0 ∧ startsWith (nd 0x02000000 0x100010 0 0) 1 0 = 0 ∧ startsWith (nd 0x04000000 0x100000 0 1) 1 1 = 0 ∧ startsWith (nd 0x0F000000 0 0 1) mgmtNode 0 = 0)
    ∧ (startsWith (nd 0x05000000 0 0 0) 1 0 = 1 ∧ startsWith (nd 0x01000000 0x10 0 0) 1 0 = 2 ∧ startsWith (nd 0x01000000 0x100010 1 0) 1 0 = 4 ∧ startsWith (nd 0x01000000 0x200010 0 0) 1 0 = 3)
    ∧ (dIllegal (nd 0x01000000 0x200010 0 0) = false ∧ ((dir1 0).extractLsb' 32 16).toNat % epr 1 = 0 ∧ (dir1 0).extractLsb' 16 4 = 1 ∧ (nd 0x01000000 0x100010 0 0).extractLsb' 36 4 = 1) := by
  refine ⟨?_, by decide +kernel, by decide +kernel, by decide +kernel⟩
  intro d hd node sr
  simp only [List.mem_cons, List.not_mem_nil, or_false] at hd
  obtain rfl | rfl | rfl | rfl | rfl | rfl | rfl | rfl | rfl := hd <;> exact newtHead_of (by decide +kernel) (by decide +kernel) (by decide +kernel)

/-- Stack 7 whose OPT of entry 0 starts: SRC2 and RM 0, with its record. -/
def opt1 : BitVec 512 := nd 0x03400000 0x100000 0 0

theorem witness_NewtStarts_opt :
    NewtHead (newt7 opt1 1 1) 7 (nrow opt1 1) opt1 ∧ startsWith opt1 1 1 = 0 ∧ 4 * (((dir1 1).extractLsb' 6 6).toNat + 1) * (((dir1 1).extractLsb' 32 16).toNat + ((dir1 1).extractLsb' 48 16).toNat) ≤ 458752
      ∧ ((dir1 1).extractLsb' 32 16).toNat ≠ 0 :=
  ⟨newtHead_of (by decide +kernel) (by decide +kernel) (by decide +kernel), by decide +kernel, by decide +kernel, by decide +kernel⟩

/-- A command row for stack 7. -/
def cmdRow (d : BitVec 512) : Packet := { pk .msg 0x413 1 (0x200008010000 + 7 * 0x200000) with data := ndRow d }
/-- A command whose writes are all answered. -/
def done7 (d : BitVec 512) (status : BitVec 12) : NCmd :=
  { id := 0, desc := d, dev := 0x3FF, node := 1, port := 1, phase := .write, status, flags := 0, rows := 0, src := [], ctx := 0, grp := 0, ver := false, outs := [] }

theorem witness_NewtEngine :
    (∀ k ∈ [({} : Stack), { haltq := true }, { en := false }], let p := cmdRow (nd 0x04000000 0 0 0)
      let s : State := { State.reset with stks := [(7, k)], net := [p] }
      Arrives s 0 p ∧ p.kind = .msg ∧ p.psn = false ∧ targetOf (p.addr.toNat % 2 ^ 46) = .command (7 : StackId).toNat ∧ k.ring = [] ∧ k.heldW = [])
    ∧ ((((cmdRow (nd 0x04000000 0 0 0)).data.extractLsb' (512 * 0) 512).extractLsb' 24 8).toNat ≤ 4
      ∧ ∀ i, i < 8 → 0 < i → (((cmdRow (nd 0x04000000 0 0 0)).data.extractLsb' (512 * i) 512).extractLsb' 24 8).toNat = 255)
    ∧ ((done7 (nd 0x00400000 0 0 0) 0).desc.getLsbD 22 = true ∧ (done7 (nd 0 0 0 0) 0).desc.getLsbD 22 = false ∧ (done7 (nd 0 0 0 0) 1).status ≠ 0 ∧ (done7 (nd 0 0 0 0) 1).status ≠ 8)
    ∧ ((0xFFFFC : BitVec 21).toNat % 4 = 0 ∧ 0x80000 ≤ (0x80000 : BitVec 21).toNat ∧ (0xFFFFC : BitVec 21).toNat < 0x100000 ∧ (0xFFFFC - 0x80000) / 128 = 4095)
    ∧ (((done7 (nd 0x04000000 0 4095 0) 0).desc.extractLsb' 24 8).toNat = 4 ∧ ((done7 (nd 0x04000000 0 4095 0) 0).desc.extractLsb' (32 * 12) 32).toNat % 2 ^ 12 = 4095) := by
  refine ⟨?_, by decide +kernel, by decide +kernel, by decide, by decide +kernel⟩
  intro k hk
  simp only [List.mem_cons, List.not_mem_nil, or_false] at hk
  obtain rfl | rfl | rfl := hk <;> exact ⟨⟨rfl, by decide, by decide⟩, by decide, by decide, by decide, by decide, by decide⟩

theorem witness_MemoryControllers :
    (¬ (∃ b ∈ State.reset.badMem, (7 * 2 ^ 37 + (State.reset.stack 7).patrol * 512) / 64 ≤ b ∧ b ≤ (7 * 2 ^ 37 + (State.reset.stack 7).patrol * 512 + 511) / 64))
    ∧ (∃ b ∈ ({ State.reset with badMem := [7] } : State).badMem, (0 * 2 ^ 37 + 0 * 512) / 64 ≤ b ∧ b ≤ (0 * 2 ^ 37 + 0 * 512 + 511) / 64)
    ∧ (State.reset.imb.begun.toNat + State.reset.imb.w > State.reset.beat.bcnt.toNat)
    ∧ (let s : State := { State.reset with beat := { bcnt := 1024 }, imb := { n := [(3, 65536)], above := 3 } }
       s.imb.begun.toNat + s.imb.w ≤ s.beat.bcnt.toNat ∧ 65536 ≤ (s.imb.n.map (·.2)).sum ∧ s.imb.n[0]? = some (3, 65536) ∧ s.imb.episode = false ∧ s.imb.runs ≤ s.imb.above + 1
         ∧ s.imb.w = 1024 ∧ BitVec.ofNat 32 0x41000000 = s.imb.t ∧ s.imb.runs = 4)
    ∧ (fp32.decode (toFp32 ((ofInt (65536 * 256 : Nat)).div (ofInt (65536 : Nat)))).toNat).lt (fp32.decode State.reset.imb.t.toNat) = false
    ∧ (let s : State := { State.reset with beat := { bcnt := 1024 }, imb := { n := [(3, 5), (7, 5)], episode := true } }
       s.imb.begun.toNat + s.imb.w ≤ s.beat.bcnt.toNat ∧ s.imb.n[0]? = some (3, 5) ∧ (∀ y ∈ s.imb.n, y.2 ≤ 5) ∧ ¬ (s.imb.episode = false ∧ s.imb.runs ≤ 0))
    ∧ (let s : State := { State.reset with beat := { bcnt := 1024 }, imb := { n := [], t := 0 } }
       s.imb.begun.toNat + s.imb.w ≤ s.beat.bcnt.toNat ∧ (∀ y ∈ s.imb.n, y.2 = 0) ∧ BitVec.ofNat 32 0x41000000 ≠ s.imb.t)
    ∧ (∃ b ∈ ({ State.reset with softMem := [7] } : State).softMem, (0 * 2 ^ 37 + 0 * 512) / 64 ≤ b ∧ b ≤ (0 * 2 ^ 37 + 0 * 512 + 511) / 64) := by decide +kernel

/-! ## Beat unit -/

/-- The machine after reset with this beat unit. -/
def beat (b : Beat) : State := { State.reset with beat := b }
/-- With port 17 in this state. -/
def port17 (t : Port) (b : Beat) : State := { State.reset with beat := b, links := { ports := [(17, t)], devId := 5 } }
/-- A control flit of a type, with and without a good check. -/
def flit (type : Byte) (crc : Bool) : CtlFlit := { type, crc }

theorem witness_BoundariesGeneratedAndReceived :
    (let b : Beat := { devt := 2250 }
     b.role = 0 ∧ b.en = true ∧ b.lastGen + b.period.toNat + min b.gather (min b.strmax.toNat b.period.toNat) ≤ b.devt.toNat)
    ∧ (let b : Beat := { devt := 2250, gather := 1 }
       b.devt.toNat < b.lastGen + b.period.toNat + min b.gather (min b.strmax.toNat b.period.toNat))
    ∧ (let b : Beat := { devt := 1000, lastEdge := some 101 }
       b.lastEdge = some 101 ∧ b.devt.toNat < 101 + 900)
    ∧ (∀ e, ({ devt := 1000, lastEdge := some 100 } : Beat).lastEdge = some e → e + 900 ≤ ({ devt := 1000, lastEdge := some 100 } : Beat).devt.toNat)
    ∧ (let b : Beat := { role := 1, lock := .locked, lastGen := 1000, devt := 3186 }
       b.role = 1 ∧ b.en = true ∧ b.lastGen + b.period.toNat ≤ b.devt.toNat + 64 ∧ b.skipAt = none ∧ b.gather = 0 ∧ ¬ ((3185 : Nat) + 64 ≥ b.lastGen + b.period.toNat))
    ∧ ((port17 { st := .ident } { role := 3, port := 17 }).port (17 : PortId).val).st = .ident ∧ (flit 1 false).crc = false ∧ (flit 4 true).type.toNat ≥ 4 ∧ (flit 1 true).type = 1 ∧ (flit 2 true).type = 2 ∧ (State.reset.port 0).st = .train ∧ (State.reset.port 17).st = .off
    ∧ (let b : Beat := { role := 3, port := 17 }
       b.role = 3 ∧ b.port.toNat = (17 : PortId).val ∧ (flit 1 true).beat ∉ b.taken ∧ ((flit 2 true).orig &&& 0x3FF, (flit 2 true).beat, (flit 2 true).val) ∉ b.relayed)
    ∧ (∀ b ∈ [({ role := 1, lock := .locked, devt := 2249 } : Beat), { role := 1, lock := .locked, devt := 2186, gather := 1 }, { role := 1, lock := .locked, devt := 2186, skipAt := some 2100 },
        { role := 1, lock := .locked, devt := 2186, en := false }],
       b.role = 1 ∧ b.lock = .locked ∧ b.lastEdge = none ∧ b.lastGen + b.period.toNat ≤ b.devt.toNat + 64) := by
  refine ⟨by decide, by decide, by decide, ?_, by decide, by decide, by decide, by decide⟩
  intro e he; cases he; decide

/-- One boundary waits for this cycle, with or without a number. -/
def due1 (at_ : Nat) (n : Option DWord) : Due := { time := at_, beat := n, str := 0 }

theorem witness_BoundariesApplied :
    (∀ hold ∈ [false, true], ∀ en ∈ [false, true], ∀ re ∈ [false, true],
     let b : Beat := { lock := .locked, toApply := [due1 10 (some 5)], devt := 10, bhold := hold, en, resync := re }
     b.toApply = due1 10 (some 5) :: [] ∧ (due1 10 (some 5)).time ≤ b.devt.toNat ∧ b.lock = .locked ∧ b.en = en ∧ b.resync = re ∧ b.bhold = hold
       ∧ ¬ (b.lagmax.toNat * b.period.toNat < 9000) ∧ b.lagmax.toNat * b.period.toNat < 9001)
    ∧ (∀ lock ∈ [Lock.lost, .nolock, .flywheel], ∀ r ∈ [none, some 1000], ∀ n ∈ [0, 2, 3], ∀ at_ ∈ [3185, 3186, 3314, 3315],
     let b : Beat := { lock, role := 1, refTime := r, onTime := n, toApply := [due1 at_ none], devt := 4000 }
     b.toApply = due1 at_ none :: [] ∧ (due1 at_ none).time ≤ b.devt.toNat ∧ b.lock = lock ∧ b.refTime = r ∧ b.onTime = n)
    ∧ ((1000 + 2250 ≤ (3186 : Nat) + 64 ∧ (3314 : Nat) ≤ 1000 + 2250 + 64 + 0) ∧ ¬ (1000 + 2250 ≤ (3185 : Nat) + 64) ∧ ¬ ((3315 : Nat) ≤ 1000 + 2250 + 64 + 0))
    ∧ (let b : Beat := { lock := .flywheel, lastApp := 1000, bcnt := 7, heldB := 7 }
       let near (d x : Nat) : Bool := decide (d ≤ x + 64) && decide (x ≤ d + 64)
       near 3186 (b.lastApp + b.period.toNat) ∧ ¬ near 3185 (b.lastApp + b.period.toNat) ∧ near 1064 b.lastApp ∧ ¬ near 1065 b.lastApp ∧ ¬ near 1065 (b.lastApp + b.period.toNat)
         ∧ (8 : DWord) = b.bcnt + 1 ∧ (7 : DWord).toNat ≤ b.bcnt.toNat ∧ ¬ ((9 : DWord) = b.bcnt + 1 ∨ (9 : DWord).toNat ≤ b.bcnt.toNat) ∧ b.heldB = b.bcnt)
    ∧ (∀ en ∈ [false, true], let b : Beat := { lock := .locked, role := 2, lastApp := 0, devt := 4565, first := false, en, toApply := [due1 4565 none] }
       b.lock = .locked ∧ b.role ≠ 0 ∧ (∀ d ∈ b.toApply, b.lastApp + 2 * b.period.toNat + 64 < d.time) ∧ b.lastApp + 2 * b.period.toNat + 64 < b.devt.toNat ∧ b.en = en ∧ b.first = false)
    ∧ (let b : Beat := { lock := .locked, role := 2, devt := 4564 }
       b.devt.toNat ≤ b.lastApp + 2 * b.period.toNat + 64)
    ∧ (let b : Beat := { lock := .flywheel, lastApp := 0, devt := 2250, first := false, fly := 15 }
       b.lock = .flywheel ∧ b.lastApp + b.period.toNat ≤ b.devt.toNat ∧ b.en = true ∧ b.first = false ∧ 15 ≤ b.fly)
    ∧ (let b : Beat := { devt := 64, beatl := [(64, 1), (65, 2)] }
       b.frz = false ∧ b.beatl = [] ++ (64, 1) :: [(65, 2)] ∧ (64 : Nat) ≤ b.devt.toNat ∧ ∀ y ∈ [((65 : Nat), (2 : Word))], b.devt.toNat < y.1) := by
  refine ⟨?_, ?_, by decide, by decide, ?_, by decide, by decide, by decide⟩
  · intro h _ e _ r _; cases h <;> cases e <;> cases r <;> decide
  · intro l _ r _ n _ a ha; simp only [List.mem_cons, List.not_mem_nil, or_false] at ha
    obtain rfl | rfl | rfl | rfl := ha <;> exact ⟨rfl, by simp [due1], rfl, rfl, rfl⟩
  · intro e _; cases e <;> decide

/-- A stall signal of the given verb from core 0's response hold. -/
def stall (verb : Nat) : Packet := ctlPkt State.reset 0 (BitVec.ofNat 32 (verb * 2 ^ 28 + 2 ^ 16)) 0

theorem witness_StallAndFreeze :
    (let s := with0 { kern with run := { kern.run with wait := .rows, held := 0x201 } }
     s.coreOn (0 : CoreId).toNat = true ∧ (s.core 0).run.st = .running ∧ (s.core 0).run.wait = .rows ∧ (s.core 0).run.stall = false ∧ s.beat.grace.toNat < (s.core 0).run.held ∧ s.beat.frz = false)
    ∧ (∀ v ∈ [1, 2], Arrives (fly kern (stall v)) 0 (stall v) ∧ (stall v).kind = .ctl ∧ (stall v).dst = 0x408 ∧ (stall v).op6.toNat / 2 ^ 28 = v)
    ∧ (let b : Beat := { freezeAt := some 64, devt := 64 }
       b.freezeAt = some 64 ∧ 64 ≤ b.devt.toNat ∧ b.frz = false ∧ ∀ u ∈ b.beatl, 64 < u.1)
    ∧ (let b : Beat := { resumeAt := some 64, frz := true, devt := 64 }
       b.resumeAt = some 64 ∧ b.frz = true ∧ 64 ≤ b.devt.toNat)
    ∧ (let b : Beat := { frz := true, frzLen := 0x100000 }
       b.frz = true ∧ (if b.stout = 0 then 2 ^ 32 else b.stout.toNat) ≤ b.frzLen ∧ b.resumeAt = none)
    ∧ (let b : Beat := { frz := true, holdCyc := 512, lag := 1, role := 2 }
       b.frz = true ∧ 512 ≤ b.holdCyc ∧ 0 < b.lag.toNat + b.stallb.toNat - b.slack.toNat / 2 ^ (16 * (3 % 4)) % 2 ^ 16 ∧ b.bhold = false ∧ b.en = true ∧ b.holdMax < min 0xFFFF ((1 + 63) / 64) ∧ 2 ≤ b.role.toNat)
    ∧ (let b : Beat := { reqs := [.hold 0], frz := true }
       StallSrc.hold (BitVec.ofNat 10 (stall 2).op6.toNat) ∉ b.masked ∧ b.reqs = [.hold (BitVec.ofNat 10 (stall 2).op6.toNat)] ∧ (stall 2).op6.getLsbD 16 = true) := by
  refine ⟨by decide, ?_, by decide, by decide, by decide, by decide, by decide⟩
  intro v hv
  simp only [List.mem_cons, List.not_mem_nil, or_false] at hv
  obtain rfl | rfl := hv <;> exact ⟨arrives_of (by decide), by decide, by decide, by decide⟩

theorem witness_BeatAndRunControlWrites :
    (State.reset.beat.lock ≠ .lost ∧ (beat { lock := .lost }).beat.lock = .lost)
    ∧ (let ctl : Word := 0x08800000; let cfg : Word := 0x465
       (ctl.extractLsb' 23 5).toNat < 18 ∧ 1125 ≤ (cfg.extractLsb' 0 15).toNat ∧ (cfg.extractLsb' 0 15).toNat ≤ 18000 ∧ State.reset.dev.st ≠ .run ∧ ¬ ((cfg.extractLsb' 0 15) = State.reset.beat.period))
    ∧ (let ctl : Word := 0; let cfg : Word := 0x8CA
       ctl.extractLsb' 28 2 = State.reset.beat.role ∧ ctl.extractLsb' 23 5 = State.reset.beat.port ∧ cfg.extractLsb' 0 15 = State.reset.beat.period)
    ∧ ((0x10000000 : Word).extractLsb' 28 2 ≠ State.reset.beat.role ∧ ((0x10000000 : Word).extractLsb' 23 5).toNat < 18)
    ∧ ¬ (((0x464 : Word).extractLsb' 0 15).toNat ≥ 1125) ∧ ¬ (((0x09000000 : Word).extractLsb' 23 5).toNat < 18)
    ∧ (base.coreOn (0 : CoreId).toNat = true ∧ (base.core 0).run.st = .running ∧ base.beat.frz = false ∧ (base.core 0).run.saving = [] ∧ (base.core 0).run.due = none ∧ (base.core 0).run.hold = .none ∧ (base.core 0).run.stall = false ∧ (base.core 1).run.st ≠ .running)
    ∧ (let k : Core := { kern with run := { kern.run with hold := .mm 0 0 0 0 true 1 2 0 } }
       k.run.st = .running ∧ k.run.saving = [] ∧ k.run.due = none ∧ k.run.hold = .mm 0 0 0 0 true 1 2 0 ∧ k.run.stall = false)
    ∧ ({ kern with run := { kern.run with due := some .resp } } : Core).run.due ≠ none
    ∧ ({ base with dev := { map := 0 } } : State).coreOn (0 : CoreId).toNat = false ∧ base.loader.image = none
    ∧ (let im : Image := { mapfix := false, xmode := false, imgid := 1, nreg := 1, pb := 0, step := 0, keyid := 0, total := 0, msize := 0, secs := [], bytes := [] }
       let s : State := { beat { lastApp := 0, devt := 1994 } with loader := { img := 4, image := some im } }
       s.loader.image = some im ∧ s.loader.img = 4 ∧ s.beat.devt.toNat + 256 ≤ s.beat.lastApp + s.beat.period.toNat) := by decide

theorem witness_EarlyEdges :
    (let b : Beat := { devt := 1000, role := 2, lock := .nolock, lastEdge := some 101 }
     b.lastEdge = some 101 ∧ b.devt.toNat < 101 + 900 ∧ b.role = 2 ∧ b.lock = .nolock)
    ∧ (let d : Due := { time := 1000, beat := none, str := 0, early := true }
       let b : Beat := { devt := 1000, lock := .nolock, onTime := 3, toApply := [d] }
       b.toApply = d :: [] ∧ d.early = true ∧ d.time ≤ b.devt.toNat) := by decide

/-! ## Links -/

theorem witness_LinkPorts :
    (∀ x ∈ [(PortSt.train, 450000000), (.align, 2250000), (.active, 0), (.retrain, 45000000), (.failed, 2250000000), (.drain, 225000), (.train, 0), (.align, 0), (.retrain, 0), (.drain, 0)],
      let s := port17 { st := x.1, en := true } { devt := BitVec.ofNat 64 x.2 }
      (s.port (17 : PortId).val).st = x.1 ∧ (s.port (17 : PortId).val).since + x.2 ≤ s.beat.devt.toNat ∧ (s.port (17 : PortId).val).queue = [] ∧ (s.port (17 : PortId).val).en = true ∧ (s.port (17 : PortId).val).retry = [] ∧ (s.port (17 : PortId).val).cur = [] ∧ (s.port (17 : PortId).val).line = none)
    ∧ (({ st := .drain, retry := [{ seq := 0, slots := [.hdr (pk .ctl 0x408 0 0)] }] } : Port).drained = false ∧ (0 : Nat) + 225000 ≤ 225000)
    ∧ (let l : LineFrame := { seq := 3, slots := [.idle, .hdr (pk .ctl 0x408 0 0)], begun := 10 }
       let s := { port17 { st := .active, en := true, line := some l } { devt := 12 } with beat := { devt := 12, sent := [(16, flit 1 true), (17, flit 2 true), (4, flit 1 true)] } }
       (s.port (17 : PortId).val).line = some l ∧ l.kept = none ∧ l.slots.length < 32 ∧ l.begun + 15 * l.slots.length / 11 ≤ s.beat.devt.toNat
         ∧ s.beat.sent = [(16, flit 1 true)] ++ ((17 : PortId).val, flit 2 true) :: [(4, flit 1 true)] ∧ (∀ x ∈ [(4, flit 1 true)], x.1 ≠ (17 : PortId).val)
         ∧ ({ l with kept := some [] } : LineFrame).kept ≠ none ∧ 32 ≤ (List.replicate 32 Slot.idle).length)
    ∧ (let q := { pk .ctl 0x408 0 0 with via := some 17 }
       let s : State := { base with net := [q] }
       s.net[0]? = some q ∧ q.via = some (17 : PortId).val ∧ q.hop = 0 ∧ q.isAnswer = false)
    ∧ (let t : Port := { st := .active, retry := [{ seq := 0xFFF, slots := [] }], rplSeq := 0xFFF, rplCnt := 7 }
       t.retry = { seq := 0xFFF, slots := [] } :: [] ∧ ({ seq := 0xFFF, slots := [] } : SentFrame).sent + 4096 ≤ (4096 : Nat) ∧ t.st = .active ∧ t.rplSeq = 0xFFF ∧ 7 ≤ t.rplCnt)
    ∧ (let s := port17 { st := .ident, peer := 4, trips := 63, en := true, idSent := [950, 900, 855] } { devt := 1000 }
       let f : CtlFlit := { flit 3 true with orig := 4, last := 900, held := 10 }
       (s.port (17 : PortId).val).st = .ident ∧ f.crc = true ∧ f.type = 3 ∧ (f.orig.setWidth 10 : BitVec 10) ≠ s.own ∧ 64 ≤ (s.port (17 : PortId).val).trips + 1 ∧ (f.orig.setWidth 10 : BitVec 10) = (s.port (17 : PortId).val).peer ∧ (f.orig.setWidth 10 : BitVec 10) ≠ 0x3FF ∧ s.own ≠ 0x3FF ∧ f.last ∈ (s.port (17 : PortId).val).idSent
         ∧ (s.port (17 : PortId).val).queue = [] ∧ ((5 : BitVec 16).setWidth 10 : BitVec 10) = s.own ∧ ((4 : BitVec 16).setWidth 10 : BitVec 10) ≠ s.own ∧ (62 : Nat) + 1 < 64)
    ∧ (17 < (18 : Word).toNat % 32 ∧ (0x80001111 : Word).toNat % 32 ≤ 17 ∧ (0x80001111 : Word).toNat / 2 ^ 8 % 32 ≤ 17)
    ∧ (let s := port17 { st := .active, rxSeq := 7, retry := [{ seq := 5, slots := [] }] } {}
       let q := pk .ctl 0x408 0 0
       let f : Frame := { seq := 7, ack := 5, slots := [.hdr q], fcrc := true }
       (s.port (17 : PortId).val).st = .active ∧ f.unc = 0 ∧ f.fcrc = true ∧ (s.port (17 : PortId).val).queue = [] ∧ f.nak = false ∧ f.seq = (s.port (17 : PortId).val).rxSeq ∧ f.slots = [.hdr q] ∧ s.own ≠ 0x3FF ∧ q.flits = 0 ∧ (∀ n, q.kind ≠ .res n) ∧ { q with ddev := 5 }.ddev = s.own
         ∧ ((s.port (17 : PortId).val).retry.filter (fun (x : SentFrame) => decide ((x.seq - f.ack).toNat < 2048))) ≠ [] ∧ (s.port (17 : PortId).val).rplCnt = 0)
    ∧ (State.reset.port 0).st = .train ∧ (State.reset.port 17).st = .off ∧ (pk (.res 15) 0 0 0).flits = 0 := by
  refine ⟨by decide, by decide, ⟨rfl, rfl, by decide, by decide, rfl, by decide, Option.some_ne_none _, by decide⟩, ⟨rfl, rfl, rfl, rfl⟩, by decide, by decide, by decide, ⟨by decide, by decide, by decide, by decide, by decide, by decide, rfl, by decide, by decide, ?_, by decide, by decide, by decide⟩, by decide, by decide⟩
  intro n hn; cases hn

/-! ## Host interface and mailbox -/

theorem witness_HostWindows :
    State.reset.dev.st ≠ .off ∧ (let s : State := { State.reset with host := { mbEn := true, mbLog := 6, tail := 5, head := 5, slRt := true } }
      s.host.mbEn = true ∧ (0x80000007 : Word).extractLsb' 0 4 ≠ s.host.mbLog ∧ (0x80000006 : Word).extractLsb' 0 4 = s.host.mbLog ∧ 2 ^ s.host.mbLog.toNat < ((70 : BitVec 16) - s.host.head).toNat ∧ ((69 : BitVec 16) - s.host.head).toNat ≤ 2 ^ s.host.mbLog.toNat
        ∧ (69 : BitVec 16) ≠ s.host.tail ∧ (11 : Word).extractLsb' 0 5 ≠ s.host.rtLog ∧ (10 : Word).extractLsb' 0 5 = s.host.rtLog)
    ∧ (State.reset.mgmt.romOnly = false ∧ (State.reset.entry 0x0003 0).any (fun e => decide (e.cls = .const) && decide (e.value.length ≤ 4096)) = true ∧ (State.reset.entry 0x0003 1).any (fun e => decide (e.cls = .wo)) = true ∧ State.reset.entry 0xFFFF 0 = none ∧ 0xF00000 ≤ (0xFFFFFFFF : Word).toNat % 2 ^ 24)
    ∧ (let h := State.reset.host
       h.bar2W = [] ∧ (8 : Nat) ≠ 0 ∧ 0 + 8 ≤ 2 ^ (30 + h.bar2Log) ∧ h.hbBase.toNat * 2 ^ 30 + 0 + 8 ≤ 0x9000000000 ∧ ¬ ((2 ^ 36 - 7) + 8 ≤ 2 ^ (30 + h.bar2Log)) ∧ (2 ^ 36 - 8) + 8 ≤ 2 ^ (30 + h.bar2Log))
    ∧ (let h : HostIf := { hbBase := 0x240 }
       ¬ (h.hbBase.toNat * 2 ^ 30 + 0 + 1 ≤ 0x9000000000) ∧ ¬ (0x10000000000 ≤ h.hbBase.toNat * 2 ^ 30))
    ∧ (State.reset.host.d3 = false ∧ ({ d3 := true } : HostIf).d3 ≠ false ∧ ({ odBusy := true } : HostIf).odBusy = true ∧ ({ odWr := true } : HostIf).odLen.toNat ≤ 4096 ∧ ({ bar2W := [1] } : HostIf).bar2W ≠ [] ∧ ({ bar2R := [(0, some 0, 8, [])] } : HostIf).bar2R = (0, some 0, 8, []) :: []
      ∧ (0x004 < 0x2000 ∧ 0x004 % 4 = 0 ∧ (4 : Nat) ∈ [1, 2, 4, 8] ∧ ∀ x ∈ [0x000, 0x008, 0x010, 0x018, 0x01C, 0x100, 0x108, 0x110, 0x118, 0x11C, 0x200, 0x208, 0x1000, 0x1004], x ≠ 0x004)) := by
  refine ⟨by decide, by decide, ⟨by decide, by decide, by decide, by rfl, by decide⟩, by decide, by decide, by decide⟩

/-- The machine with one request of tag 1 waiting in an enabled mailbox, in this device state. -/
def mbox (st : DevSt) : State := { State.reset with dev := { st }, host := { mbEn := true, tail := 1 } }
theorem fetches_mbox {st : DevSt} (h1 : st ≠ .off) (h2 : st ≠ .tadpole) : Fetches (mbox st) :=
  ⟨rfl, h1, h2, show (0 : BitVec 16) ≠ 1 by decide, show (0 : Nat) < 16 by decide, fun _ _ h => by cases h⟩
/-- An image with an index table and nothing else. -/
def image0 : Image := { mapfix := false, xmode := false, imgid := 1, nreg := 1, pb := 0, step := 0, keyid := 0, total := 0, msize := 0, secs := [], bytes := [] }

theorem witness_MailboxRequests_discard :
    let s : State := { mbox .ready with loader := { img := 3, image := some { image0 with msize := 2 ^ 21 + 512 } } }
    s.dev.st = .ready ∧ s.mgmt.erase = [] ∧ (interExtents s.loader.mbase.toNat (2 ^ 21 + 512)).length = 9 ∧ (interExtents s.loader.mbase.toNat (2 ^ 21 + 512)).getD 7 (0, 0, 0) = (7, 0, 512)
      ∧ (interExtents 0x1234560000 131072).map (·.2.2) = List.replicate 8 32 := by decide +kernel

theorem witness_MailboxRequests :
    (∀ st ∈ [DevSt.preop, .ready, .run, .hold, .axolotl, .fault], Fetches (mbox st) ∧ (mbox st).host.reqs = [] ∧ (mbox st).mgmt.axo = none ∧ (mbox st).loader.busy = false ∧ (mbox st).cores = [] ∧ (mbox st).badMem = [])
    ∧ (∀ n, (⟨1, BitVec.ofNat 16 n, true⟩ : ReqHdr).resOk = true)
    ∧ ((5 : Byte).toNat ∉ [0, 1, 2, 3, 4, 8, 0x10, 0x11, 0x12, 0x20, 0x21, 0x30, 0x31] ∧ 7 < (8 : Byte).toNat ∧ (7 : Byte).toNat ≤ 7)
    ∧ ((mbox .run).mbFetched.visible .mailbox 0xFFFF 0 = none ∧ ((mbox .run).mbFetched.visible .mailbox 0x0003 0).isSome = true)
    ∧ ((mbox .run).mbFetched.dictCheck .mailbox 0xFFFF 0 [] ≠ 0 ∧ (mbox .run).mbFetched.dictCheck .mailbox 0x9000 1 (leBytes 8 0) = 0 ∧ 0x9000 / 2 ^ 8 ∈ [0x10, 0x90])
    ∧ (let s : State := { mbox .ready with loader := { img := 3, image := some image0 } }
       s.loader.img = 3 ∧ s.loader.image = some image0 ∧ s.beat.bcnt.toNat + 1 < (2 : DWord).toNat ∧ (1 : DWord).toNat ≤ s.beat.bcnt.toNat + 1 ∧ image0.relocs = [] ∧ s.badMem = []
         ∧ s.loader.mbase.toNat + image0.vroff + 2048 ≤ 0x9000000000 ∧ (s.loader.mbase.toNat + image0.vroff) % 8 = 0 ∧ (∀ cl, cl < 64 → s.cluOn cl = true → (s.clu cl).sync.vm = false ∨ s.vmQuiet cl = true))
    ∧ (∃ js, image0.placed = 0 :: js) ∧ { image0 with nreg := 0 }.placed = [] ∧ ({ runs := [0, 1] } : Loader).runs = 0 :: [1]
    ∧ (let k : Core := kern
       k.run.st = .running ∧ k.run.hold = .none ∧ k.run.saving = [] ∧ k.run.due = none ∧ (mbox .ready).beat.frz = false)
    ∧ ((mbox .run).beat.lock ≠ .lost ∧ ((1 : Word) - (mbox .run).beat.bcnt.setWidth 32).toInt ≤ 1 ∧ 1 < ((2 : Word) - (mbox .run).beat.bcnt.setWidth 32).toInt)
    ∧ ((0x80000001 : Word).getLsbD 31 = true ∧ (0x80000001 : Word).getLsbD 24 = false ∧ (0x80000001 : Word).toNat % 2 ^ 12 ≠ 0 ∧ (511 : BitVec 16).toNat < 512 ∧ (511 : BitVec 16).toNat ∉ (mbox .run).mgmt.quar ∧ Table.look (mbox .run).host.lastEff 511 = none
      ∧ eV (dir1 0) = true ∧ kvV kv1 = true ∧ eTen (dir1 0) = (0x80000001 : Word).toNat % 2 ^ 12)
    ∧ ((mbox .axolotl).resolveDev (BitVec.ofNat 10 ((snw 0 47).toNat / 2 ^ 6)) = (mbox .axolotl).own)
    ∧ ((0x40000000 : Word).toNat ≤ 2 ^ 30 ∧ 2 ^ 30 < (0x40000001 : Word).toNat ∧ (0 : DWord).toNat + (0x40000000 : Word).toNat ≤ 0x9000000000 ∧ 0x9000000000 < (0x8FFFFFFFFF : DWord).toNat + (2 : Word).toNat ∧ (0x8FFFFFFFFF : DWord).toNat < 0x10000000000)
    ∧ (let y : Hdma := { toHost := false, len := 512, haddr := 0, daddr := 0, reqd := 512, tag := some 0, active := true }
       let s : State := { mbox .run with host := { mbEn := true, tail := 1, reqs := [{ index := 0, tag := 1, what := .inl y, mute := false }] } }
       s.host.reqs = [{ index := 0, tag := 1, what := .inl y, mute := false }] ∧ y.reqd - y.done = 512 ∧ (y.daddr + y.done) % 512 = 0 ∧ (List.replicate 512 (0 : Byte)).length = y.reqd - y.done) := by
  refine ⟨?_, fun _ => rfl, by decide, ⟨by rfl, by rfl⟩, by decide +kernel, ⟨by decide, by decide, by decide, by decide, by decide, by decide, by decide, by decide, fun _ _ _ => .inl rfl⟩,
    ⟨_, rfl⟩, by decide, by decide, by decide, by decide, ?_, by decide, by decide, ⟨rfl, by decide, by decide, by rw [List.length_replicate]; rfl⟩⟩
  · intro st hst
    simp only [List.mem_cons, List.not_mem_nil, or_false] at hst
    obtain rfl | rfl | rfl | rfl | rfl | rfl := hst <;> exact ⟨fetches_mbox (by decide) (by decide), rfl, rfl, rfl, rfl, rfl⟩
  · exact ⟨by decide, by decide, by decide, by decide, by decide, by decide, by decide +kernel, by decide +kernel, by decide +kernel⟩

/-! ## Starts, power, management and security -/

theorem witness_Starts :
    (let s : State := { State.reset with dev := { st := .off } }
     s.dev.st = .off ∧ 44000 ≤ 44000 ∧ ({ mv := 44000 } : StartResult).failStep = none ∧ ({ mv := 44000 } : StartResult).srFail = [] ∧ ({ mv := 44000 } : StartResult).warnLow = false ∧ s.mgmt.selection.trial = none
       ∧ (s.mgmt.fwOf s.mgmt.selection.active).verifies s.mgmt.minsvn = true ∧ ({ mv := 44000 } : StartResult).leaves = none
       ∧ s.mgmt.clear = false ∧ s.mgmt.pend.read.getD [] = [])
    ∧ (∀ n ∈ [7, 11], ∀ c ∈ [1, 2, 3], ({ leaves := some (n, c) } : StartResult).leaves = some (n, c) ∧ 7 ≤ n ∧ n ≤ 11 ∧ c ≠ 0)
    ∧ (let s : State := { State.reset with dev := { st := .tadpole }, mgmt := { paused := some ({}, 8) } }
       s.mgmt.paused = some ({}, 8) ∧ s.mgmt.kind = 1 ∧ s.mgmt.startRq = 0 ∧ s.dev.st = .tadpole ∧ s.power.supply = .good ∧ ({} : StartResult).failStep = none ∧ ({} : StartResult).leaves = none
         ∧ s.mgmt.pend.read.getD [] = [] ∧ s.mgmt.selection.trial = none)
    ∧ (let s : State := { State.reset with mgmt := { startRq := 1 } }
       s.dev.st ≠ .off ∧ s.mgmt.startRq = 1 ∧ s.mgmt.risen = false ∧ s.power.supply = .good ∧ s.mgmt.selection.trial = none ∧ (s.mgmt.fwOf s.mgmt.selection.active).verifies s.mgmt.minsvn = true ∧ s.host.reqs = [] ∧ s.loader.record.read = none)
    ∧ (State.reset.mgmt.startRq = 0 ∧ State.reset.mgmt.paused = none ∧ State.reset.mgmt.romOnly = false ∧ (0x5B : Byte) ≠ 0x5A) := by decide

theorem witness_keptRail :
    (let s : State := { State.reset with dev := { st := .tadpole }, mgmt := { kind := 2, paused := some ({}, 9) } }
     s.mgmt.paused = some ({}, 9) ∧ s.mgmt.kind = 2 ∧ 9 ≤ 9 ∧ (137 - 130 : Nat) ∈ [7, 8, 10, 11, 12, 13] ∧ s.dev.st ≠ .off ∧ (s.sensor 137).bad = false)
    ∧ (fp32.decode (0x3F757A30 : Word).toNat).lt ((ofInt 95).div (ofInt 100)) = false ∧ (fp32.decode (0x3F757A30 : Word).toNat).lt ((ofInt 97).div (ofInt 100)) = true := by decide +kernel

theorem witness_PowerAndThermal :
    State.reset.dev.st ≠ .off ∧ State.reset.dev.st = .preop ∧ (mbox .run).dev.st ≠ .preop
    ∧ (let p : Power := { nLow := 99, nOver := 999, nUnder := 9, nSag := 9, nGood := 9 }
       ((35999 : Nat) < 36000 ∧ (37999 : Nat) < 38000 ∧ 99 ≤ p.nLow) ∧ ((60001 : Nat) > 60000 ∧ 999 ≤ p.nOver) ∧ ((39999 : Nat) < 40000 ∧ 9 ≤ p.nUnder) ∧ ((43999 : Nat) < 44000 ∧ 9 ≤ p.nSag) ∧ (44000 ≤ (60000 : Nat) ∧ 9 ≤ p.nGood) ∧ p.inUnder < 9999)
    ∧ (let p : Power := { low := true }
       let s : State := { State.reset with power := p }
       p.low = true ∧ s.beat.devt.toNat < s.beat.devt.toNat + 2250000 ∧ ({ inUnder := 9999 } : Power).inUnder = 9999)
    ∧ (let s : State := { mbox .run with loader := { img := 4, image := some image0 }, beat := { lastApp := 0, devt := 1794 } }
       s.loader.img = 4 ∧ s.loader.image ≠ none ∧ s.beat.devt.toNat + 456 ≤ s.beat.lastApp + s.beat.period.toNat)
    ∧ (let s : State := { State.reset with power := { falls := [0, 1] }, beat := { devt := 4500 } }
       (∃ t0 ∈ s.power.falls, t0 + 4500 ≤ s.beat.devt.toNat) ∧ ∀ t0 ∈ [1], s.beat.devt.toNat < t0 + 4500)
    ∧ (let s : State := { State.reset with dev := { powered := 0xFFFE }, power := { req := 0xFFFE } }
       s.dev.st = .preop ∧ s.dev.map.getLsbD 0 = true ∧ s.power.req.getLsbD 0 ≠ (0xFFFF : BitVec 16).getLsbD 0 ∧ s.power.req.getLsbD 15 = (0xFFFF : BitVec 16).getLsbD 15 ∧ State.reset.regionIdle 0 = true
         ∧ base.regionIdle (regionOf 0) = false)
    ∧ (let p : Power := { hotRun := 9999, exDuty := 1 }
       p.hotRun = 9999 ∧ p.exDuty = 1 ∧ State.reset.power.hotRun < 9999) := by decide

/-- 110 °C on every die sensor. -/
def hot : State := { State.reset with mgmt := { sensors := (List.range 64).map (fun i => (i, { bits := 0x42DC0000 })) } }

theorem witness_PowerAndThermal_hot : tjmax + 5 * degree ≤ hot.hottest 0 64 + (hot.inputMw * 2 ^ 149 : Nat) := by decide +kernel

theorem witness_SensorsAndLog :
    State.reset.dev.st ≠ .off ∧ (129 : Nat) < 130 ∧ ({ missed := 2 } : Sensor).missed < 3 ∧ 3 ≤ ({ missed := 3 } : Sensor).missed ∧ ({ bad := true, good := 62 } : Sensor).good < 63 ∧ 63 ≤ ({ bad := true, good := 63 } : Sensor).good
    ∧ ((∃ neg m e, fp32.decode (0x43160000 : Word).toNat = .fin neg m e) ∧ (fp32.decode (0x43160000 : Word).toNat).lt (ofInt (-40)) = false ∧ (ofInt 150).lt (fp32.decode (0x43160000 : Word).toNat) = false)
    ∧ ((ofInt 150).lt (fp32.decode (0x43160001 : Word).toNat) = true)
    ∧ (130 ≤ (143 : Nat) ∧ (143 : Nat) < 144 ∧ (Table.get (0, 0) State.reset.mgmt.rails (143 - 130)).2 = 0)
    ∧ ((∃ neg m e, fp32.decode (0x3F733334 : Word).toNat = .fin neg m e) ∧ (fp32.decode (0x3F733334 : Word).toNat).lt ((ofInt 95).div (ofInt 100)) = false ∧ (fp32.decode (0x3F733333 : Word).toNat).lt ((ofInt 95).div (ofInt 100)) = true
      ∧ ((ofInt 2).lt (fp32.decode (0x40000000 : Word).toNat) = false ∧ (ofInt 2).lt (fp32.decode (0x40000001 : Word).toNat) = true))
    ∧ (let s : State := { State.reset with beat := { devt := 22500 }, mgmt := { rails := [(13, (9, 9))] } }
       (Table.get (0, 0) s.mgmt.rails (13 : Fin 14).val).2 = 9 ∧ (Table.get (0, 0) s.mgmt.rails (13 : Fin 14).val).1 + 1 = s.beat.devt.toNat / 2250)
    ∧ (State.reset.log.lost = 0 ∧ (State.reset.log.recs.map (fun (r : LogRec) => logEntries r.fields.length)).sum ≤ 524288 ∧ State.reset.log.waiting < 4096 ∧ ({ Log.reset with lost := 1 } : Log).lost ≠ 0) := by
  refine ⟨by decide, by decide, by decide, by decide, by decide, by decide, ⟨⟨false, 9830400, -16, by decide⟩, by decide, by decide⟩, by decide, by decide, ⟨⟨false, 15938356, -24, by decide⟩, by decide, by decide, by decide⟩, by decide, by decide⟩

/-- The machine in a state with an established SPDM session 1. -/
def secure (st : DevSt) : State := { State.reset with dev := { st }, mgmt := { sess := [{ id := 1, done := true, root := none }], spdm := 3 } }

theorem witness_SecurityAndRecovery :
    (∃ x, (secure .preop).mgmt.sess.find? (fun (x : Session) => decide (x.id = 1) && x.done) = some x ∧ ((∀ b ∈ (secure .preop).mgmt.root, b = 0) ∨ x.root = some (secure .preop).mgmt.root))
    ∧ (¬ ∃ x, State.reset.mgmt.sess.find? (fun (x : Session) => decide (x.id = 1) && x.done) = some x)
    ∧ ((List.replicate 64 (0 : Byte)).length = 64 ∧ (List.replicate 512 (0 : Byte)).length = 512)
    ∧ ((secure .preop).dev.st ≠ .off ∧ (secure .preop).mgmt.romOnly = false ∧ (secure .preop).mgmt.minsvn ≤ (0 : Byte).toNat ∧ (0 : Byte).toNat ≤ ((secure .preop).mgmt.fwOf (secure .preop).mgmt.slot).svn ∧ ((secure .preop).mgmt.fwOf (secure .preop).mgmt.slot).svn < (1 : Byte).toNat)
    ∧ (1 ≤ (4095 : Nat) ∧ (4095 : Nat) ≤ 4095 ∧ (secure .preop).tenantBound 4095 = false ∧ (∀ i, i < 8 → ((secure .preop).stack i).dir = []))
    ∧ (let s : State := { newt7 (nd 0 0 0 0) 1 0 with mgmt := (secure .preop).mgmt, dev := (secure .preop).dev }
       (s.tenantExtents 1).filter (fun (x : Nat × Nat × Nat) => decide (x.2.2 ≠ 0)) ≠ [] ∧ (s.mgmt.sess.any (fun x => decide (x.id = 1) && x.done)) = true ∧ s.tenantBound 1 = false)
    ∧ ((secure .ready).dev.st = .ready ∧ (secure .ready).mgmt.axo = none ∧ (secure .ready).loader.image = none ∧ Table.look (secure .ready).mgmt.boot 0x705002 = none ∧ Table.look (secure .ready).mgmt.boot 0x900001 = none
      ∧ ¬ (0x8F00000000 < 0x8E00000000 + 2 ^ 32 ∧ 0x8E00000000 < 0x8F00000000 + 2 ^ 32) ∧ (secure .ready).cores = [])
    ∧ (let s : State := { secure .ready with loader := { image := some { image0 with msize := 2 }, mbase := 0x8DFFFFFFFF } }
       s.loader.image = some { image0 with msize := 2 } ∧ (2 : Nat) ≠ 0 ∧ s.loader.mbase.toNat < 0x8E00000000 + 2 ^ 32 ∧ 0x8E00000000 < s.loader.mbase.toNat + 2)
    ∧ ((secure .axolotl).cores = [] ∧ (∀ cl, (secure .axolotl).vmQuiet cl = true) ∧ (1 : Byte) ≠ 2 ∧ (3 : Byte) ≠ 1 ∧ (3 : Byte) ≠ 2)
    ∧ ((secure .preop).dictCheck (.mctp none) 0x9000 1 (leBytes 8 0) = 0 ∧ (leBytes 8 0).length ≤ 232 ∧ 0x9000 / 2 ^ 8 ∈ [0x10, 0x90])
    ∧ ((secure .axolotl).dev.st = .axolotl ∧ ∃ e, ((secure .axolotl).loadCheck (0x8E00000000 + 0x100000) 0 true true).2 = .inl e)
    ∧ ((secure .preop).visible (.mctp none) 0xFFFF 0 = none ∧ ((secure .preop).visible (.mctp none) 0x0003 0).isSome = true ∧ (secure .preop).dictCheck (.mctp none) 0xFFFF 0 [] ≠ 0) := by
  refine ⟨⟨{ id := 1, done := true, root := none }, rfl, .inl (fun b hb => List.eq_of_mem_replicate hb)⟩, ?_, ⟨by rw [List.length_replicate], by rw [List.length_replicate]⟩, by decide, ⟨by decide, by decide, by decide, fun _ _ => rfl⟩, by decide +kernel, by decide, by decide, ⟨rfl, fun _ => rfl, by decide, by decide, by decide⟩, by decide +kernel,
    ⟨rfl, _, rfl⟩, ⟨by rfl, by rfl, by decide +kernel⟩⟩
  rintro ⟨x, hx⟩; cases hx

/-- The machine with an update in this step, `n` of `n` bytes of its component received. -/
def updating (p : Pldm) (n : Nat) : State := { State.reset with mgmt := { pldm := p, fw := List.replicate n 0, fwLen := n } }

theorem witness_FirmwareUpdate :
    (∀ p ∈ [Pldm.idle, .learn, .ready, .download, .verify, .apply, .activate], (updating p 1).mgmt.pldm = p ∧ (updating p 1).dev.st ≠ .off ∧ (updating p 1).mgmt.romOnly = false ∧ (updating p 1).mgmt.fw.length = (updating p 1).mgmt.fwLen)
    ∧ (1 = (updating .download 1).mgmt.fw.length ∧ 1 + ([] : List Byte).length ≤ (updating .download 1).mgmt.fwLen ∧ (2 ^ 23 : Nat) ≤ 2 ^ 23)
    ∧ ((updating .verify 1).mgmt.slotB.verifies (updating .verify 1).mgmt.minsvn = true ∧ (FwImg.bytes [0]).verifies 0 = false) := by
  refine ⟨?_, by decide, by decide, ?_⟩
  · intro p hp
    simp only [List.mem_cons, List.not_mem_nil, or_false] at hp
    obtain rfl | rfl | rfl | rfl | rfl | rfl | rfl := hp <;> decide
  · simp [FwImg.verifies, fwTail]

theorem witness_Attestation :
    (∀ n, let s : State := { State.reset with mgmt := { spdm := n } }
      s.dev.st ≠ .off ∧ s.dev.st ≠ .tadpole ∧ s.mgmt.romOnly = false ∧ s.mgmt.spdm = n)
    ∧ ((1 : Byte) ≠ 0 ∧ (0 : BitVec 16).toNat ≤ (Config.certChain.take 4096).length ∧ 0 < (7 : Byte).toNat ∧ (7 : Byte).toNat ≤ 7 ∧ 7 < (8 : Byte).toNat ∧ (8 : Byte) ≠ 0xFF)
    ∧ ((secure .preop).mgmt.sess.length < 2 ∧ (∃ x ∈ (secure .preop).mgmt.sess, x.id = 1 ∧ x.done = true) ∧ ¬ (∃ x ∈ (secure .preop).mgmt.sess, x.id = 2))
    ∧ 2 ≤ ([{ id := 1, done := true, root := none }, { id := 2, done := false, root := none }] : List Session).length :=
  ⟨fun _ => ⟨show DevSt.preop ≠ .off by decide, show DevSt.preop ≠ .tadpole by decide, rfl, rfl⟩, ⟨by decide, Nat.zero_le _, by decide, by decide, by decide, by decide⟩, by decide, by decide⟩

/-! ## The monitor, registers, the clock, and what every step keeps -/

/-- The unlocked monitor in this device state. -/
def unlocked (st : DevSt) : State := { State.reset with dev := { st }, mon := { unlocked := true } }

/-- The command that a line spells. -/
def parsed (line : String) (c : MonCmd) : Bool := match parseLine (ascii line) with | .ok d => decide (d = c) | .error _ => false

/-- The status that ends a line which is no command. -/
def badLine (line : String) (st : Nat) : Bool := match parseLine (ascii line) with | .ok _ => false | .error e => decide (e = st)

/-- R510, R512 and Table 22.1. -/
theorem test_parse : parsed "or 1000 0x0_1" (.od 0x1000 1 0 1024) ∧ parsed "  mw d 1_0000_0000 0102 0304" (.mw .w64 0x100000000 [1, 2, 3, 4]) ∧ parsed "lr 1F" (.lr 31 4)
    ∧ badLine "ST" 0x20 ∧ badLine "st 1" 0x21 ∧ badLine "or 1000" 0x21 ∧ badLine "unlock 1 23" 0x21 ∧ badLine "cs 1g" 0x21 := by decide +kernel

/-- R510: pairs, sixteen bytes a line, lower case, CRLF. -/
theorem test_dataLines : dataLines ((List.range 17).map (fun i => BitVec.ofNat 8 (i + 0xA0))) = ascii "a0 a1 a2 a3 a4 a5 a6 a7 a8 a9 aa ab ac ad ae af" ++ [13, 10] ++ ascii "b0" ++ [13, 10] := by decide +kernel

/-- A command's line parses into the command. -/
theorem test_text : ([.st, .od 0x6003 1 0 1024, .ow 0x1000 1 [2], .lr 0 4, .chal, .unlock [0xAB], .lock, .mr .w4096 0x10000 2, .mw .w8 1 [0xFF], .cs 1023] : List MonCmd).all
    (fun c => (match parseLine (c.text.take (c.text.length - 1)) with | .ok d => decide (d = c) | .error _ => false) && decide (c.text.length ≤ 3201)) = true := by decide +kernel

theorem witness_Monitor_lines : State.reset.mon.idle = true ∧ ({ job := some { write := false, size := 1, addr := 0, left := 1, bytes := [] } } : Varan).idle = false ∧ 3201 < (MonCmd.unlock (List.replicate 1600 0)).text.length
    ∧ (65 : Byte) ≠ 10 ∧ (65 : Byte) ≠ 13 ∧ ({ uart := [65] } : Varan).rx = [] ∧ badLine "x" 0x20 ∧ parsed "lock" .lock := by decide +kernel

theorem witness_Monitor :
    State.reset.dev.st ≠ .off ∧ State.reset.mgmt.romOnly = false ∧ ({ romOnly := true } : Mgmt).romOnly = true ∧ (16 : Nat) ≤ 16 ∧ 16 < (17 : Nat) ∧ 1024 < (1025 : Nat)
    ∧ (State.reset.visible .varan 0xFFFF 0 = none ∧ (State.reset.visible .varan 0x0003 0).isSome = true ∧ State.reset.dictCheck .varan 0xFFFF 0 [] ≠ 0)
    ∧ (State.reset.mon.nonce = none ∧ State.reset.mon.unlocked = false)
    ∧ (∀ st ∈ [DevSt.preop, .ready, .axolotl, .fault, .run, .hold], (unlocked st).mon.unlocked = true ∧ (unlocked st).dev.st = st ∧ (unlocked st).badMem = [] ∧ (unlocked st).coreOn 1023 = true ∧ ((unlocked st).core 1023).run.st ≠ .running ∧ st ≠ .tadpole)
    ∧ (let addr : DWord := BitVec.ofNat 64 (own 0x8FFFFFFFF8)
       Width.w64 ≠ .w256 ∧ Width.w64 ≠ .w512 ∧ addr.toNat < 2 ^ 56 ∧ State.reset.resolveDev (BitVec.ofNat 10 (addr.toNat / 2 ^ 46)) = State.reset.own ∧ addr.toNat % Width.w64.bytes = 0 ∧ addr.toNat % 2 ^ 46 + 8 ≤ 0x9000000000)
    ∧ ((beat { devt := 2025000000000 }).mon.lastLine + 2025000000000 ≤ (beat { devt := 2025000000000 }).beat.devt.toNat ∧ (beat { devt := 2024999999999 }).beat.devt.toNat < (beat { devt := 2024999999999 }).mon.lastLine + 2025000000000) := by
  refine ⟨by decide, by decide, by decide, by decide, by decide, by decide, ⟨by rfl, by rfl, by decide +kernel⟩, by decide, ?_, by decide, by decide⟩
  intro st hst
  simp only [List.mem_cons, List.not_mem_nil, or_false] at hst
  obtain rfl | rfl | rfl | rfl | rfl | rfl := hst <;> decide

theorem witness_RegisterWrites :
    State.reset.dev.st ≠ .off ∧ State.reset.host.d3 = false ∧ ({ d3 := true } : HostIf).d3 = true ∧ ((0x1000 : DWord).extractLsb' 8 6).toNat = 6 + 10 ∧ 6 ≤ State.reset.bar2Max ∧ State.reset.bar2Max < 54 ∧ (0x0000001000000000 : DWord).extractLsb' 30 16 = 0x40 ∧ (0x40 : BitVec 16).toNat % 2 ^ State.reset.host.bar2Log = 0 ∧ ((0x0000000040000000 : DWord).extractLsb' 30 16).toNat % 2 ^ State.reset.host.bar2Log ≠ 0
    ∧ State.reset.host.mbEn = false ∧ (mbox .run).host.mbEn = true ∧ ((0x1000 : DWord) &&& ~~~0xFFF) ≠ (mbox .run).host.qbase ∧ (let h : HostIf := { slRt := true }
      h.slRt = true ∧ ((0x1000 : DWord) &&& ~~~0xFFF) ≠ h.rtBase)
    ∧ ((0x004 : BitVec 46).toNat < 0x2000 ∧ ((0x004 : BitVec 46).toNat, Width.w32) ∉ [(0x000, Width.w32), (0x008, .w64), (0x010, .w64), (0x018, .w32), (0x01C, .w32), (0x100, .w32), (0x108, .w64), (0x110, .w64), (0x118, .w32), (0x11C, .w32), (0x200, .w64), (0x208, .w32), (0x1000, .w32), (0x1004, .w32)])
    ∧ (0x2000 ≤ (0x2FF8 : BitVec 46).toNat ∧ (0x2FF8 : BitVec 46).toNat + Width.w64.bytes ≤ 0x3000 ∧ (0x2FF8 : BitVec 46).toNat % Width.w64.bytes = 0 ∧ Width.w64.bytes ≤ 8)
    ∧ (State.reset.coreOn (1023 : CoreId).toNat = true ∧ ({ State.reset with dev := { map := 0 } } : State).coreOn (1023 : CoreId).toNat = false ∧ State.reset.coreOn (nwOf (63 : ClusterId).toNat) = true)
    ∧ ((0 : DWord).getLsbD 31 = (State.reset.clu 0).sync.vm ∧ (0x80000000 : DWord).getLsbD 31 ≠ (base.clu 0).sync.vm ∧ (∃ j, j < 16 ∧ (base.core (BitVec.ofNat 10 (coreOfK 0 j))).run.st = .running)) := by
  refine ⟨by decide, rfl, rfl, by decide, by decide, by decide, by decide, by decide, by decide, by decide, by decide, by decide, by decide, by decide, by decide, by decide, by decide, by decide, ⟨0, by decide⟩⟩

theorem witness_ClockCycle :
    State.reset.pending = [] ∧ State.reset.dev.st ≠ .off ∧ State.reset.host.reqs = [] ∧ State.reset.mgmt.axo = none ∧ State.reset.mgmt.rwait = none ∧ State.reset.host.odBusy = false ∧ State.reset.net = [] ∧ (∀ c m, (State.reset.core c).run.hold ≠ .rows m) ∧ (∀ c, (State.reset.core c).run.stall = false) ∧ (∀ cl ch, (State.reset.chan cl ch).abort = false) ∧ (State.reset.mon.uart = [] ∧ State.reset.mon.rx = [] ∧ State.reset.mon.job = none ∧ State.reset.host.bar2R = []) ∧ (∀ c e, ((State.reset.core c).mat.eng e).queue = []) ∧ ({ State.reset with dev := { st := .off } } : State).dev.st = .off
    ∧ State.reset.coreOn (1023 : CoreId).toNat = true ∧ State.reset.freqCode (regionOf (1023 : CoreId).toNat) = 0 ∧ ({ beat { frz := true } with pending := [] } : State).beat.frz = true :=
  ⟨rfl, by decide, rfl, rfl, rfl, rfl, rfl, fun _ _ => by simp [State.core, State.reset, Table.get, Core.reset], fun _ => rfl, fun _ _ => rfl, ⟨rfl, rfl, rfl, rfl⟩, fun _ e => by cases e <;> rfl, by decide, by decide, by decide, rfl⟩

theorem witness_MemoryStaysCanonical : ({ State.reset with pending := [.nop 0] } : State).memOk = true ∧ ∃ t, step { State.reset with pending := [.nop 0] } = .next t := ⟨by decide, _, rfl⟩

theorem witness_FusesStay : ∃ t, step { State.reset with pending := [.nop 0] } = .next t := ⟨_, rfl⟩

/-! ## Commands that are not well formed -/

theorem refuses_sensor : (Instr.sensorSample 144 none).wellFormed = false ∧ (Instr.sensorSample 143 none).wellFormed = true := by decide
theorem refuses_hash : (Instr.setRootHash 1 [0]).wellFormed = false := by decide
theorem refuses_modulus : (Instr.keyInstall 1 0 [0]).wellFormed = false ∧ (Instr.unlockModulusInstall 1 [0]).wellFormed = false ∧ (Instr.keyInstall 1 0 []).wellFormed = true := by decide
theorem refuses_exchange : (Instr.keyExchange { share := [0] }).wellFormed = false ∧ (Instr.keyExchange { share := List.replicate 96 0 }).wellFormed = true := by decide
theorem refuses_nonce : (Instr.challenge 0 [0]).wellFormed = false := by decide
theorem refuses_width : (Instr.varanMr .w512 0 1).wellFormed = false ∧ (Instr.varanMw .w256 0 []).wellFormed = false := by decide
theorem refuses_start : (Instr.coldStart { failStep := some 15 }).wellFormed = false ∧ (Instr.warmStart { failStep := some 0 }).wellFormed = false := by decide
theorem no_word_decodes : decodeTableWord 16 0 = none := by decide

/-! ## Figures of the spec -/

/-- The state of an outcome. -/
def after (o : Out) : State := match o with | .next t => t | _ => State.reset

/-- Encodings that the chapters write out: Tables 3.14, R61 and the examples of chapters 3, 6, 8, 12, 13 and 14 (R55). -/
theorem test_encodings :
    illegalWords 0x3386 0x1400 = none ∧ illegalWords 0x368A 0x2800 = none ∧ illegalWords 0x38E0 0x0003 = none ∧ illegalWords 0x3A07 0x0168 = none ∧ illegalWords 0x3A90 0x1803 = none
      ∧ illegalWords 0x3B20 0x0001 = none ∧ illegalWords 0x3B23 0x1400 = none ∧ illegalWords 0x3C56 0x0200 = none ∧ illegalWords 0x3507 0x000E = none ∧ illegalWords 0x3288 0x00EC = none ∧ illegalWords 0x0258 0 = none
      ∧ ldstWords 8 6 2 2 0 0 0 = [0x3386, 0x1400] ∧ enc1 2 5 8 = [0x0258] := by decide +kernel

/-- Table 10.7: one byte by its interleaved, its stack and its fabric address. -/
theorem test_interleave :
    memOfLocal 0x123456B8C0 = (3, 0x2468AD4C0) ∧ localOfMem 3 0x2468AD4C0 = 0x123456B8C0 ∧ targetOf 0x0162468AD4C0 = .mem 3 0x2468AD4C0 ∧ mkFAddr 5 0x123456B8C0 = 0x140123456B8C0 := by decide +kernel

/-- After R241: a stride of 256 granules meets every channel, one of 257 only channel 0. -/
theorem test_strides : ∀ k, k < 256 → (memOfLocal (131072 * k)).1 = k / 32 ∧ (interleave (131072 * k)).2.1 = k % 32 ∧ (memOfLocal (131584 * k)).1 = 0 := by decide +kernel

/-- Table 2.10: 3.7, 1.3, 0.75 and −0.2 as MXFP4 with BIAS 0 and +1. -/
theorem test_mxfp4 :
    mxBlock 0x7F000108 [fp32.decode 0x406CCCCD, fp32.decode 0x3FA66666, fp32.decode 0x3F400000, fp32.decode 0xBE4CCCCD] = (0x7E, [0b0111, 0b0101, 0b0011, 0b1001])
      ∧ mxBlock 0x7F010108 [fp32.decode 0x406CCCCD, fp32.decode 0x3FA66666, fp32.decode 0x3F400000, fp32.decode 0xBE4CCCCD] = (0x7F, [0b0110, 0b0011, 0b0010, 0b1000]) := by decide +kernel

/-- After R63: reversing the bytes of g4 and keeping g5 to g7. -/
theorem test_bperm :
    (let t := after (exec (.bperm 0 4 4 10) (cpu0 { kern.cpu with regs := [(4, 0x11223344), (5, 5), (6, 6), (7, 7), (10, 0x76540123), (11, 0xFEDCBA98)] }))
     (t.reg 0 4, t.reg 0 5, t.reg 0 6, t.reg 0 7)) = (0x44332211, 5, 6, 7) := by decide +kernel

/-- Tables 3.14 and 3.15: the loop is set up, loops back while lc0 > 1, and ends. -/
theorem test_field_sum :
    (let t := after (exec (.loop 0 false false 7 0x00E) (cpu0 { kern.cpu with pc := 0x006, regs := [(7, 256)] }))
     ((t.core 0).cpu.ls0, (t.core 0).cpu.le0, (t.core 0).cpu.lc0, (t.core 0).cpu.pc)) = (0x008, 0x00E, 256, 0x008)
    ∧ (let t := after (exec (.add 0 5 8) (cpu0 { kern.cpu with pc := 0x00E, ls0 := 8, le0 := 0x00E, lc0 := 256 }))
       ((t.core 0).cpu.pc, (t.core 0).cpu.lc0)) = (0x008, 255)
    ∧ (let t := after (exec (.add 0 5 8) (cpu0 { kern.cpu with pc := 0x00E, ls0 := 8, le0 := 0x00E, lc0 := 1 }))
       ((t.core 0).cpu.pc, (t.core 0).cpu.lc0)) = (0x00F, 0) := by decide +kernel

/-- Core 700 at task level with sd3 over 4 rows of its A memory, after the fourth row of an mld of tile BA0 (the example after Table 4.12). -/
def core700 : State :=
  let d := seg (0x100000000000 + 700 * 0x100000 + 0x60000) 0x800 2 0xF
  let m : TileMove := { store := false, tile := 2, sd := 3, desc := d, off := 0, rel := false, start := 0, next := 4, pc := 0x0240 }
  { State.reset with cores := [(700, { kern with cpu := { kern.cpu with sup := false, ie := true, pc := 0x0240, sds := [(3, d)] }, run := { kern.run with hold := .rows m } })] }

/-- Table 4.13: what the block holds after the fault of row 4. -/
theorem test_limit_in_tile_load :
    (core700.matrixCycle 700).net.map (fun p => (p.data.toNat % 2 ^ 32, p.data.toNat / 2 ^ 32 % 2 ^ 32, p.data.toNat / 2 ^ 64 % 2 ^ 32, p.data.toNat / 2 ^ 256 % 2 ^ 46)) =
      [(0x00040430, 0x0240, 0x00000101, 0x10002BC60800), (0, 0, 0, 0), (0, 0, 0x80000004, 0), (0, 0, 0, 0)] := by decide +kernel

/-- Table 12.7, step 8: core 40's six rows meet w = 18, occ = 3 of 20: waste 2, w = 6, occ = 11, 3 credits come back. -/
theorem test_wrap :
    (let p : Packet := { pk .msg 300 1 (0x100000000000 + 300 * 0x100000) with src := 40, op6 := BitVec.ofNat 32 (5 * 2 ^ 19 + 2 ^ 18 + 5 * 2 ^ 13 + 3 * 2 ^ 9) }
     let s : State := { State.reset with cores := [(300, { kern with que := { rcfg := [(3, 0xC0C80014)], rings := [(3, { w := 18, occ := 3 })] } })], net := [p] }
     let t := after (exec (.messageRow 0 false) s)
     let g := (t.core 300).que.ring 3
     (g.w, g.occ, t.net.map (fun q => (q.dst, q.op7)))) = (6, 11, [(40, 3), (40, 0)]) := by decide +kernel

/-- Table 15.10: STALLB 400 and SLACK 180 give E = 220 and a request of 256 cc; the lag after a stretch of 256 is 0. -/
theorem test_late_reply :
    (let b : Beat := { frz := true, resumeAt := some 1095, devt := 1095, stallb := 400, slack := 180 * 2 ^ 48, sten := true }
     (after (exec .freezeResume (beat b))).beat.gather = 256)
    ∧ (let b : Beat := { lock := .locked, first := false, devt := 2506, stallb := 400, slack := 180 * 2 ^ 48, toApply := [{ time := 2506, beat := none, str := 256 }] }
       (after (exec .beatBoundaryApply (beat b))).beat.lag = 0) := by decide +kernel

/-- Table 20.3. -/
theorem test_stack_rates : rateFor (90 * degree - 1) = 8 ∧ rateFor (90 * degree) = 6 ∧ rateFor (93 * degree) = 4 ∧ rateFor (95 * degree) = 2 := by decide +kernel

/-- R341: CRC-32C of the digits 1 to 9. -/
theorem test_crc : crcBytes 0xFFFFFFFF [0x31, 0x32, 0x33, 0x34, 0x35, 0x36, 0x37, 0x38, 0x39] ^^^ 0xFFFFFFFF = 0xE3069283 := by decide +kernel

/-- R39 to R42: 1 − 2^−30 within the window of 21 bits below the leading one is 1 − 2^−20. -/
theorem test_window : accStep 0x3F800000 [.fin true 1 (-30)] = 0x3F7FFFF0 := by decide +kernel

/-! ## Computations that take seconds, last so that nothing waits for them -/

theorem witness_Starts_unwrap : State.reset.mgmt.unwrap = some (List.replicate 16 0) ∧ ({ wrapped := [] } : Mgmt).unwrap = none := by decide +kernel

/-- A self-signed certificate in DER, made outside the model with OpenSSL: RSA of 4,096 bits, RSASSA-PSS with SHA-512 and a 64-byte salt. -/
def rootDer : List Byte :=
    beBytes 230 0x3082056130820315a0030201020214758c180655f904d0db6a15d907e91ac2985c1b73304106092a864886f70d01010a3034a00f300d06096086480165030402030500a11c301a06092a864886f70d010108300d06096086480165030402030500a203020140300c310a300806035504030c0152301e170d3236313132393032313030325a170d3336313132363032313030325a300c310a300806035504030c015230820222300d06092a864886f70d01010105000382020f003082020a0282020100c6781dd770774c073ac64296e5fe4c68eca004c2ba1ccdfae6c9ef6567c81642fae361 ++
    beBytes 230 0x2c29b6ee78fa66d952fdcc20f934cf97696d4f145f6b3a2f3127b896ce09a3a5c05592ae0339911f25f3ac20ca6a6bf567dec1b4975108f0d7b8e1988150f67213223cffa8fd770077cfac528c353942e67b0a106cb97964f442da595dd750007177748dd2448ba9e330f6cc263737842a1aa5eaaac0577640675514ffe1f1e683a0951fcb6d49251ef4b227d946966d9540d74e97473f3c6f2dbd0eae58bd85e7826b3a092ebfdd21f385c480df98307ca34f0917507984bba3d5c9cfb70508514e9cc275a53ca2cc7f23ecb5f3545ae5f52b6c07dcc13f18fcadab5fa0186cdc4a33e69517 ++
    beBytes 230 0x5bc0805f1d97ecc62e89c8e957c1bd1e5ac0203176f0fd11460315a7dd516c83adabc96549783eedda30ab881db1152f715bb77455c8a50f5bf5b8784a203439dcf6c688d6656f8aa85eb963f81a4e8f77a90e753597f6f332294bc2c8885237c8e07a2d35305dafd5cb1d2e4b5f314eb6fa3d2174ae811d106fdc583c56f8b9acbae4ff4a49370c2fd8a01c2929dece52a4cd23b7af86be73733f18885765a86725c6849fc7eca9b5f1a661717dd0a22b7411742718177642ce06df3f7b9252946bded08f01b3fb65be8082da4967abf4ffc09c5f280e5de26957be98bcba7b3accc72b0d9e ++
    beBytes 230 0xcfff08e846a16cb65e809d22a8bfbf322f0203010001a3533051301d0603551d0e041604147103897dc036031803d5707fe8a73ed9cf0b8c02301f0603551d230418301680147103897dc036031803d5707fe8a73ed9cf0b8c02300f0603551d130101ff040530030101ff304106092a864886f70d01010a3034a00f300d06096086480165030402030500a11c301a06092a864886f70d010108300d06096086480165030402030500a203020140038202010030b87d01da9ae54c4a2911889e00edc7eeb8c2b17c50356d3e43ce087ed15ece40a35e4ddabf6282d140d483d1a1a7b94016a6 ++
    beBytes 230 0x15d5d28df0aa39b955a4348dc221a66e6755a9443fb202c193d2e14b92d07b7f3f4b01930a687ce7998ac850fbd7d6450a9ea82698068a43fa33b414b551a3967fa9b2f93aeb0be3b5016dee4b39d672f64d0fc883df2d4779cb523fe9b555091b8be16e92569a3d3088f968a6f9f7534659008e82b7427b5f39ba2babfe12a915d0b3adf6afded864d52e3f51b390d12687d0a90e1e3f0a5b583cab024ff863d1af33665847cb1c143c63e0121ccafec7c09d671ca53da8cf9bfe4fe1c7674eb320cdbb53b62a14579a93ceaa4b4a9707549eac22886d097864b5d5211002fe32be4d317d32 ++
    beBytes 230 0x6f3b95ff04a3742f5af09660a8529e367925ac53447b66f7d09eaee777a54e12fd579acbe9590cc78e04aca8030105a76784c019f72758e0e5a1f93ac5eaa4ae58d736a90f455b23227a88ee47f35a84ab38ae6b800da66d002adff28b0a82b905eb457a9f9699a99bdfdcdd71130f875e5420e9cd4bbc279c683632c544159353606865c398ff3d0658c749470b73e18d3fdeeedd9cb886d99c8a2341e83dc8cd1951af075b06f0ed600de1157bb2af017fc5a54426bfded73e8a50e663e58814e18353ecbbe2c15a817d52f2551e7ba85ed80f921cf70c679098299aa5b8fb2d5450f40862 ++
    beBytes 1 0x1d

theorem witness_Attestation_chain : (chainRoot [rootDer]).isSome = true ∧ (chainRoot [rootDer.set 60 0]) = none := by decide +kernel

end Sys2Proof.Tests
end

section
/-! The special values of R28 to R41: a step of the accumulation window, products, and elements under a NaN scale. -/

namespace Sys2Proof.Machine

/-! ### A step whose addends are not all finite (R41) -/

/-- The window's test for a NaN asks whether NaN is among the addends. -/
theorem any_isNan {xs : List FVal} : xs.any FVal.isNan = true ↔ FVal.nan ∈ xs := by
  have isNan_iff (x : FVal) : x.isNan = true ↔ x = .nan := by cases x <;> simp [FVal.isNan]
  simp [isNan_iff]

/-- The window's test for an infinity asks whether it is among the addends. -/
theorem any_eq_inf {xs : List FVal} {neg : Bool} :
    xs.any (fun x => decide (x = .inf neg)) = true ↔ FVal.inf neg ∈ xs := by
  simp

/-- The window's test for infinities of both signs. -/
theorem any_both_infs {xs : List FVal} :
    (xs.any (fun x => decide (x = .inf false)) && xs.any (fun x => decide (x = .inf true))) = true
      ↔ FVal.inf false ∈ xs ∧ FVal.inf true ∈ xs := by
  rw [Bool.and_eq_true_iff, any_eq_inf, any_eq_inf]

section
variable {a : Word} {prods : List FVal}

theorem accStep_of_nan (h : FVal.nan ∈ fp32.decode a.toNat :: prods) : accStep a prods = 0x7FC00000 := by
  rw [accStep, if_pos (any_isNan.mpr h)]

theorem accStep_of_both_infs (hpos : FVal.inf false ∈ fp32.decode a.toNat :: prods)
    (hneg : FVal.inf true ∈ fp32.decode a.toNat :: prods) : accStep a prods = 0x7FC00000 := by
  rw [accStep, if_pos (any_both_infs.mpr ⟨hpos, hneg⟩), ite_self]

theorem accStep_of_pos_inf (hnan : FVal.nan ∉ fp32.decode a.toNat :: prods)
    (hpos : FVal.inf false ∈ fp32.decode a.toNat :: prods) (hneg : FVal.inf true ∉ fp32.decode a.toNat :: prods) :
    accStep a prods = BitVec.ofNat 32 (fp32.infinity false) := by
  rw [accStep, if_neg (mt any_isNan.mp hnan), if_neg (mt any_both_infs.mp fun both => hneg both.2),
    if_pos (any_eq_inf.mpr hpos)]

theorem accStep_of_neg_inf (hnan : FVal.nan ∉ fp32.decode a.toNat :: prods)
    (hpos : FVal.inf false ∉ fp32.decode a.toNat :: prods) (hneg : FVal.inf true ∈ fp32.decode a.toNat :: prods) :
    accStep a prods = BitVec.ofNat 32 (fp32.infinity true) := by
  rw [accStep, if_neg (mt any_isNan.mp hnan), if_neg (mt any_both_infs.mp fun both => hpos both.1),
    if_neg (mt any_eq_inf.mp hpos), if_pos (any_eq_inf.mpr hneg)]

end

/-! ### Products (R41) -/

@[simp] theorem FVal.mul_nan (x : FVal) : x.mul .nan = .nan := by cases x <;> rfl

@[simp] theorem FVal.nan_mul (x : FVal) : FVal.nan.mul x = .nan := rfl

theorem FVal.isZero_iff {x : FVal} : x.isZero = true ↔ ∃ neg e, x = .fin neg 0 e := by
  cases x <;> simp [FVal.isZero]

theorem FVal.zero_mul_inf {x : FVal} (h : x.isZero = true) (n : Bool) : x.mul (.inf n) = .nan := by
  obtain ⟨neg, e, rfl⟩ := FVal.isZero_iff.mp h
  rfl

theorem FVal.inf_mul_zero {x : FVal} (h : x.isZero = true) (n : Bool) : (FVal.inf n).mul x = .nan := by
  obtain ⟨neg, e, rfl⟩ := FVal.isZero_iff.mp h
  rfl

/-! ### Elements under a block scale (R30, R32) -/

/-- The model's bit field of a number is that of the bit vector. -/
theorem bitsOf_toNat {w : Nat} (v : BitVec w) (lo n : Nat) :
    bitsOf v.toNat (lo + n) lo = (v.extractLsb' lo (n + 1)).toNat := by
  rw [bitsOf, BitVec.extractLsb'_toNat, Nat.add_assoc, Nat.add_sub_cancel_left]

theorem isMx_iff {f : Nat} : isMx f = true ↔ 4 ≤ f ∧ f ≤ 9 := by simp [isMx]

theorem rowElem_of_nan_scale {f : Nat} {r : Row} {k : Nat} (hf : isMx f = true)
    (hscale : r.side.extractLsb' (8 * (k / 32)) 8 = 0xFF) : rowElem f r k = .nan := by
  have scale : bitsOf r.side.toNat (8 * (k / 32) + 7) (8 * (k / 32)) = 0xFF := by
    rw [bitsOf_toNat, hscale]; rfl
  rw [rowElem, if_pos hf, if_pos scale]

/-- Settles O18: the running value is an addend like the products, so the branches of a step before the window and those of a product decide every case. -/
theorem specialAddends : Obligations.SpecialAddends := by
  refine ⟨?step, by decide, by decide, by decide, ?product, ?scaled⟩
  case step =>
    intro a prods xs pos neg
    exact ⟨accStep_of_nan, fun _ => accStep_of_both_infs, accStep_of_pos_inf, accStep_of_neg_inf⟩
  case product =>
    intro x n
    exact ⟨x.mul_nan, x.nan_mul, fun hx => ⟨FVal.zero_mul_inf hx n, FVal.inf_mul_zero hx n⟩⟩
  case scaled =>
    intro f r k h4 h9 _ hscale
    exact rowElem_of_nan_scale (isMx_iff.mpr ⟨h4, h9⟩) hscale

end Sys2Proof.Machine
end

section
/-! Transfers of control of the scalar core (R57, R58, R65 to R68): what a jump, a call and a return leave, and when the return stack faults. -/

namespace Sys2Proof.Machine

/-! ### A jump that changes its core's scalar state -/

theorem State.core_open (s : State) (c : CoreId) :
    (s.open c).core c = { s.core c with cpu := { (s.core c).cpu with shadow := false } } := by simp

/-- The issue of an instruction ends the core's wait and its response hold, and changes nothing else beside the scalar state. -/
theorem Beside.issued (k : Core) (u : Cpu) :
    Beside k { Core.issued k with cpu := u, run := { (Core.issued k).run with stall := false } } :=
  ⟨rfl, rfl, rfl, rfl, rfl, rfl⟩

theorem issue_jump {s : State} {c : CoreId} {ws : List Nat} {uses : List Reg} {eff : State → Exec} {f : Cpu → Cpu} {p : PAddr}
    (h : Ready s c uses ws.length) (he : eff (s.open c) = .jump ((s.open c).modCpu c f) p) :
    ((s.issue c ws uses eff).core c).cpu = { f { (s.core c).cpu with shadow := false } with pc := p }
      ∧ Beside (s.core c) ((s.issue c ws uses eff).core c) ∧ Apart s (s.issue c ws uses eff) c := by
  obtain ⟨t, ht, hcore, hapart⟩ := jump_cpu h he
  rw [ht, hcore]
  exact ⟨rfl, Beside.issued _ _, hapart⟩

/-! ### Calls (R67, R68) -/

section
variable {s : State} {c : CoreId} {ws : List Nat} {uses : List Reg} {eff : State → Exec} {ra target : PAddr}

/-- DEPTH counts up to 8 and stays there. -/
theorem Cpu.toNat_depth_push (u : Cpu) (ra : PAddr) : (u.push ra).depth.toNat = min (u.depth.toNat + 1) 8 := by
  unfold Cpu.push
  split
  case isTrue h => bv_omega
  case isFalse h => bv_omega

theorem callTo_of_room (t : State) (c : CoreId) (h : ¬ ((t.core c).cpu.rso = true ∧ (t.core c).cpu.depth = 8)) :
    callTo t c ra target = .jump (t.modCpu c (·.push ra)) target :=
  if_neg (mt And.symm h)

theorem callTo_of_full (t : State) (c : CoreId) (h : (t.core c).cpu.rso = true ∧ (t.core c).cpu.depth = 8) :
    callTo t c ra target = .trip t { vec := 7, sub := 0 } :=
  if_pos h.symm

theorem called_of_callTo (h : Ready s c uses ws.length) (room : ¬ ((s.core c).cpu.rso = true ∧ (s.core c).cpu.depth = 8))
    (he : eff (s.open c) = callTo (s.open c) c ra target) : Called s (s.issue c ws uses eff) c target ra := by
  rw [callTo_of_room _ _ (by simpa using room)] at he
  obtain ⟨hcpu, hbeside, hapart⟩ := issue_jump h he
  refine ⟨?pc, ?top, ?entry, ?depth, ?cpu, hbeside, hapart⟩
  case pc => rw [hcpu]
  case top => rw [hcpu]; rfl
  case entry => intro i; rw [hcpu]; exact Table.get_put 0 _ _ i ra
  case depth => rw [hcpu]; exact Cpu.toNat_depth_push _ ra
  case cpu => rw [hcpu]; rfl

theorem entered_of_callTo (h : Ready s c uses ws.length) (hc : CanEnter s c)
    (full : (s.core c).cpu.rso = true ∧ (s.core c).cpu.depth = 8) (he : eff (s.open c) = callTo (s.open c) c ra target) :
    Entered s (s.issue c ws uses eff) c (s.core c)
      { kind := 0, vec := 7, sub := 0, pc := (s.core c).cpu.pc, fpc := (s.core c).cpu.pc } :=
  entered_of_trip h hc (he.trans (callTo_of_full _ _ (by simpa using full)))

end

/-! ### Return (R67, R68) -/

/-- The return stack with its top entry gone. -/
def Cpu.pop (u : Cpu) : Cpu := { u with top := u.top - 1, depth := BitVec.ofNat 4 (u.depth.toNat - 1) }

/-- The model's pop, which leaves DEPTH 0 at 0. -/
theorem Cpu.pop_eq (u : Cpu) : { u with top := u.top - 1, depth := if u.depth = 0 then 0 else u.depth - 1 } = u.pop := by
  have depth : (if u.depth = 0 then 0 else u.depth - 1) = BitVec.ofNat 4 (u.depth.toNat - 1) := by
    split
    case isTrue h => rw [h]; rfl
    case isFalse h => bv_omega
  rw [depth, Cpu.pop]

theorem execRet_of_room {s : State} {c : CoreId} (h : Ready s c [] 1) (room : ¬ ((s.core c).cpu.rso = true ∧ (s.core c).cpu.depth = 0)) :
    Does (execRet c s) (fun t =>
      (t.core c).cpu = { (s.core c).cpu with
          pc := Table.get 0 (s.core c).cpu.rstack (s.core c).cpu.top.toNat, top := (s.core c).cpu.top - 1,
          depth := BitVec.ofNat 4 ((s.core c).cpu.depth.toNat - 1), shadow := false }
        ∧ Beside (s.core c) (t.core c) ∧ Apart s t c) := by
  refine ⟨_, rfl, issue_jump (f := Cpu.pop) h ?_⟩
  simp only [State.core_open, Cpu.pop_eq]
  exact if_neg (mt And.symm room)

theorem execRet_of_empty {s : State} {c : CoreId} (h : Ready s c [] 1) (hc : CanEnter s c)
    (hrso : (s.core c).cpu.rso = true) (hempty : (s.core c).cpu.depth = 0) :
    Does (execRet c s) (fun t => Entered s t c (s.core c)
      { kind := 0, vec := 7, sub := 1, pc := (s.core c).cpu.pc, fpc := (s.core c).cpu.pc }) := by
  refine ⟨_, rfl, entered_of_trip (f := { vec := 7, sub := 1 }) h hc ?_⟩
  simp only [State.core_open]
  exact if_pos ⟨hempty, hrso⟩

/-! ### Conditional branches (R65) -/

theorem execBz_spec {s : State} {c : CoreId} {gs : Reg} (h : Ready s c [gs] 2) (target : PAddr) :
    Does (execBz c gs target s) (fun t => (s.reg c gs = 0 → Jumped s t c target) ∧ (s.reg c gs ≠ 0 → Wrote s t c 2 0 0)) :=
  ⟨_, rfl, fun zero => jumped_of_jump h (if_pos (by simpa using zero)), fun nonzero => wrote_of_none h (if_neg (by simpa using nonzero))⟩

theorem execBnz_spec {s : State} {c : CoreId} {gs : Reg} (h : Ready s c [gs] 2) (target : PAddr) :
    Does (execBnz c gs target s) (fun t => (s.reg c gs ≠ 0 → Jumped s t c target) ∧ (s.reg c gs = 0 → Wrote s t c 2 0 0)) :=
  ⟨_, rfl, fun nonzero => jumped_of_jump h (if_neg (by simpa using nonzero)), fun zero => wrote_of_none h (if_pos (by simpa using zero))⟩

/-- Settles O4: in the state an instruction issues in, its effect is a completion, a jump, a call or a fault, and the rule for that outcome gives the clause. -/
theorem controlTransfers : Obligations.ControlTransfers := by
  refine ⟨fun s c gs target => ⟨?nop, ?jr, ?br, ?branches⟩, fun s c gs target => ⟨?call, ?callr, ?ret, ?full, ?empty⟩⟩
  case nop => exact fun h => ⟨_, rfl, wrote_of_none h rfl⟩
  case jr => exact fun h => ⟨_, rfl, jumped_of_jump h (by simp)⟩
  case br => exact fun h => ⟨_, rfl, jumped_of_jump h rfl⟩
  case branches => exact fun h => ⟨execBz_spec h target, execBnz_spec h target⟩
  case call => exact fun h room => ⟨_, rfl, called_of_callTo h room (by simp)⟩
  case callr => exact fun h room => ⟨_, rfl, called_of_callTo h room (by simp)⟩
  case ret => exact execRet_of_room
  case full => exact fun hc full =>
    ⟨fun h => ⟨_, rfl, entered_of_callTo h hc full rfl⟩, fun h => ⟨_, rfl, entered_of_callTo h hc full rfl⟩⟩
  case empty => exact fun hc hrso hempty h => execRet_of_empty h hc hrso hempty

end Sys2Proof.Machine
end

section
/-! The rings of the fabric (R247, R250 to R252): the links of a leg, where they cross between compute regions (R264), and the latency of a path on one ring (R265). -/

namespace Sys2Proof

open Sys2Proof.Machine

/-! ### The links of a leg (R250) -/

/-- Link `i` of a leg from position `p` to position `q`. -/
def legLink (col : Bool) (ring p q i : Nat) : RingLink :=
  let up := decide ((q + 34 - p) % 34 ≤ 17)
  { col, ring, pos := if up then (p + i) % 34 else (p + 34 - i) % 34, up }

/-- `ls` takes one ring from position `p` to position `q`, link after link by the shorter way. -/
def RidesRing (ls : List RingLink) (col : Bool) (ring p q : Nat) : Prop :=
  ls.length = ringDist p q
    ∧ ∀ i l, ls[i]? = some l → l.col = col ∧ l.ring = ring ∧ (l.up = true ↔ (q + 34 - p) % 34 ≤ 17)
        ∧ l.pos = (if l.up then (p + i) % 34 else (p + 34 - i) % 34)

section
variable {p q : Nat} (hp : p < 34) (hq : q < 34)
include hp hq

/-- A leg takes as many links as its ends are hops apart. -/
theorem ringLeg_eq_map (col : Bool) (ring : Nat) :
    ringLeg col ring p q = (List.range (ringDist p q)).map (legLink col ring p q) := by
  unfold ringLeg ringDist legLink
  dsimp only
  by_cases hd : (q + 34 - p) % 34 ≤ 17
  · have hlen : (q + 34 - p) % 34 = min ((q + 34 - p) % 34) ((p + 34 - q) % 34) := by omega
    simp [hd, ← hlen]
  · have hlen : 34 - (q + 34 - p) % 34 = min ((q + 34 - p) % 34) ((p + 34 - q) % 34) := by omega
    simp [hd, ← hlen]

theorem length_ringLeg (col : Bool) (ring : Nat) : (ringLeg col ring p q).length = ringDist p q := by
  rw [ringLeg_eq_map hp hq, List.length_map, List.length_range]

theorem ringLeg_ridesRing (col : Bool) (ring : Nat) : RidesRing (ringLeg col ring p q) col ring p q := by
  refine ⟨length_ringLeg hp hq col ring, fun i l h => ?_⟩
  rw [ringLeg_eq_map hp hq, List.getElem?_map, Option.map_eq_some_iff] at h
  obtain ⟨j, hj, rfl⟩ := h
  obtain ⟨_, rfl⟩ := List.getElem?_eq_some_iff.mp hj
  rw [List.getElem_range]
  exact ⟨rfl, rfl, decide_eq_true_iff, rfl⟩

end

theorem RidesRing.col_eq {ls : List RingLink} {col : Bool} {ring p q : Nat} (h : RidesRing ls col ring p q)
    {i : Nat} {l : RingLink} (hl : ls[i]? = some l) : l.col = col :=
  (h.2 i l hl).1

/-! ### Region crossings (R264) -/

theorem ringAt_lt {p x : Nat} (h : ringAt p = some x) : x < 32 := by
  unfold ringAt at h
  split at h
  · cases h
  · split at h <;> cases h <;> omega

/-- Along a column, the compute region changes with the row's band of 8. -/
theorem regionOf_col_eq_iff {m x y : Nat} (hm : m < 32) :
    regionOf (x * 32 + m) = regionOf (y * 32 + m) ↔ x / 8 = y / 8 := by
  simp only [regionOf, rowOf, colOf]; omega

/-- Along a row, the compute region changes with the column's band of 8. -/
theorem regionOf_row_eq_iff {m x y : Nat} (hx : x < 32) (hy : y < 32) :
    regionOf (m * 32 + x) = regionOf (m * 32 + y) ↔ x / 8 = y / 8 := by
  simp only [regionOf, rowOf, colOf]; omega

/-- The two nodes of a link are cores of different bands of 8 columns on a row ring, of 8 rows on a column ring. -/
def RingLink.leavesBand (l : RingLink) : Bool :=
  match ringAt l.pos, ringAt l.next with
  | some x, some y => decide (x / 8 ≠ y / 8)
  | _, _ => false

/-- Whether a link crosses does not depend on which ring it is of. -/
theorem RingLink.crosses_eq_leavesBand {l : RingLink} (h : l.ring < 32) : l.crosses = l.leavesBand := by
  unfold RingLink.crosses RingLink.leavesBand RingLink.regionAt
  cases hx : ringAt l.pos with
  | none => rfl
  | some x =>
    cases hy : ringAt l.next with
    | none => rfl
    | some y =>
      cases l.col
      case true => simp [regionOf_col_eq_iff h]
      case false => simp [regionOf_row_eq_iff (ringAt_lt hx) (ringAt_lt hy)]

theorem countP_crosses_ringLeg (col : Bool) {ring p q : Nat} (h : ring < 32) (hp : p < 34) (hq : q < 34) :
    (ringLeg col ring p q).countP RingLink.crosses = (ringLeg false 0 p q).countP RingLink.leavesBand := by
  rw [ringLeg_eq_map hp hq, ringLeg_eq_map hp hq, List.countP_map, List.countP_map]
  have cross_iff (i : Nat) : (legLink col ring p q i).crosses = (legLink false 0 p q i).leavesBand :=
    RingLink.crosses_eq_leavesBand h
  exact List.countP_congr fun i _ => by rw [Function.comp_apply, Function.comp_apply, cross_iff]

/-! ### Legs between a core and a rim (R251) -/

theorem ringPos_lt {x : Nat} (hx : x < 32) : ringPos x < 34 := by
  unfold ringPos; split <;> omega

theorem rimPos_lt (east : Bool) : rimPos east < 34 := by
  cases east <;> decide

/-- The edge node at which path C leaves a column ring: CN for rows 0 to 15, CS for the others. -/
theorem edge_eq_rimPos (row : Nat) : (if row < 16 then 0 else 17) = rimPos (decide (16 ≤ row)) := by
  unfold rimPos
  by_cases h : row < 16
  · simp [h]
  · simp [h, Nat.le_of_not_lt h]

theorem ringDist_rim_bounds {x : Nat} (hx : x < 32) (edge : Bool) :
    1 ≤ ringDist (ringPos x) (rimPos edge) ∧ ringDist (ringPos x) (rimPos edge) ≤ 16 := by
  unfold ringDist ringPos rimPos
  cases edge <;> simp only [Bool.false_eq_true, if_true, if_false] <;> split <;> omega

/-- The way to an edge node meets each of the three boundaries of a ring at most once. -/
theorem countP_leavesBand_rim_le :
    ∀ edge : Bool, ∀ x < 32, (ringLeg false 0 (ringPos x) (rimPos edge)).countP RingLink.leavesBand ≤ 3 := by
  decide

/-- A path between a core and a unit is one leg of one ring, from a core's position to an edge node. -/
theorem rimPath_eq_ringLeg {row col : Nat} (hrow : row < 32) (hcol : col < 32) (east : Bool) (u : Nat) (a : FAddr) :
    ∃ (dir : Bool) (ring x : Nat) (edge : Bool), ring < 32 ∧ x < 32
      ∧ rimPath row col east u a = ringLeg dir ring (ringPos x) (rimPos edge) := by
  unfold rimPath
  split
  case isTrue => exact ⟨true, col, row, decide (16 ≤ row), hcol, hrow, by rw [edge_eq_rimPos]⟩
  case isFalse => exact ⟨false, row, col, east, hrow, hcol, rfl⟩

/-! ### Latency (R265) -/

/-- On one ring a packet makes no turn: it enters the ring with its first link only. -/
theorem RidesRing.entersRing_succ {ls : List RingLink} {col : Bool} {ring p q : Nat} (h : RidesRing ls col ring p q) (i : Nat) :
    entersRing ls (i + 1) = false := by
  cases hl : ls[i + 1]? with
  | none => simp [entersRing, hl]
  | some l =>
    obtain ⟨m, hm⟩ : ∃ m, ls[i]? = some m :=
      ⟨ls[i]'(by have := (List.getElem?_eq_some_iff.mp hl).1; omega), List.getElem?_eq_getElem _⟩
    simp [entersRing, hl, hm, h.col_eq hl, h.col_eq hm]

theorem RidesRing.countP_entersRing {ls : List RingLink} {col : Bool} {ring p q : Nat} (h : RidesRing ls col ring p q) :
    (List.range ls.length).countP (fun i => decide (i ≠ 0) && entersRing ls i) = 0 := by
  refine List.countP_eq_zero.mpr fun i _ => ?_
  cases i with
  | zero => simp
  | succ i => simp [h.entersRing_succ i]

theorem sum_cc (async : Bool) (ls : List RingLink) :
    (ls.map (fun l => l.cc async)).sum = 2 * ls.length + crossCc async * ls.countP RingLink.crosses := by
  induction ls with
  | nil => rfl
  | cons l ls ih =>
    rw [List.map_cons, List.sum_cons, ih, List.countP_cons, List.length_cons, RingLink.cc, Nat.mul_add, Nat.mul_add]
    split
    case isTrue => rw [Nat.mul_one]; omega
    case isFalse => rw [Nat.mul_zero]; omega

/-- Table 11.6 for a path of one ring between a core and a unit: injection or ejection 1 cc, the edge crossing 6 cc, the hops and the region crossings. -/
theorem oneWay_core_unit {row col u ring p q : Nat} {east dir : Bool} {a : FAddr} (async : Bool)
    (h : RidesRing (rimPath row col east u a) dir ring p q) :
    oneWay async a (.core row col) (.unit east u)
      = 7 + (2 * (rimPath row col east u a).length + crossCc async * (rimPath row col east u a).countP RingLink.crosses) := by
  simp only [oneWay, pathOf, sum_cc, h.countP_entersRing, Nat.add_zero]

/-- The hops and crossings of a path between a core and a unit bound its round trip: 1 to 16 hops, at most 3 crossings. -/
theorem roundTrip_core_unit_bounds {row col : Nat} (hrow : row < 32) (hcol : col < 32) (east : Bool) (u : Nat) (a : FAddr) (async : Bool) :
    18 ≤ roundTrip async a (.core row col) (.unit east u)
      ∧ roundTrip async a (.core row col) (.unit east u) ≤ 78 + 6 * crossCc async := by
  obtain ⟨dir, ring, x, edge, hring, hx, hpath⟩ := rimPath_eq_ringLeg hrow hcol east u a
  have hp := ringPos_lt hx
  have hq := rimPos_lt edge
  have rides : RidesRing (rimPath row col east u a) dir ring (ringPos x) (rimPos edge) :=
    hpath ▸ ringLeg_ridesRing hp hq dir ring
  obtain ⟨hops_ge, hops_le⟩ := ringDist_rim_bounds hx edge
  have crossings : crossCc async * (rimPath row col east u a).countP RingLink.crosses ≤ crossCc async * 3 := by
    rw [hpath, countP_crosses_ringLeg dir hring hp hq]
    exact Nat.mul_le_mul_left _ (countP_leavesBand_rim_le edge x hx)
  rw [roundTrip, oneWay_core_unit async rides, rides.1]
  omega

/-! ### Paths (R250 to R252) -/

theorem pathOf_core_unit_odd {r c u : Nat} {east : Bool} {a : FAddr} (hr : r < 32)
    (own : east = decide (16 ≤ c)) (odd : (r + c + u + (if a.getLsbD 9 then 1 else 0)) % 2 = 1) :
    RidesRing (pathOf a (.core r c) (.unit east u)) true c (ringPos r) (if r < 16 then 0 else 17) := by
  have path : pathOf a (.core r c) (.unit east u) = ringLeg true c (ringPos r) (if r < 16 then 0 else 17) := if_pos ⟨own, odd⟩
  rw [path, edge_eq_rimPos]
  exact ringLeg_ridesRing (ringPos_lt hr) (rimPos_lt _) true c

theorem pathOf_core_unit_row {r c u : Nat} {east : Bool} {a : FAddr} (hc : c < 32)
    (h : ¬ east = decide (16 ≤ c) ∨ ¬ (r + c + u + (if a.getLsbD 9 then 1 else 0)) % 2 = 1) :
    RidesRing (pathOf a (.core r c) (.unit east u)) false r (ringPos c) (rimPos east) := by
  have path : pathOf a (.core r c) (.unit east u) = ringLeg false r (ringPos c) (rimPos east) := if_neg fun both => h.elim (· both.1) (· both.2)
  rw [path]
  exact ringLeg_ridesRing (ringPos_lt hc) (rimPos_lt east) false r

theorem pathOf_unit_rims (a : FAddr) (east : Bool) (u v : Nat) :
    RidesRing (pathOf a (.unit east u) (.unit (!east) v)) false ((a.toNat / 512 % 32 ^^^ u ^^^ v) % 32) (rimPos east) (rimPos (!east)) := by
  have path : pathOf a (.unit east u) (.unit (!east) v)
      = ringLeg false ((a.toNat / 512 % 32 ^^^ u ^^^ v) % 32) (rimPos east) (rimPos (!east)) := by
    simp [pathOf, bitsOf, Nat.shiftRight_eq_div_pow]
  rw [path]
  exact ringLeg_ridesRing (rimPos_lt east) (rimPos_lt _) false _

/-- Settles O29: each path is one or two legs by its definition, and a leg between a core and a rim has 1 to 16 hops and at most 3 crossings. -/
theorem routes : Obligations.Routes := by
  intro r c r' c' u v east a hr hc hr' hc' _ _
  dsimp only
  refine ⟨?cores, ?odd, ?row, rfl, if_pos rfl, ?rims, fun _ => ?latency⟩
  case cores =>
    exact ⟨_, _, rfl, ringLeg_ridesRing (ringPos_lt hc) (ringPos_lt hc') false r, ringLeg_ridesRing (ringPos_lt hr) (ringPos_lt hr') true c'⟩
  case odd => exact pathOf_core_unit_odd hr
  case row => exact pathOf_core_unit_row hc
  case rims => exact pathOf_unit_rims a east u v
  case latency =>
    obtain ⟨meso_ge, meso_le⟩ := roundTrip_core_unit_bounds hr hc east u a false
    obtain ⟨async_ge, async_le⟩ := roundTrip_core_unit_bounds hr hc east u a true
    exact ⟨meso_ge, meso_le, async_ge, async_le⟩

end Sys2Proof
end

section
/-! Rows that reach a queue unit (R276 to R289): what an arrival comes to, which record a later row of a message lands in, what a contribution leaves, and how credits come back. -/

namespace Sys2Proof.Machine

/-! ### A packet leaves the fabric (R254, R399) -/

/-- A packet that leaves a receive buffer changes its port alone. -/
theorem State.freeRx_only (s : State) (p : Packet) :
    { s.freeRx p with links := { (s.freeRx p).links with ports := s.links.ports } } = s := by
  unfold State.freeRx
  split
  case h_1 => split <;> rfl
  case h_2 => rfl

/-- Taking a packet out of flight changes what is in flight, its port, and the requests that await an answer. -/
theorem State.sans_only (s : State) (n : Nat) :
    { s.sans n with net := s.net, links := { (s.sans n).links with ports := s.links.ports, asked := s.links.asked } } = s := by
  unfold State.sans
  split
  case h_2 => rfl
  case h_1 p _ =>
    have freed := congrArg (fun u : State => { u with net := s.net, links := { u.links with asked := s.links.asked } })
      (State.freeRx_only { s with net := s.net.eraseIdx n } p)
    dsimp only
    split <;> exact freed

section
variable (s : State) (n : Nat)

@[simp] theorem State.cores_sans : (s.sans n).cores = s.cores := by
  have h := congrArg State.cores (s.sans_only n)
  exact h

@[simp] theorem State.core_sans (c : CoreId) : (s.sans n).core c = s.core c := by
  rw [State.core, State.cores_sans, ← State.core]

@[simp] theorem State.own_sans : (s.sans n).own = s.own := by
  have h := congrArg State.own (s.sans_only n)
  exact h

@[simp] theorem State.dstOn_sans (p : Packet) : (s.sans n).dstOn p = s.dstOn p := by
  have h := congrArg (State.dstOn · p) (s.sans_only n)
  exact h

end

/-- A packet that arrives sound is handed to its unit. -/
theorem State.deliver_of_arrives {s : State} {n : Nat} {p : Packet} {want : Packet → Bool} {f : State → Packet → Out}
    (h : Arrives s n p) (hw : want p = true) : s.deliver n false want f = f (s.sans n) p := by
  obtain ⟨inFlight, may, on⟩ := h
  simp [State.deliver, inFlight, hw, may, on]

/-! ### What a unit sends, counts and logs stands apart from its core's state -/

section
variable (s : State) (c : CoreId) (v : Core)

@[simp] theorem State.own_setCore : (s.setCore c v).own = s.own := rfl

@[simp] theorem State.own_count (a b : Nat) : (s.count a b).own = s.own := rfl

@[simp] theorem State.own_logEv (code : Nat) (att : Bool) (fields : List Byte) : (s.logEv code att fields).own = s.own :=
  congrArg Links.devId (s.logEv_links code att fields)

theorem State.count_setCore (a b : Nat) : (s.setCore c v).count a b = (s.count a b).setCore c v := rfl

theorem State.logEv_setCore (code : Nat) (att : Bool) (fields : List Byte) :
    (s.setCore c v).logEv code att fields = (s.logEv code att fields).setCore c v := by
  unfold State.logEv
  dsimp only [State.setCore_log, State.setCore_beat]
  split
  · rfl
  · split <;> rfl

theorem State.drop406_setCore (n : Nat) (p : Packet) : (s.setCore c v).drop406 n p = (s.drop406 n p).setCore c v := by
  rw [State.drop406, State.count_setCore, State.logEv_setCore, ← State.drop406]

theorem State.unasked_setCore (src : NodeId) (sport : BitVec 3) (ddev : DevId) (tid : BitVec 12) :
    (s.setCore c v).unasked src sport ddev tid = (s.unasked src sport ddev tid).setCore c v := rfl

theorem State.portFor_setCore (p : Packet) : (s.setCore c v).portFor p = s.portFor p := rfl

theorem State.discard406_setCore (atPort : Bool) (n : Nat) (p : Packet) :
    (s.setCore c v).discard406 atPort n p = (s.discard406 atPort n p).setCore c v := by
  unfold State.discard406
  dsimp only
  simp only [State.drop406_setCore, State.unasked_setCore, State.portFor_setCore, State.own_setCore]
  repeat' split
  all_goals rfl

theorem State.inject_setCore (p : Packet) : (s.setCore c v).inject p = (s.inject p).setCore c v := by
  unfold State.inject
  simp only [State.discard406_setCore, State.portFor_setCore, State.own_setCore]
  split
  case isTrue => rfl
  case isFalse => split <;> rfl

theorem State.injectAll_setCore (ps : List Packet) : (s.setCore c v).injectAll ps = (s.injectAll ps).setCore c v := by
  induction ps generalizing s with
  | nil => rfl
  | cons p ps ih => rw [State.injectAll, State.inject_setCore, ih, ← State.injectAll]

end

/-- What R406 does with a packet changes neither a core nor the device's number. -/
theorem State.discard406_leaves (s : State) (atPort : Bool) (n : Nat) (p : Packet) :
    (s.discard406 atPort n p).cores = s.cores ∧ (s.discard406 atPort n p).own = s.own := by
  unfold State.discard406 State.drop406
  dsimp only
  repeat' split
  all_goals simp [State.own, State.unasked]

/-- A packet that enters the fabric changes neither a core nor the device's number. -/
theorem State.inject_leaves (s : State) (p : Packet) : (s.inject p).cores = s.cores ∧ (s.inject p).own = s.own := by
  unfold State.inject
  split
  case isTrue => exact ⟨rfl, rfl⟩
  case isFalse =>
    split
    case h_1 => exact ⟨rfl, rfl⟩
    case h_2 => exact s.discard406_leaves ..

@[simp] theorem State.own_injectAll (s : State) (ps : List Packet) : (s.injectAll ps).own = s.own := by
  induction ps generalizing s with
  | nil => rfl
  | cons p ps ih => rw [State.injectAll, ih, (s.inject_leaves p).2]

@[simp] theorem State.own_inject (s : State) (p : Packet) : (s.inject p).own = s.own := (s.inject_leaves p).2

@[simp] theorem State.cores_injectAll (s : State) (ps : List Packet) : (s.injectAll ps).cores = s.cores := by
  induction ps generalizing s with
  | nil => rfl
  | cons p ps ih => rw [State.injectAll, ih, (s.inject_leaves p).1]

theorem State.injectAll_append (s : State) (ps qs : List Packet) : s.injectAll (ps ++ qs) = (s.injectAll ps).injectAll qs := by
  induction ps generalizing s with
  | nil => rfl
  | cons p ps ih => rw [List.cons_append, State.injectAll, ih, ← State.injectAll]

theorem answered_setCore (s : State) (c : CoreId) (v : Core) (ps : List Packet) : Answered s ((s.injectAll ps).setCore c v) c ps := by
  refine ⟨fun d hd => ?other, ?rest⟩
  case other => rw [State.core_setCore, if_neg hd, State.core, State.cores_injectAll, ← State.core]
  case rest => rw [← State.cores_injectAll s ps]; rfl

/-- A core that changes while its unit sends `ps`. -/
theorem does_answered {s : State} {c : CoreId} {v : Core} {ps : List Packet} {o : Out} {P : State → Prop}
    (ho : o = .next ((s.injectAll ps).setCore c v)) (hP : ∀ t, Answered s t c ps → t.core c = v → P t) : Does o P :=
  ⟨_, ho, hP _ (answered_setCore s c v ps) (by simp)⟩

/-! ### Fields of an operation word (Table 12.6) and of the configuration registers (Tables 12.4, 12.8) -/

theorem ofNat_bitsOf {w : Nat} (v : BitVec w) (lo n : Nat) :
    BitVec.ofNat (n + 1) (bitsOf v.toNat (lo + n) lo) = v.extractLsb' lo (n + 1) := by
  rw [bitsOf_toNat, BitVec.ofNat_toNat, BitVec.setWidth_eq]

section
variable (p : Packet)

theorem msgKey_eq : msgKey p =
    { dev := p.sdev, node := p.src, port := p.sport, entry := p.op6.extractLsb' 13 5, msgid := p.op6.extractLsb' 25 7 } := by
  rw [msgKey, ofNat_bitsOf p.op6 13 4, ofNat_bitsOf p.op6 25 6]

theorem msgIdx_eq : msgIdx p = (p.op6.extractLsb' 22 3).toNat := bitsOf_toNat p.op6 22 2
theorem msgRing_eq : msgRing p = (p.op6.extractLsb' 9 4).toNat := bitsOf_toNat p.op6 9 3
theorem msgKind_eq : msgKind p = (p.op6.extractLsb' 6 3).toNat := bitsOf_toNat p.op6 6 2

end

section
variable (v : Word)

theorem rcBase_eq : rcBase v = (v.extractLsb' 16 10).toNat := bitsOf_toNat v 16 9
theorem cqBase_eq : cqBase v = (v.extractLsb' 17 10).toNat := bitsOf_toNat v 17 9
theorem cqSize_eq : cqSize v = (v.extractLsb' 8 9).toNat := bitsOf_toNat v 8 8
theorem cqSem_eq : cqSem v = (v.extractLsb' 0 6).toNat := bitsOf_toNat v 0 5

end

/-! ### Scratchpad rows (R112, R113) -/

/-- Reading a row after a row has been written. -/
@[simp] theorem Core.row_putRow (k : Core) (m x : Pad) (r j : Nat) (v : Row) :
    (k.putRow m r v).row x j = if x = m ∧ j = r then v else k.row x j := by
  cases m <;> cases x <;> simp [Core.row, Core.putRow, Pads.get, Pads.set]

/-- Reading a row after a row has been changed by `f`. -/
theorem Core.row_putRow_apply (k : Core) (m x : Pad) (r j : Nat) (f : Row → Row) :
    (k.putRow m r (f (k.row m r))).row x j = if x = m ∧ j = r then f (k.row x j) else k.row x j := by
  rw [Core.row_putRow]
  split
  case isTrue h => rw [h.1, h.2]
  case isFalse => rfl

/-! ### Message records (R278, R285) -/

/-- The record awaits row `i` of the message `key`. -/
def MsgRec.Awaits (key : MsgKey) (i : Nat) (m : MsgRec) : Prop :=
  m.key = key ∧ m.complete = false ∧ i < m.len ∧ m.landed.getLsbD i = false

/-- The record with row `i` landed. -/
def MsgRec.land (i : Nat) (m : MsgRec) : MsgRec := { m with landed := m.landed ||| BitVec.ofNat 8 (2 ^ i) }

section
variable {key : MsgKey} {i : Nat} {m : MsgRec} {a b : List MsgRec}

theorem landIn_cons_of_awaits (h : m.Awaits key i) : landIn key i (m :: b) = some (m.land i, m.land i :: b) := by
  refine (if_pos h).trans ?_
  simp [MsgRec.land, Nat.shiftLeft_eq]

theorem landIn_cons_of_not_awaits (h : ¬ m.Awaits key i) :
    landIn key i (m :: b) = (landIn key i b).map (fun found => (found.1, m :: found.2)) := by
  refine (if_neg h).trans ?_
  cases landIn key i b <;> rfl

/-- A row lands in the first record that awaits it. -/
theorem landIn_append (ha : ∀ x ∈ a, ¬ x.Awaits key i) (hm : m.Awaits key i) :
    landIn key i (a ++ m :: b) = some (m.land i, a ++ m.land i :: b) := by
  induction a with
  | nil => exact landIn_cons_of_awaits hm
  | cons x a ih =>
    rw [List.forall_mem_cons] at ha
    rw [List.cons_append, landIn_cons_of_not_awaits ha.1, ih ha.2]
    rfl

/-- A row that no record awaits lands in none. -/
theorem landIn_eq_none (h : ∀ x ∈ a, ¬ x.Awaits key i) : landIn key i a = none := by
  induction a with
  | nil => rfl
  | cons x a ih =>
    rw [List.forall_mem_cons] at h
    rw [landIn_cons_of_not_awaits h.1, ih h.2]
    rfl

end

/-! ### What the queue unit adds to a semaphore (R285, R288) -/

/-- The addition of 1 to a semaphore of core `c`, none for 0x3F. -/
def semAdds (s : State) (c : CoreId) (sem : Nat) : List Packet :=
  if sem = 0x3F then [] else [semPkt s (BitVec.ofNat 11 c.toNat) 1 0 s.own c.toNat sem 0 0 1 false]

theorem State.queueAdd_eq (s : State) (c : CoreId) (sem : Nat) : s.queueAdd c sem = s.injectAll (semAdds s c sem) := by
  unfold State.queueAdd semAdds
  split <;> rfl

/-- A SEM packet names its sender's device, and depends on nothing else of the machine. -/
theorem semAdds_congr {s t : State} (h : t.own = s.own) (c : CoreId) (sem : Nat) : semAdds t c sem = semAdds s c sem := by
  unfold semAdds semPkt
  rw [State.mkPkt_eq, State.mkPkt_eq, State.resolveDev, State.resolveDev, h]

/-- A complete record adds to the semaphore that its LSEM names; 0x3F names none. -/
theorem semAdds_lsem (s : State) (c : CoreId) (lsem : BitVec 6) (complete : Bool) :
    (if complete then semAdds s c lsem.toNat else [])
      = if complete ∧ lsem ≠ 0x3F then [semPkt s (BitVec.ofNat 11 c.toNat) 1 0 s.own c.toNat lsem.toNat 0 0 1 false] else [] := by
  by_cases unnamed : lsem = 0x3F
  · have none_named : lsem.toNat = 0x3F := congrArg BitVec.toNat unnamed
    have refused : ¬ (complete = true ∧ lsem ≠ 0x3F) := fun h => h.2 unnamed
    rw [semAdds, if_pos none_named, ite_self, if_neg refused]
  · have named : lsem.toNat ≠ 0x3F := fun h => unnamed (BitVec.eq_of_toNat_eq h)
    rw [semAdds, if_neg named]
    simp only [ne_eq, unnamed, not_false_eq_true, and_true]

/-! ### Discards (R284, R289) -/

@[simp] theorem State.own_discardRow (s : State) (c : CoreId) (p : Packet) : (s.discardRow c p).own = s.own := by
  simp [State.discardRow]

/-- The ERR that answers a request other than a SEM. -/
theorem Packet.errReply_eq {p : Packet} (h : p.kind ≠ .sem) (own : DevId) (st : Nat) :
    p.errReply own st = { p.reply own .err with status := BitVec.ofNat 4 st } := by
  simp [Packet.errReply, Packet.reply, h]

/-! ### Later rows of a message (R276, R278, R284, R285) -/

section
variable {s : State} {n : Nat} {p : Packet} {c : CoreId} {key : MsgKey} {i : Nat} {a b : List MsgRec} {m : MsgRec}

/-- A row packet for a scratchpad address that finds the ingress buffer empty is served at once. -/
theorem State.rowArrives_of_empty {s' : State} {e : Ecc} (hempty : (s.core c).que.ingress = [])
    (hserve : s.serveRow c p e = (s', true)) : s.rowArrives c p e = s' := by
  simp [State.rowArrives, hempty, hserve]

theorem execMessageRow_later {core at_ off : Nat} {pad : Pad} (h : Arrives s n p) (hkind : p.kind = .msg)
    (hpsn : p.psn = false) (htgt : targetOf (localOf p.addr) = .data core pad at_ off)
    (hc : c = p.core) (hempty : (s.core c).que.ingress = []) (hidx : msgIdx p ≠ 0) :
    execMessageRow n false s = .next ((s.sans n).landRowAt c p) := by
  subst hc
  have serve : (s.sans n).serveRow p.core p .clean = ((s.sans n).landRowAt p.core p, true) := by
    simp [State.serveRow, hpsn, hkind, hidx]
  rw [execMessageRow, State.deliver_of_arrives h (by simp [hkind, Packet.toWindow, htgt])]
  simp only [Packet.toPads, htgt, if_true]
  rw [State.rowArrives_of_empty (by simpa using hempty) serve]

/-- A core whose ring `r` has taken a row into the record `m`: `recs` are the ring's records now. -/
def Core.ringLanded (k : Core) (p : Packet) (r : Nat) (m : MsgRec) (recs : List MsgRec) : Core :=
  let cfg := Table.get 0 k.que.rcfg r
  { k.putRow (rcPad cfg) (rcBase cfg + m.start + msgIdx p) (landRow (k.row (rcPad cfg) (rcBase cfg + m.start + msgIdx p)) p) with
    que := k.que.setRing r { k.que.ring r with recs } }

theorem Core.rings_ringLanded (k : Core) (p : Packet) (r j : Nat) (m : MsgRec) (recs : List MsgRec) :
    Table.get {} (k.ringLanded p r m recs).que.rings j = if j = r then { k.que.ring r with recs } else Table.get {} k.que.rings j :=
  Table.get_putc ..

theorem Core.row_ringLanded (k : Core) (p : Packet) (r j : Nat) (x : Pad) (m : MsgRec) (recs : List MsgRec) :
    (k.ringLanded p r m recs).row x j = if x = rcPad (Table.get 0 k.que.rcfg r) ∧ j = rcBase (Table.get 0 k.que.rcfg r) + m.start + msgIdx p
      then landRow (k.row x j) p else k.row x j :=
  Core.row_putRow_apply (f := (landRow · p)) ..

theorem State.landRowAt_ring (hkind : msgKind p = 0) (hkey : msgKey p = key) (hidx : msgIdx p = i)
    (hrecs : ((s.core c).que.ring (msgRing p)).recs = a ++ m :: b) (ha : ∀ x ∈ a, ¬ x.Awaits key i) (hm : m.Awaits key i) :
    s.landRowAt c p = (s.injectAll [p.reply s.own .wack]).setCore c ((s.core c).ringLanded p (msgRing p) m (a ++ m.land i :: b)) := by
  subst hkey hidx
  have lands : s.ringLand c p (msgRing p)
      = some ((s.setCore c ((s.core c).ringLanded p (msgRing p) m (a ++ m.land (msgIdx p) :: b))).wack p) := by
    rw [State.ringLand, hrecs, landIn_append ha hm]
    rfl
  rw [State.landRowAt, hkind]
  simp only [lands]
  exact State.inject_setCore ..

/-- A core that has taken a row of a DIRECT message: `recs` are its records now. -/
def Core.directLanded (k : Core) (p : Packet) (pad : Pad) (r : Nat) (recs : List MsgRec) : Core :=
  { k.putRow pad r (landRow (k.row pad r) p) with que := { k.que with direct := recs } }

theorem Core.row_directLanded (k : Core) (p : Packet) (pad x : Pad) (r j : Nat) (recs : List MsgRec) :
    (k.directLanded p pad r recs).row x j = if x = pad ∧ j = r then landRow (k.row x j) p else k.row x j :=
  Core.row_putRow_apply (f := (landRow · p)) ..

theorem State.landRowAt_direct {core at_ off : Nat} {pad : Pad} (hkind : msgKind p = 1) (hkey : msgKey p = key) (hidx : msgIdx p = i)
    (htgt : targetOf (localOf p.addr) = .data core pad at_ off) (hrecs : (s.core c).que.direct = a ++ m :: b)
    (ha : ∀ x ∈ a, ¬ x.Awaits key i) (hm : m.Awaits key i) :
    s.landRowAt c p
      = (s.injectAll (p.reply s.own .wack :: if (m.land i).complete then semAdds s c m.lsem.toNat else [])).setCore c
          ((s.core c).directLanded p pad at_ (if (m.land i).complete then (a ++ b).filter (fun x => x ≠ m.land i) else a ++ m.land i :: b)) := by
  subst hkey hidx
  generalize hk : (s.core c).directLanded p pad at_ _ = k
  have others : (a ++ b).filter (fun x => x ≠ m.land (msgIdx p)) = (a ++ m.land (msgIdx p) :: b).filter (fun x => x ≠ m.land (msgIdx p)) := by
    simp
  have lands : s.directLand c p = some (if (m.land (msgIdx p)).complete
      then ((s.setCore c k).wack p).queueAdd c m.lsem.toNat else (s.setCore c k).wack p) := by
    rw [State.directLand, hrecs, landIn_append ha hm, htgt, ← hk, others]
    rfl
  have sent : (s.setCore c k).wack p = (s.inject (p.reply s.own .wack)).setCore c k := State.inject_setCore ..
  rw [State.landRowAt, hkind]
  simp only [lands, sent]
  split
  case isFalse => rfl
  case isTrue => rw [State.queueAdd_eq, semAdds_congr (s := s) (by simp), State.injectAll_setCore]; rfl

theorem State.landRowAt_none (hring : msgKind p = 0 → ∀ m ∈ ((s.core c).que.ring (msgRing p)).recs, ¬ m.Awaits (msgKey p) (msgIdx p))
    (hdirect : msgKind p = 1 → ∀ m ∈ (s.core c).que.direct, ¬ m.Awaits (msgKey p) (msgIdx p)) :
    s.landRowAt c p = (s.discardRow c p).err p 1 := by
  unfold State.landRowAt
  match hk : msgKind p with
  | 0 =>
    have lands : s.ringLand c p (msgRing p) = none := by rw [State.ringLand, landIn_eq_none (hring hk)]
    simp only [lands]
  | 1 =>
    have lands : s.directLand c p = none := by rw [State.directLand, landIn_eq_none (hdirect hk)]
    simp only [lands]
  | _ + 2 => rfl

end

/-! ### Contributions (R287 to R289) -/

/-- The queue that a contribution names. -/
def cmbQueue (p : Packet) : Nat := bitsOf p.op6.toNat 2 0

theorem cmbQueue_eq (p : Packet) : cmbQueue p = (p.op6.extractLsb' 0 3).toNat := bitsOf_toNat p.op6 0 2

section
variable (t : CqStat) (exp n : Nat)

theorem CqStat.add_eq : t.add exp n =
    { done := t.done || decide (exp ≠ 0 ∧ exp ≤ min (t.cnt.toNat + n) 0xFFFFFF), ovf := t.ovf || t.done,
      cnt := BitVec.ofNat 24 (min (t.cnt.toNat + n) 0xFFFFFF) } := by
  rw [CqStat.add, Bool.decide_and]

/-- DONE sets where it was clear and the count reaches EXP, which is not 0. -/
theorem CqStat.add_sets_done :
    ((t.add exp n).done && !t.done) = true ↔ t.done = false ∧ exp ≠ 0 ∧ exp ≤ min (t.cnt.toNat + n) 0xFFFFFF := by
  cases hd : t.done <;> simp [CqStat.add, hd]

/-- OVF sets where it was clear and DONE was set. -/
theorem CqStat.add_sets_ovf : ((t.add exp n).ovf && !t.ovf) = true ↔ t.done = true ∧ t.ovf = false := by
  cases ho : t.ovf <;> simp [CqStat.add, ho]

end

section
variable {s : State} {n : Nat} {p : Packet} {c : CoreId} {pad : Pad} {r : Nat}

/-- A read that the check bits find clean reports nothing. -/
theorem State.localEcc_clean (h : (s.row c pad r).err = .clean) : s.localEcc c pad r .clean = s := by
  have found : (s.row c pad r).found .clean = .clean := by simp [Row.found, h]
  rw [State.localEcc, found]

theorem Queue.cmbRow_eq {q : Queue} {core off : Nat} (htgt : targetOf (localOf p.addr) = .data core pad r off) :
    q.cmbRow p = if (q.cqCfg (cmbQueue p)).getLsbD 31 = true ∧ pad = cqPad (q.cqCfg (cmbQueue p))
        ∧ cqBase (q.cqCfg (cmbQueue p)) ≤ r ∧ r < cqBase (q.cqCfg (cmbQueue p)) + cqSize (q.cqCfg (cmbQueue p)) then some (pad, r) else none := by
  rw [Queue.cmbRow, htgt]
  rfl

theorem execCombiningContribution_row {core off : Nat} (h : Arrives s n p) (hkind : p.kind = .cmb)
    (hpsn : p.psn = false ∨ p.red = true) (htgt : targetOf (localOf p.addr) = .data core pad r off)
    (hc : c = p.core) (hempty : (s.core c).que.ingress = []) :
    execCombiningContribution n false .clean s = .next ((s.sans n).combine c p .clean) := by
  subst hc
  have serve : (s.sans n).serveRow p.core p .clean = ((s.sans n).combine p.core p .clean, true) := by
    obtain hpsn | hred := hpsn
    · simp [State.serveRow, hpsn, hkind]
    · simp [State.serveRow, hred, hkind]
  rw [execCombiningContribution, State.deliver_of_arrives h (by simp [hkind])]
  simp only [Packet.toPads, htgt, if_true]
  rw [State.rowArrives_of_empty (by simpa using hempty) serve]

/-- What answers a contribution (R289): nothing where it carries the reduce flag. -/
def cmbAnswer (p : Packet) (answer : Packet) : List Packet := if p.red then [] else [answer]

theorem State.wack_unless_red {s t : State} (h : t.own = s.own) (p : Packet) :
    (if p.red then t else t.wack p) = t.injectAll (cmbAnswer p (p.reply s.own .wack)) := by
  rw [State.wack, h, cmbAnswer]
  split <;> rfl

theorem State.err_unless_red {s t : State} (h : t.own = s.own) (p : Packet) (st : Nat) :
    (if p.red then t else t.err p st) = t.injectAll (cmbAnswer p (p.errReply s.own st)) := by
  rw [State.err, h, cmbAnswer]
  split <;> rfl

/-- The status of the queue that a contribution names. -/
def Core.cmbStat (k : Core) (p : Packet) : CqStat := Table.get {} k.que.cqstat (cmbQueue p)

/-- That status once the contribution has been counted. -/
def Core.cmbStatAfter (k : Core) (p : Packet) : CqStat := (k.cmbStat p).add (Table.get 0 k.que.cqexp (cmbQueue p)).toNat p.cnt.toNat

/-- A contribution is the first after DONE. -/
def Core.Exceeds (k : Core) (p : Packet) : Prop := (k.cmbStat p).done = true ∧ (k.cmbStat p).ovf = false

/-- What the unit sends for a contribution that its queue takes: the addition that DONE calls for, and the answer. -/
def combineSends (s : State) (c : CoreId) (p : Packet) : List Packet :=
  (if ((s.core c).cmbStatAfter p).done && !((s.core c).cmbStat p).done then semAdds s c (cqSem ((s.core c).que.cqCfg (cmbQueue p))) else [])
    ++ cmbAnswer p (p.reply s.own .wack)

theorem combineSends_sans (s : State) (n : Nat) (c : CoreId) (p : Packet) : combineSends (s.sans n) c p = combineSends s c p := by
  rw [combineSends, State.core_sans, State.own_sans, semAdds_congr (s.own_sans n), ← combineSends]

/-- The machine with the first contribution after DONE counted and logged. -/
def State.reportExceeds (s : State) (c : CoreId) (p : Packet) : State :=
  (s.count 0x4040 4).logEv 0x0703 true (lf c.toNat ++ lf (cmbQueue p))

@[simp] theorem State.cores_reportExceeds (s : State) (c : CoreId) (p : Packet) : (s.reportExceeds c p).cores = s.cores := by
  simp [State.reportExceeds]

@[simp] theorem State.own_reportExceeds (s : State) (c : CoreId) (p : Packet) : (s.reportExceeds c p).own = s.own := by
  simp [State.reportExceeds]

theorem State.reportExceeds_setCore (s : State) (c d : CoreId) (v : Core) (p : Packet) :
    (s.setCore d v).reportExceeds c p = (s.reportExceeds c p).setCore d v :=
  (congrArg (State.logEv · 0x0703 true _) (s.count_setCore ..)).trans (State.logEv_setCore ..)

/-- A core that has taken a contribution. -/
def Core.combined (k : Core) (p : Packet) (pad : Pad) (r : Nat) : Core :=
  { k.putRow pad r (combineRow (k.row pad r) p) with
    que := { k.que with cqstat := Table.putc {} k.que.cqstat (cmbQueue p) (k.cmbStatAfter p) } }

theorem Core.row_combined (k : Core) (p : Packet) (pad x : Pad) (r j : Nat) :
    (k.combined p pad r).row x j = if x = pad ∧ j = r then combineRow (k.row x j) p else k.row x j :=
  k.row_putRow_apply pad x r j (combineRow · p)

theorem Core.cqstat_combined (k : Core) (p : Packet) (pad : Pad) (r j : Nat) :
    Table.get {} (k.combined p pad r).que.cqstat j = if j = cmbQueue p then k.cmbStatAfter p else Table.get {} k.que.cqstat j :=
  Table.get_putc ..

theorem State.combine_eq_of_row (hrow : (s.core c).que.cmbRow p = some (pad, r)) (hclean : ((s.core c).row pad r).err = .clean) :
    s.combine c p .clean =
      (let s' := s.setCore c ((s.core c).combined p pad r)
       let s' := if ((s.core c).cmbStatAfter p).done && !((s.core c).cmbStat p).done
         then s'.queueAdd c (cqSem ((s.core c).que.cqCfg (cmbQueue p))) else s'
       let s' := if ((s.core c).cmbStatAfter p).ovf && !((s.core c).cmbStat p).ovf then s'.reportExceeds c p else s'
       if p.red then s' else s'.wack p) := by
  rw [State.combine, hrow]
  simp only [State.localEcc_clean hclean, ite_self]
  rfl

theorem State.combine_counts (hrow : (s.core c).que.cmbRow p = some (pad, r)) (hclean : ((s.core c).row pad r).err = .clean)
    (hcalm : ¬ (s.core c).Exceeds p) :
    s.combine c p .clean = (s.injectAll (combineSends s c p)).setCore c ((s.core c).combined p pad r) := by
  have calm : ¬ (((s.core c).cmbStatAfter p).ovf && !((s.core c).cmbStat p).ovf) = true := by
    rwa [Core.cmbStatAfter, CqStat.add_sets_ovf, ← Core.Exceeds]
  rw [State.combine_eq_of_row hrow hclean, ← State.injectAll_setCore, combineSends, State.injectAll_append]
  dsimp only
  rw [if_neg calm]
  by_cases sets : (((s.core c).cmbStatAfter p).done && !((s.core c).cmbStat p).done) = true
  · rw [if_pos sets, if_pos sets, State.queueAdd_eq, semAdds_congr (State.own_setCore ..), State.wack_unless_red (s := s) (by simp)]
  · rw [if_neg sets, if_neg sets, State.wack_unless_red (State.own_setCore ..), State.injectAll]

theorem State.combine_exceeds (hrow : (s.core c).que.cmbRow p = some (pad, r)) (hclean : ((s.core c).row pad r).err = .clean)
    (hexceeds : (s.core c).Exceeds p) :
    s.combine c p .clean
      = ((s.reportExceeds c p).injectAll (cmbAnswer p (p.reply s.own .wack))).setCore c ((s.core c).combined p pad r) := by
  have exceeds : (((s.core c).cmbStatAfter p).ovf && !((s.core c).cmbStat p).ovf) = true := by
    rwa [Core.cmbStatAfter, CqStat.add_sets_ovf, ← Core.Exceeds]
  have stays : ¬ (((s.core c).cmbStatAfter p).done && !((s.core c).cmbStat p).done) = true := by simp [hexceeds.1]
  rw [State.combine_eq_of_row hrow hclean, ← State.injectAll_setCore, ← State.reportExceeds_setCore]
  dsimp only
  rw [if_neg stays, if_pos exceeds, State.wack_unless_red (s := s) (by simp)]

/-- What a contribution that its queue takes comes to. -/
theorem State.combine_of_row (hrow : (s.core c).que.cmbRow p = some (pad, r)) (hclean : ((s.core c).row pad r).err = .clean) :
    (s.combine c p .clean).core c = (s.core c).combined p pad r ∧ (∀ d, d ≠ c → (s.combine c p .clean).core d = s.core d)
      ∧ (¬ (s.core c).Exceeds p → Answered s (s.combine c p .clean) c (combineSends s c p))
      ∧ ((s.core c).Exceeds p →
          { s.combine c p .clean with cores := s.cores } = (s.reportExceeds c p).injectAll (cmbAnswer p (p.reply s.own .wack))) := by
  by_cases exceeds : (s.core c).Exceeds p
  case pos =>
    rw [State.combine_exceeds hrow hclean exceeds]
    obtain ⟨other, rest⟩ := answered_setCore (s.reportExceeds c p) c ((s.core c).combined p pad r) (cmbAnswer p (p.reply s.own .wack))
    rw [State.cores_reportExceeds] at rest
    refine ⟨by simp, fun d hd => ?_, fun calm => absurd exceeds calm, fun _ => rest⟩
    rw [other d hd, State.core, State.cores_reportExceeds, ← State.core]
  case neg =>
    rw [State.combine_counts hrow hclean exceeds]
    have answered := answered_setCore s c ((s.core c).combined p pad r) (combineSends s c p)
    exact ⟨by simp, answered.1, fun _ => answered, fun h => absurd h exceeds⟩

theorem State.combine_none {e : Ecc} (hrow : (s.core c).que.cmbRow p = none) :
    s.combine c p e = (s.discardRow c p).injectAll (cmbAnswer p (p.errReply s.own 1)) := by
  rw [State.combine, hrow, ← State.err_unless_red (s.own_discardRow c p)]

end

/-! ### Credit returns (R280, R281) -/

/-- A core that a credit return has reached. -/
def Core.credited (k : Core) (p : Packet) : Core :=
  let e := bitsOf p.op6.toNat 4 0
  { k with que := k.que.setEntry e (setBits (k.que.entry e) 0 12 (min 4095 (sctCred (k.que.entry e) + p.op7.toNat))) }

/-- CRED replaced, the rest of the entry kept. -/
theorem setBits_cred (v : DWord) (x : Nat) : setBits v 0 12 x = v.extractLsb' 12 52 ++ BitVec.ofNat 12 x := by
  apply BitVec.eq_of_getLsbD_eq
  intro i hi
  have mask : (BitVec.ofNat 64 ((2 ^ 12 - 1) <<< 0)).getLsbD i = decide (i < 12) := by
    rw [BitVec.getLsbD_ofNat, Nat.shiftLeft_zero, Nat.testBit_two_pow_sub_one, decide_eq_true hi, Bool.true_and]
  have field : (BitVec.ofNat 64 ((x % 2 ^ 12) <<< 0)).getLsbD i = (decide (i < 12) && x.testBit i) := by
    rw [BitVec.getLsbD_ofNat, Nat.shiftLeft_zero, Nat.testBit_mod_two_pow, decide_eq_true hi, Bool.true_and]
  have join : (v.extractLsb' 12 52 ++ BitVec.ofNat 12 x : BitVec (52 + 12)).getLsbD i = if i < 12 then x.testBit i else v.getLsbD i := by
    rw [BitVec.getLsbD_append]
    split
    case isTrue low => rw [BitVec.getLsbD_ofNat, decide_eq_true low, Bool.true_and]
    case isFalse high =>
      have place : 12 + (i - 12) = i := by omega
      have inside : i - 12 < 52 := by omega
      simp [place, inside]
  rw [setBits, BitVec.getLsbD_or, BitVec.getLsbD_and, BitVec.getLsbD_not, mask, field]
  refine Eq.trans ?_ join.symm
  by_cases low : i < 12
  · simp [low]
  · simp [low, hi]

/-- A credit return raises CRED of its entry, at most to 4,095. -/
theorem Core.sct_credited (k : Core) (p : Packet) (e : Nat) :
    (Table.get 0 (k.credited p).que.sct e : DWord) = if e = (p.op6.extractLsb' 0 5).toNat then
      (k.que.entry e).extractLsb' 12 52 ++ BitVec.ofNat 12 (min 4095 (((k.que.entry e).extractLsb' 0 12).toNat + p.op7.toNat)) else k.que.entry e := by
  refine (Table.get_put ..).trans ?_
  rw [bitsOf_toNat p.op6 0 4, setBits_cred]
  split
  case isFalse => rfl
  case isTrue named => rw [named, sctCred, bitsOf_toNat _ 0 11]

theorem execCreditReturn_core {s : State} {n : Nat} {p : Packet} {c : CoreId} (h : Arrives s n p) (hkind : p.kind = .crd)
    (hdst : p.dst.toNat < 1024) (hc : c = p.core) :
    execCreditReturn n false s = .next ((s.sans n).setCore c ((s.core c).credited p)) := by
  subst hc
  rw [execCreditReturn, State.deliver_of_arrives h (by simp [hkind])]
  simp only [hdst, if_true, State.modCore, State.core_sans]
  rfl

/-- Settles O28: a packet that arrives is served at once, and each case of the service changes one core beside what its unit sends, counts and logs. -/
theorem landingRows : Obligations.LandingRows := by
  refine ⟨fun s n p c core pad at_ off h hkind hdst hc hpsn htgt hempty => ?message,
    fun s n p c core pad r off h hdst hc => ⟨?contribution, ?credit⟩⟩
  case message =>
    intro k q i kind r cfg ring rpad done key awaits answer landed put hi
    have served : exec (.messageRow n false) s = .next ((s.sans n).landRowAt c p) :=
      execMessageRow_later h hkind hpsn htgt hc hempty (by rwa [msgIdx_eq])
    refine ⟨fun a m b hk hrecs ha hm => ?ring, fun a m b hk hrecs ha hm => ?direct, fun hring hdirect => ?discard⟩
    case ring =>
      rw [State.landRowAt_ring (i := i) (key := key) ((msgKind_eq p).trans hk) (msgKey_eq p) (msgIdx_eq p)
          (by rw [State.core_sans, msgRing_eq]; exact hrecs) ha hm, State.core_sans, State.own_sans, msgRing_eq] at served
      refine does_answered served fun t answered hcore => ⟨answered, ?_, fun j hj => ?_, fun x j => ?_, ?_⟩
      · rw [hcore, Core.rings_ringLanded, if_pos rfl]; rfl
      · rw [hcore, Core.rings_ringLanded, if_neg hj]
      · rw [hcore, Core.row_ringLanded, rcBase_eq, msgIdx_eq]; rfl
      · rw [hcore]; rfl
    case direct =>
      rw [State.landRowAt_direct (i := i) (key := key) ((msgKind_eq p).trans hk) (msgKey_eq p) (msgIdx_eq p) htgt
          (by rw [State.core_sans]; exact hrecs) ha hm, State.core_sans, State.own_sans, semAdds_congr (s.own_sans n),
        semAdds_lsem] at served
      refine does_answered served fun t answered hcore => ⟨?_, answered, fun x j => ?_, ?_⟩
      · rw [hcore]; rfl
      · rw [hcore, Core.row_directLanded]; rfl
      · rw [hcore]; rfl
    case discard =>
      rw [State.landRowAt_none (by rwa [State.core_sans, msgKey_eq, msgIdx_eq, msgKind_eq, msgRing_eq])
          (by rwa [State.core_sans, msgKey_eq, msgIdx_eq, msgKind_eq]),
        State.err, State.own_discardRow, State.own_sans, Packet.errReply_eq (by simp [hkind])] at served
      exact ⟨_, served, _, rfl⟩
  case contribution =>
    intro hkind htgt hpsn hempty
    have served : exec (.combiningContribution n false .clean) s = .next ((s.sans n).combine c p .clean) :=
      execCombiningContribution_row h hkind hpsn htgt hc hempty
    have hrow := Queue.cmbRow_eq (q := ((s.sans n).core c).que) htgt
    rw [State.core_sans, cmbQueue_eq, cqBase_eq, cqSize_eq] at hrow
    refine ⟨fun takes clean => ?taken, fun refuses => ?discarded⟩
    case taken =>
      obtain ⟨hcore, hother, hcounts, hexceeds⟩ := State.combine_of_row (s := s.sans n) (c := c) (p := p) (pad := pad) (r := r)
        (by rw [State.core_sans]; exact hrow.trans (if_pos takes)) (by rwa [State.core_sans])
      simp only [State.core_sans, State.own_sans, State.cores_sans, combineSends_sans] at hcore hother hcounts hexceeds
      refine ⟨_, served, fun x j => ?_, fun j => ?_, ?_, hother, ?_, ?_⟩
      · rw [hcore, Core.row_combined]; rfl
      · rw [hcore, Core.cqstat_combined, Core.cmbStatAfter, CqStat.add_eq, Core.cmbStat, cmbQueue_eq]
      · rw [hcore]; rfl
      · simp only [combineSends, Core.cmbStatAfter, CqStat.add_sets_done, Core.Exceeds, Core.cmbStat, cqSem_eq, cmbQueue_eq] at hcounts
        exact hcounts
      · rw [Core.Exceeds, Core.cmbStat, cmbQueue_eq] at hexceeds
        exact fun exceeds => ⟨_, hexceeds exceeds⟩
    case discarded =>
      rw [State.combine_none (by rw [State.core_sans]; exact hrow.trans (if_neg refuses)), State.own_sans, Packet.errReply_eq (by simp [hkind])] at served
      exact ⟨_, served, _, rfl⟩
  case credit =>
    intro hkind
    have served : exec (.creditReturn n false) s = .next (((s.sans n).injectAll []).setCore c ((s.core c).credited p)) :=
      execCreditReturn_core h hkind hdst hc
    refine does_answered served fun t answered hcore => ⟨answered, ?_, fun e => ?_⟩
    · rw [hcore]; rfl
    · rw [hcore, Core.sct_credited]; rfl

end Sys2Proof.Machine
end
